-- ==== Sys2Proof/Word.lean ====
section
/-! DEFINITION. Sys2Proof/Word.lean: the word types of the tray and their plainest names. -/

namespace Sys2Proof

/-- A byte of a register, a buffer or memory (R2). -/
abbrev Byte := BitVec 8
/-- A 16-bit field: a requester ID, a sequence number, a status. -/
abbrev Half := BitVec 16
/-- A 32-bit register of a BAR0 block (R423). -/
abbrev Word := BitVec 32
/-- A 64-bit value: a token, a tally, a serial number, a UID. -/
abbrev Dword := BitVec 64
/-- One 64-byte line or mesh payload (R53). -/
abbrev Line := BitVec 512

end Sys2Proof
end

