-- ==== Sys2Proof/Syntax.lean ====
section
/-! DEFINITION. Sys2Proof/Syntax.lean: the commands of the tray, one constructor of `Instr` per row of
spec/opcode_table.json, and the plain data their operands are made of. Each operand is a field the spec gives
the command, or the outcome of something outside the block (a measurement, a CRC verdict, a sensor reading).
`t` is the tally instant, in account ticks since reset, at which a command arrives. -/

namespace Sys2Proof

/-- A die by position: tray T0-T3, package KP0-KP3, slot 0 for X and m + 1 for Cm (R6, R7). -/
structure DieId where
  tray : Fin 4
  pkg : Fin 4
  slot : Fin 5
deriving DecidableEq, Repr

/-- A link port of a die by its number (R429): 0 N, 1 E, 2 S, 3 W, 4 ROOT on an HC-2, m for Hm on an HX-1. -/
structure PortId where
  die : DieId
  port : Fin 5
deriving DecidableEq, Repr

/-- PORTREF as a mailbox request carries it, before any check: tray, die address, logical port (R263). -/
structure PRef where
  tray : Nat
  die : Nat
  port : Nat
deriving DecidableEq, Repr

/-- A mailbox request as it reaches the serving instance: where it came from and its header (R257, R260).
`port` 0-3 is the host port of KPn-X, 4 the Watermaster (R267). `rsvd` is the OR of the body's reserved bytes. -/
structure MReq where
  port : Fin 5
  rid : Half
  chan : Fin 9
  version : Nat
  flags : Byte
  seq : Half
  length : Nat
  token : Dword
  rsvd : Byte
  t : Nat
deriving DecidableEq, Repr

/-- The body of FIELD_CREATE and FIELD_RESIZE (R263): die masks per tray, window W and visible part H in bytes,
hold share in bytes. -/
structure FieldBody where
  field : Nat
  masks : List Nat
  w : Nat
  h : Nat
  hold : Nat
deriving DecidableEq, Repr

/-- A mesh packet (Table 3.2). DEST and SRC: 0-1023 tiles, 1024-1055 memory endpoints. -/
structure Packet where
  tag : Byte
  channel : Nat
  half : Bool
  pair : Bool
  dest : Nat
  src : Nat
  kind : Nat
  poison : Bool
  egress : Nat
  order : Bool
  payload : Line
deriving DecidableEq, Repr

/-- Whether an error check, of a mesh header or of a memory word, found nothing, a single-bit error or an uncorrectable one (R52,
R54). -/
inductive HdrErr where
  | clean
  | single
  | uncorrectable
deriving DecidableEq, Repr, Inhabited

/-- A tally mark body (Table 4.2); `rootOfs` in 1/128 tick; `state` of Table 18.3. -/
structure Mark where
  tally : Dword
  leader : Dword
  epoch : Half
  pinned : Nat
  rootOfs : Int
  depth : Nat
  state : Nat
deriving DecidableEq, Repr

/-- What arrives in one position of a bundle: the flit's bytes, the slot or codeword position the receiver
expected, the CW_NUM mismatch of Culvert, and the codeword's decoding verdict (R141-R145). -/
structure Rx where
  bytes : List Byte
  cwFailed : Bool
  cwCorrected : Nat
  cwMisnumbered : Bool
  quiet : List Nat
deriving DecidableEq, Repr

/-- The 16-byte header of a side-flow message (Table 7.2). -/
structure Hdr where
  opcode : Nat
  field : Nat
  space : Nat
  dst : DieId
  src : DieId
  dstUnit : Nat
  srcUnit : Nat
  tag : Nat
  cstatus : Nat
  len : Nat
  addr : Nat
deriving DecidableEq, Repr

/-- A side-flow message: header and LEN bytes of data (R174). -/
structure Msg where
  h : Hdr
  data : List Byte
deriving DecidableEq, Repr

/-- An end-to-end credit account (R192); channel 0 MEM_REQ, 1 COH_REQ, 2 INT, 3 DBG_REQ, 4 ALARM. -/
structure AcctId where
  src : DieId
  dst : DieId
  field : Fin 9
  chan : Fin 5
deriving DecidableEq, Repr

/-- A die's 1 ms telemetry (Table 12.2): temperatures in degrees, core rail in mV and mA, and of a compute die the planned firings and the
side packets by field number, the rung in force and the calibration windows counted since power-up. -/
structure Telemetry where
  tj : Int
  hbm0 : Int
  hbm1 : Int
  railMv : Nat
  railMa : Nat
  firings : List (Nat × Nat)
  packets : List (Nat × Nat)
  rung : Nat
  windows : Nat
deriving DecidableEq, Repr

/-- The module in an OSFP cage as its management memory states it (R89, R110); `lengthDm` in 0.1 m, none when
the memory declares no length; `invalidLength` for a field holding 0 or all ones. -/
structure Module where
  passive : Bool
  readable : Bool
  part : Nat
  serial : Nat
  lengthDm : Option Nat
  invalidLength : Bool
deriving DecidableEq, Repr

/-- What the peer states in CONFIG, with its turnaround in 1/128 tick (R114, R116, R118, R119). -/
structure PeerIdent where
  id : PortId
  uid : Dword
  serial : Dword
  gen : Nat
  turnaround : Nat := 0
deriving DecidableEq, Repr

/-- What the server of another tray answers about it when a span is formed or dissolved (R19, R22, R23): serial, bundle,
state, whether it has a loaded plan, its tray owner's requester and source, its placed dies, and for each side N, E, S, W the
serial of the tray it is joined to along the whole side, in order. -/
structure TrayInfo where
  serial : Dword
  bundle : Dword
  ready : Bool
  planLoaded : Bool
  owner : Option (Half × Fin 5)
  placedMask : Nat
  sides : List (Option Dword)
deriving DecidableEq, Repr

/-- A lane of a port: bundle, direction (0 transmit, 1 receive) and physical lane (R111, R126). -/
structure Lane where
  bundle : Nat
  dir : Nat
  lane : Nat
deriving DecidableEq, Repr

/-- What LEADER_CLAIM brings: a claim with its sender's serial, or a living leader's answer with its EPOCH (R98, R101). -/
structure Claim where
  serial : Dword
  answer : Option Half
deriving DecidableEq, Repr

/-- A role swap at a port: this end's own request sent to another tray, or the other end's received (R121). -/
structure SwapReq where
  port : PortId
  sent : Bool
deriving DecidableEq, Repr

/-- A receiver's switch boundary: whether the failures of the lane go on after it (R130). -/
structure RxSwitch where
  port : PortId
  failsOn : Bool
deriving DecidableEq, Repr

/-- Causes of LINK_DOWN (R162, R132, R133, Table 6.8). -/
inductive DownCause where
  | signal
  | codewordLock
  | spare
  | errors
  | replay
  | align
deriving DecidableEq, Repr

/-- Causes of WAKE (R136). -/
inductive WakeCause where
  | sideFlit
  | alarm
  | substitution
  | retrain
  | planLoad
  | disableDry
  | peerWake
deriving DecidableEq, Repr

/-- What a Steward's limit request changes (R296, R302, R303, R308). -/
inductive LimitKind where
  | thermal
  | cap
  | duty
deriving DecidableEq, Repr

/-- What a locate names (R358). -/
inductive LocateTarget where
  | tray
  | pkg (n : Fin 4)
  | cage (n : Fin 16)
deriving DecidableEq, Repr

/-- Which protective cap MONITOR_SCAN set (R327). -/
inductive CapTarget where
  | tray
  | pkg (n : Fin 4)
deriving DecidableEq, Repr

/-- Where a data line is held low when CHAIN_STUCK runs its recovery (R369). -/
structure StuckLine where
  recovers : Bool
  traySide : Bool
  pkgs : List (Fin 4)
  uidChanged : List (Fin 4)
deriving DecidableEq, Repr

/-- Why the Watermaster's firmware restarts, beside the watchdog (R334). -/
inductive RestartCause where
  | watchdog
  | fault
  | button
  | activation
deriving DecidableEq, Repr

/-- Who performs a register write (R4, R204, R428): a host port with its requester, the die's rider cores,
the Watermaster over the chain, or a debug access. -/
inductive Path where
  | host (port : Fin 4) (rid : Half)
  | local (d : DieId) (expert : Bool)
  | chain (d : DieId)
  | debug (d : DieId)
deriving DecidableEq, Repr

/-- Registers with no behaviour of their own beyond their access code, which REGISTER_WRITE writes
(Tables 18.2, 18.4, 18.8, 18.10, 18.11). `other` stands for every offset no table assigns and every RO one. -/
inductive Reg where
  | irqCause (high : Bool)
  | launchErr
  | msixMask (vector : Fin 64)
  | msixWord (vector : Fin 64) (word : Fin 3)
  | cfgBar (i : Fin 6)
  | cfgDevCtl
  | cfgDevCtl2
  | reqBuffer (chan : Fin 9) (ofs len : Nat)
  | plcCtrl (d : DieId)
  | plcPeer (d : DieId) (q : Fin 5) (high : Bool)
  | logHead (d : DieId)
  | trState (p : PortId)
  | cntSat (p : PortId)
  | thr (p : PortId) (j : Fin 6)
  | dryEn (p : PortId)
  | dryIdle (p : PortId)
  | tstCtrl (p : PortId)
  | tstUser (p : PortId)
  | tstUiLimit (p : PortId) (high : Bool)
  | tstEyesel (p : PortId)
  | other
deriving DecidableEq, Repr

/-- The commands: one constructor per row of spec/opcode_table.json, in the table's order. -/
inductive Instr where
  -- mailbox commands (R263)
  | idTray (r : MReq)
  | idDie (r : MReq) (tray die : Nat)
  | status (r : MReq)
  | placement (r : MReq) (pkg : Nat)
  | ownClaim (r : MReq) (scope : Nat)
  | ownRelease (r : MReq) (scope : Nat)
  | ownHeartbeat (r : MReq) (scope : Nat)
  | ownHandover (r : MReq) (scope : Nat) (succRid : Half) (succSrc : Nat)
  | ownAccept (r : MReq) (scope : Nat)
  | ownQuery (r : MReq)
  | ownNolapse (r : MReq) (scope : Nat) (set : Nat)
  | ownSeize (r : MReq) (scope : Nat)
  | ownExpert (r : MReq) (field : Nat) (enable : Nat)
  | fieldCreate (r : MReq) (b : FieldBody)
  | fieldResize (r : MReq) (b : FieldBody)
  | fieldDestroy (r : MReq) (field : Nat)
  | fieldDisable (r : MReq) (field : Nat)
  | fieldEnable (r : MReq) (field : Nat)
  | fieldStatus (r : MReq) (field : Nat)
  | planLoad (r : MReq) (ofs len : Nat)
  | planUnload (r : MReq) (pos : Nat)
  | planActivate (r : MReq)
  | planReload (r : MReq) (pos : Nat)
  | launchCancel (r : MReq) (idx : Nat) (all : Bool) (seq : Half)
  | planInfo (r : MReq) (pos : Nat)
  | launchResume (r : MReq)
  | ledgerRead (r : MReq) (first count : Nat)
  | linkCfgRead (r : MReq) (p : PRef) (ofs len : Nat)
  | linkRetrain (r : MReq) (p : PRef)
  | linkDisable (r : MReq) (p : PRef)
  | linkDisableForce (r : MReq) (p : PRef)
  | linkEnable (r : MReq) (p : PRef)
  | linkDry (r : MReq) (p : PRef) (enable : Nat) (idleUs : Nat)
  | linkPond (r : MReq) (p : PRef) (pond : Nat) (holds : List Nat)
  | linkThresh (r : MReq) (p : PRef) (figs : List Nat)
  | linkCntClear (r : MReq) (p : PRef) (mask : Half)
  | sfTimer (r : MReq) (ms : Nat)
  | spanForm (r : MReq) (shape : Nat) (info : List TrayInfo)
  | spanDissolve (r : MReq) (info : List TrayInfo)
  | powerRead (r : MReq)
  | powerCap (r : MReq) (tray : Nat) (pkgs : List Nat)
  | fieldRung (r : MReq) (field ceiling : Nat)
  | calOff (r : MReq) (field set : Nat)
  | pkgRearm (r : MReq) (pkg : Nat)
  | pkgPowerOn (r : MReq) (pkg : Nat)
  | pkgPowerOff (r : MReq) (pkg : Nat)
  | trbRead (r : MReq) (tray die first count : Nat)
  | trbClear (r : MReq) (tray die : Nat) (mask : Half)
  | obsCounters (r : MReq) (field : Nat)
  | obsHistArm (r : MReq) (p : PRef)
  | obsHistRead (r : MReq) (p : PRef)
  | obsTraceStart (r : MReq) (p : PRef)
  | obsTraceRead (r : MReq) (p : PRef)
  | obsTraceStop (r : MReq) (p : PRef)
  | dbgRead (r : MReq) (tray die addr len : Nat)
  | dbgWrite (r : MReq) (tray die addr : Nat) (data : List Byte)
  | fwStatus (r : MReq)
  | fwStage (r : MReq) (host len : Nat)
  | fwActivate (r : MReq)
  | fwRollback (r : MReq)
  | fwAbort (r : MReq)
  | testStart (r : MReq) (p : PRef) (ctrl : Word) (uiLimit : Nat) (user : Word)
  | testStop (r : MReq) (p : PRef)
  | testRead (r : MReq) (p : PRef) (lane : Nat)
  | repairClear (r : MReq) (p : PRef)
  -- host-port accesses, channel and ownership timers (10, 18)
  | dbiMbxLockRead (port : Fin 4) (k : Fin 9) (rid : Half) (t : Nat)
  | mbxSubmit (port : Fin 4) (k : Fin 9) (rid : Half) (t : Nat)
  | mbxRelease (port : Fin 4) (k : Fin 9) (rid : Half) (t : Nat)
  | mbxResponsePosted (port : Fin 4) (k : Fin 9) (t : Nat)
  | mbxLockSubmitTimeout (port : Fin 4) (k : Fin 9) (t : Nat)
  | mbxLockDoneTimeout (port : Fin 4) (k : Fin 9) (t : Nat)
  | wmAbsentTimeout (port : Fin 4) (k : Fin 9) (t : Nat)
  | ownClaimWindowClose (scope : Fin 9) (t : Nat)
  | ownerLapse (scope : Fin 9) (t : Nat)
  | handoverExpiry (scope : Fin 9) (t : Nat)
  | ownBeatWrite (port : Fin 4) (rid : Half) (bits : Half) (t : Nat)
  | launchDoorbell (port : Fin 4) (rid : Half) (f : Fin 8) (prod : Byte) (t : Nat)
  | launchRingWrite (port : Fin 4) (rid : Half) (f : Fin 8) (ofs : Nat) (data : List Byte)
  | hostBar4Read (port : Fin 4) (rid : Half) (ofs len : Nat)
  | hostBar4Write (port : Fin 4) (rid : Half) (ofs : Nat) (data : List Byte)
  | hostPortReset (port : Fin 4)
  | pciePowerStateChange (port : Fin 4) (d3 : Bool)
  | idsTallyLoRead (port : Fin 4)
  | idsTallyHiRead (port : Fin 4)
  | trbSummaryWrite (port : Fin 4) (rid : Half) (value : Dword)
  | hgAlmctlPop (d : DieId)
  | tstCtrlStart (p : PortId)
  | tstCtrlStop (p : PortId)
  | registerWrite (path : Path) (reg : Reg) (value : Word)
  | testRunLimit (p : PortId)
  -- field sequencers (02, 04)
  | stepBoundary (f : Fin 8) (t : Nat)
  | launchTake (f : Fin 8) (t : Nat)
  | homeRecallDone (f : Fin 8) (d : DieId) (t : Nat)
  -- tiles and mesh (03)
  | routerForward (d : DieId) (idx : Nat) (cycle : Fin 64) (err : HdrErr)
  | meshPacketArrival (d : DieId) (tile : Fin 1024) (p : Packet)
  | ruleFire (d : DieId) (tile : Fin 1024)
  | iterationComplete (d : DieId) (tile : Fin 1024) (tag : Byte)
  | creditReturn (d : DieId) (src : Nat) (dst : Nat) (channel : Nat)
  | memoryReadRequest (d : DieId) (ep : Fin 32) (addr : Nat) (p : Packet) (reply : Nat) (t : Nat)
  | memoryWrite (d : DieId) (ep : Fin 32) (addr : Nat) (p : Packet) (t : Nat)
  | memoryReadResponse (d : DieId) (ep : Fin 32) (t : Nat)
  | ingressInject (p : PortId)
  | drainMarkerArrival (d : DieId) (tile : Fin 1024) (channel : Nat)
  | tileDrained (d : DieId) (tile : Fin 1024)
  | configPacketArrival (d : DieId) (tile : Fin 1024) (p : Packet)
  | tileSwitch (d : DieId) (tile : Fin 1024)
  -- reconfiguration (09)
  | switchStepEnd (f : Fin 8) (d : DieId) (t : Nat)
  | dieSwitchReport (f : Fin 8) (d : DieId) (t : Nat)
  | reloadDeadline (f : Fin 8) (d : DieId) (t : Nat)
  | fieldDrained (f : Fin 8) (t : Nat)
  | drainLimit (f : Fin 8) (t : Nat)
  | flushComplete (f : Fin 8) (t : Nat)
  -- the clock of account (04)
  | tallyMarkSend (p : PortId) (t : Nat)
  | tallyMark (p : PortId) (m : Mark) (frac : Fin 128) (t : Nat)
  | slewStep (d : DieId) (t : Nat)
  | parentSilence (d : DieId) (t : Nat)
  | holdoverDescendantEnd (d : DieId) (t : Nat)
  | holdoverVacant (d : DieId) (t : Nat)
  | holdoverFault (d : DieId) (t : Nat)
  | leaderClaim (c : Claim) (t : Nat)
  | leaderClaimWindowClose (t : Nat)
  | referenceInputFail (t : Nat)
  | rootTallyStart (t : Nat)
  | fieldChangeNotice (f : Fin 8) (d : DieId) (t : Nat)
  | fieldChangeConfirm (f : Fin 8) (d : DieId) (t : Nat)
  | commitDeadline (f : Fin 8) (t : Nat)
  | fieldChangeCommit (f : Fin 8) (d : DieId) (t : Nat)
  | stewardLimit (f : Fin 8) (t : Nat)
  -- link training (05)
  | trainingTimeout (p : PortId) (t : Nat)
  | trainingBackoffEnd (p : PortId) (t : Nat)
  | detectAnswer (p : PortId) (t : Nat)
  | clockLocked (p : PortId) (t : Nat)
  | eqRecordAnswer (p : PortId) (t : Nat)
  | eqFetchTimeout (p : PortId) (t : Nat)
  | equaliseDone (p : PortId) (passed : Bool) (t : Nat)
  | repairDone (p : PortId) (peerMaps : List Half) (failing : List Lane) (t : Nat)
  | alignDone (p : PortId) (lanesReversed bundlesReversed : Bool) (t : Nat)
  | configDone (p : PortId) (peer : PeerIdent) (t : Nat)
  | pinDone (p : PortId) (trips : Nat) (t : Nat)
  | eqRecordStore (p : PortId) (flashOk : Bool) (t : Nat)
  | roleSwap (r : SwapReq) (t : Nat)
  | modulePresenceChange (cage : Fin 16) (m : Option Module) (t : Nat)
  -- lanes and Dry (05)
  | laneSilent (p : PortId) (l : Lane) (t : Nat)
  | substitutionTxSwitch (p : PortId) (t : Nat)
  | substitutionRxSwitch (r : RxSwitch) (t : Nat)
  | clockPairLoss (p : PortId) (t : Nat)
  | linkDown (p : PortId) (cause : DownCause) (t : Nat)
  | dryIdleElapsed (p : PortId) (t : Nat)
  | dryReq (p : PortId) (t : Nat)
  | dryAck (p : PortId) (t : Nat)
  | dryNak (p : PortId) (t : Nat)
  | dryCommit (p : PortId) (t : Nat)
  | dryEntered (p : PortId) (t : Nat)
  | wake (p : PortId) (cause : WakeCause) (t : Nat)
  | dryExitDone (p : PortId) (dead : List Lane) (pinOk : Bool) (t : Nat)
  -- flits (06)
  | plannedPositionSend (p : PortId) (bundle : Nat) (slot : Fin 256)
  | sidePositionSend (p : PortId) (bundle : Nat) (slot : Fin 256) (t : Nat)
  | plannedFlitReceive (p : PortId) (bundle : Nat) (slot : Fin 256) (rx : Rx) (t : Nat)
  | sideFlitReceive (p : PortId) (bundle : Nat) (slot : Fin 256) (rx : Rx) (t : Nat)
  | nak (p : PortId) (expected : Half) (t : Nat)
  | ackTimerExpiry (p : PortId) (t : Nat)
  | replaySync (p : PortId) (expected next : Half) (t : Nat)
  | lcRequestRepeat (p : PortId)
  | cfgRd (p : PortId) (ofs : Nat) (count : Nat)
  | cfgRsp (p : PortId) (ofs : Nat) (stat : Nat) (data : List Byte)
  | errorWindowEnd (p : PortId) (t : Nat)
  | sluice (d : DieId) (f : Fin 8) (port : Nat) (boundary : Nat) (from_ : DieId) (t : Nat)
  -- side flow (07)
  | messageForward (d : DieId) (m : Msg) (arrival : Option (Fin 5)) (t : Nat)
  | credit (h : Hdr) (data : List Byte)
  | creditSendDue (a : AcctId) (t : Nat)
  | census (h : Hdr) (data : List Byte) (t : Nat)
  | censusDue (a : AcctId)
  | lostNotice (h : Hdr) (data : List Byte) (t : Nat)
  | routeHold (h : Hdr) (t : Nat)
  | routeClear (h : Hdr) (t : Nat)
  | memRd (h : Hdr) (t : Nat)
  | memWr (h : Hdr) (data : List Byte) (t : Nat)
  | memWrNp (h : Hdr) (data : List Byte) (t : Nat)
  | memAtomic (h : Hdr) (data : List Byte) (t : Nat)
  | memCpl (h : Hdr) (data : List Byte) (t : Nat)
  | memCplNd (h : Hdr) (t : Nat)
  | ownReq (h : Hdr) (t : Nat)
  | ownGrant (h : Hdr) (data : List Byte) (t : Nat)
  | inval (h : Hdr)
  | invalAck (h : Hdr) (data : List Byte)
  | release (h : Hdr) (data : List Byte) (t : Nat)
  | intMsg (h : Hdr) (data : List Byte) (t : Nat)
  | dbgRd (h : Hdr) (t : Nat)
  | dbgWr (h : Hdr) (data : List Byte) (t : Nat)
  | dbgRsp (h : Hdr) (data : List Byte) (t : Nat)
  | alarm (h : Hdr) (data : List Byte) (t : Nat)
  | sfTimerExpiry (d : DieId) (unit tag : Nat) (t : Nat)
  | sfCeilingExpiry (d : DieId) (unit tag : Nat) (t : Nat)
  -- the Steward (12)
  | telemetryRecord (d : DieId) (x : Telemetry) (t : Nat)
  | telemetryLost (d : DieId) (t : Nat)
  | thermalLevelLeave (d : DieId) (t : Nat)
  | limitRaiseDue (f : Fin 8) (d : DieId) (k : LimitKind) (t : Nat)
  | thermalTrip (d : DieId) (t : Nat)
  | capReceive (pkg : Fin 4) (source : Fin 3) (trayCap pkgCap : Nat) (t : Nat)
  | regulatorSettled (d : DieId) (t : Nat)
  | calWindowMeasure (d : DieId) (railMa : Nat) (t : Nat)
  | calStale (d : DieId) (t : Nat)
  -- power and protection (13)
  | inputLockout (t : Nat)
  | breakerTrip (pkg : Fin 4) (t : Nat)
  | rampTimeout (pkg : Fin 4) (t : Nat)
  | hsOvertemp (pkg : Fin 4) (t : Nat)
  | vhsRampDone (pkg : Fin 4) (t : Nat)
  | powerupSequenceStep (pkg : Fin 4) (t : Nat)
  | railInWindow (pkg : Fin 4) (rail : Fin 11) (t : Nat)
  | railWindowTimeout (pkg : Fin 4) (rail : Fin 11) (t : Nat)
  | powerdownSequenceStep (pkg : Fin 4) (slow : Bool) (t : Nat)
  | vhsDischarged (pkg : Fin 4) (t : Nat)
  | pkgDown (d : DieId) (t : Nat)
  | monitorScan (readings : List Int) (t : Nat)
  | inputFault (t : Nat)
  | inputReturn (t : Nat)
  | regulatorHiccup (pkg : Fin 4) (rail : Fin 11) (t : Nat)
  | hiccupWindowEnd (pkg : Fin 4) (inWindow : Bool) (t : Nat)
  | regulatorLatchoff (pkg : Fin 4) (rail : Fin 11) (t : Nat)
  | protectiveCapClear (c : CapTarget) (t : Nat)
  | dieWarmReset (d : DieId) (t : Nat)
  | dieResetRelease (d : DieId) (t : Nat)
  -- the rack interface (13, 14)
  | redfishTrayOn (t : Nat)
  | redfishTrayForceoff (t : Nat)
  | redfishTrayPowercycle (t : Nat)
  | powercycleOnDelay (t : Nat)
  | redfishPkgOn (pkg : Fin 4) (t : Nat)
  | redfishPkgForceoff (pkg : Fin 4) (t : Nat)
  | redfishPkgGracefulshutdown (pkg : Fin 4) (t : Nat)
  | redfishPkgForcerestart (pkg : Fin 4) (t : Nat)
  | redfishResetUnsupported
  | redfishCap (c : CapTarget) (watts : Nat) (t : Nat)
  | redfishClearFault (pkg : Fin 4) (t : Nat)
  | redfishLocate (l : LocateTarget) (on : Bool) (t : Nat)
  | redfishUpdatePush (oneTime : Bool) (bundle : Dword) (t : Nat)
  | redfishFwActivate (t : Nat)
  | redfishFwRollback (t : Nat)
  | redfishRecoveryRequest
  -- the Watermaster's service (14)
  | watchdogExpiry (t : Nat)
  | wmFirmwareFault (t : Nat)
  | wmServiceResumed (t : Nat)
  | wmHeartbeatDue (t : Nat)
  | bootExpiryCountReset (t : Nat)
  | buttonPress (ms : Nat) (t : Nat)
  | buttonHold (t : Nat)
  | locateTimeout (l : LocateTarget) (t : Nat)
  | stagingComplete (image : List Byte) (flashOk : Bool) (t : Nat)
  -- start-up (15)
  | trayPowerUp (t : Nat)
  | bringupDeadline (t : Nat)
  | bringupRetry (t : Nat)
  | vmgtInWindow (pkg : Fin 4) (t : Nat)
  | chainAssign (d : DieId) (addr : Byte)
  | chainRead (d : DieId) (ofs len : Nat)
  | chainWrite (d : DieId) (ofs : Nat) (data : List Byte)
  | assignNoAnswer (pkg : Fin 4) (slot : Fin 5) (t : Nat)
  | chainStuck (x : StuckLine) (t : Nat)
  | chainRetry (pkg : Fin 4) (linesHigh uidsMatch : Bool) (t : Nat)
  | chainAlarmPoll (t : Nat)
  | firmwareComponentArrival (d : DieId) (crcOk : Bool) (t : Nat)
  | hbmTrainingDone (d : DieId) (ok : Bool) (t : Nat)
  | hbmScrubDone (d : DieId) (t : Nat)
  | trayReady (t : Nat)
  | trayDegraded (t : Nat)
  | spanReform (info : List TrayInfo) (t : Nat)
  -- trouble and observation (16, 17)
  | handlingDone (d : DieId) (cls : Fin 9) (t : Nat)
  | handlingTimeout (d : DieId) (cls : Fin 9) (t : Nat)
  | histogramSample (t : Nat)
  | pinningPadOverflow (p : PortId) (t : Nat)
  | auxiliarySupplyLoss (t : Nat)
  | riderFault (d : DieId) (core : Nat) (t : Nat)
  | dieUe (d : DieId) (t : Nat)
  | fabricUe (d : DieId) (t : Nat)
  | scrubComplete (f : Fin 8) (t : Nat)
deriving DecidableEq, Repr

end Sys2Proof
end

