-- ==== Sys2Proof/Machine/State.lean ====
section
/-! DEFINITION. Sys2Proof/Machine/State.lean: the whole state of the tray as plain data, its reset, and the reasons a
command can stop. INVENTORY.md lists every piece with the rule that names it. Tables with a default (dies, ports,
tiles, registers of a tile) are association lists by a Nat key; memories are lists of `Host.Cell` in canonical form. -/

namespace Sys2Proof.Machine

/-- An association list by a Nat key, sorted by key; a key not listed holds the default its reader names. -/
abbrev NMap (ν : Type) := List (Nat × ν)

/-- A byte memory: strictly rising addresses, no byte equal to 0, which is what an unlisted address reads as
(R279, R373: every byte is scrubbed to 0 before use; R426 for rings). -/
abbrev Memory := List Host.Cell

/-- Ways the block stops. -/
inductive Fault where
  /-- Raised by a command that names a tile or a memory endpoint of an I/O die, which has none (Table 1.2, R65).
  Safe: the block stops where the hardware has no such unit. -/
  | noSuchUnit
deriving DecidableEq, Repr

/-- Commands without a meaning. -/
inductive Refusal where
  /-- The command has no meaning in the model yet. Safe. -/
  | notModelled (mnemonic : String)
deriving DecidableEq, Repr

/-! ### Trouble records (16) -/

/-- An error record entry (Table 16.5). FIELD 0xFF where no field is concerned; DIE 0 for the Watermaster. -/
structure Rec where
  code : Nat := 0
  severity : Byte := 0
  field : Nat := 0xFF
  count : Nat := 1
  locKind : Nat := 0
  die : Nat := 0
  location : Nat := 0
  tally : Nat := 0
  info : Nat := 0
deriving DecidableEq, Repr

/-- An entry of a headgate agent's alarm FIFO (R428): OPCODE, FIELD byte and data. -/
structure AlarmCopy where
  opcode : Nat := 0
  field : Nat := 0
  record : Rec := {}
  port : Nat := 0
  boundary : Nat := 0
deriving DecidableEq, Repr

/-- What a receiver of an alarm has acted on: source die, CODE and TALLY (R406). -/
structure ActedKey where
  die : Nat
  code : Nat
  tally : Nat
deriving DecidableEq, Repr

/-- A die's trouble state (R394-R400). -/
structure Trb where
  fec : Option Rec := none
  log : List Rec := []
  ovf : Bool := false
  ovfCount : Nat := 0
  /-- Bit c for class c, with the tally it was set at (R398, R400). -/
  handling : List (Nat × Nat) := []
  /-- TRB_EPOCH, the account epoch (R192). -/
  epoch : Byte := 0
  fifo : List AlarmCopy := []
  fifoHead : Nat := 0
  acted : List ActedKey := []
deriving DecidableEq, Repr

/-! ### Identity, placement and start of a die (08, 15) -/

/-- The fused identity record (Table 8.2); `ok` is that its TAG and CHECK are good (R207). -/
structure Ident where
  tag : Nat := 0x4944
  checkOk : Bool := true
  part : Nat := 0x0C02
  stepping : Nat := 1
  gen : Nat := 2
  uid : Dword := 0
  maxRung : Nat := 7
  coef : List Byte := List.replicate 32 0
deriving DecidableEq, Repr

/-- One slot of a placement record (Table 8.4). -/
structure SlotEnt where
  uid : Dword := 0
  orient : Nat := 0
  edgeUse : Byte := 0
  root : Nat := 0
deriving DecidableEq, Repr

/-- A package's placement record, fused in its X (Table 8.3). -/
structure Placement where
  tag : Nat := 0x504C
  checkOk : Bool := true
  serial : Dword := 0
  pkgType : Nat := 1
  slots : List SlotEnt := []
deriving DecidableEq, Repr

/-- What a die runs (R362, R372). -/
inductive BootSt where
  | off
  | inReset
  | bootRom
  | firmware
deriving DecidableEq, Repr

/-- Start-up state of a die: headgate agent (R366), placement registers (Table 18.9), boot, HBM (R373). -/
structure Boot where
  addr : Byte := 0
  selOut : Bool := false
  plcCtrl : Word := 0
  plcPeer : NMap Dword := []
  st : BootSt := .off
  /-- When the reset line was asserted last (R328). -/
  resetAt : Nat := 0
  /-- Components loaded, failed checks of the present one, and whether the third failed (R372). -/
  comps : Nat := 0
  loads : Nat := 0
  loadFailed : Bool := false
  hbmTrained : Bool := false
  hbmScrubbed : Bool := false
  hbmFailed : Bool := false
  testMode : Bool := false
  /-- Whether the slot holds a die (R368). -/
  fitted : Bool := true
  orientStrap : Nat := 0
  /-- TAG of the fuse record, and whether its CHECK holds (R126, R216). -/
  fuseTag : Nat := 0x4C52
  fuseOk : Bool := true
  fuseReported : Bool := false
  /-- Fuse record entries (R126); an index not listed is 0x03FF. -/
  fuse : NMap Half := []
deriving DecidableEq, Repr

/-! ### The clock of account (04) -/

/-- Tally states (Table 4.3, Table 18.3). -/
inductive TallySt where
  | unsynced
  | agreed
  | fault
  | holdover
deriving DecidableEq, Repr

/-- The last mark a port received and when (R83). -/
structure Seen where
  mark : Mark
  err : Int
  when_ : Nat
deriving DecidableEq, Repr

/-- A die's tally and its place in the tally tree (R80-R103). Errors and offsets in 1/128 tick. -/
structure Tally where
  value : Dword := 0
  phase : Int := 0
  counting : Bool := false
  st : TallySt := .unsynced
  parent : Option (Fin 5) := none
  depth : Nat := 0xFF
  rootOfs : Int := 0
  epoch : Half := 0
  leader : Dword := 0
  err : Int := 0
  lastMark : Nat := 0
  lastSlew : Nat := 0
  strikes : Nat := 0
  holdSince : Nat := 0
  deeperOk : Bool := false
  vacantSince : Option Nat := none
  /-- The epoch at which the die came to treat leadership as vacant (R101). -/
  oldEpoch : Half := 0
  /-- Stepped since it entered UNSYNCED: a die steps once there (R80). -/
  stepped : Bool := false
  wasAgreed : Bool := false
  seen : NMap Seen := []
deriving DecidableEq, Repr

/-! ### Tiles and mesh (03) -/

/-- A firing rule: operand channels, output channels as (destination, channel, pair), iteration end (R63, R64). -/
structure Rule where
  operands : List Nat := []
  outputs : List (Nat × Nat × Bool) := []
  isEnd : Bool := false
deriving DecidableEq, Repr

/-- An input channel at its consumer: bound (queue entries), back mark, next expected tag in arrival order, and later tags whose
substitutes stand in the queue before their turn (R60, R74, R233; log entry 123). -/
structure InChan where
  channel : Nat := 0
  bound : Nat := 0
  back : Bool := false
  nextTag : Byte := 0
  early : List Byte := []
deriving DecidableEq, Repr

/-- An output channel at its source: destination, channel number there, bound, credits now and arriving (R59). -/
structure OutChan where
  dst : Nat := 0
  channel : Nat := 0
  bound : Nat := 0
  credits : Nat := 0
  fresh : Nat := 0
  order : Bool := false
  egress : Nat := 0
  cycles : Nat := 0
deriving DecidableEq, Repr

/-- A pairing table entry (R62). -/
structure PairEnt where
  rule : Nat
  tag : Byte
  present : List Nat := []
  reserved : Bool := false
deriving DecidableEq, Repr

/-- A tile (R50-R75, R235). An unlisted register or SRAM byte is 0. -/
structure Tile where
  configured : Bool := false
  rules : List Rule := []
  ins : List InChan := []
  outs : List OutChan := []
  t0 : Byte := 0
  done : List Byte := []
  iterations : List Byte := []
  /-- Tags whose end rule has fired and not yet retired (R64). -/
  ending : List Byte := []
  queue : List Packet := []
  /-- Substitutes for lost packets that wait for an entry of their channel (R69, R74). -/
  owed : List Packet := []
  pairs : List PairEnt := []
  v : NMap (BitVec 1024) := []
  s : NMap Word := []
  sram : Memory := []
  poisonV : List Nat := []
  poisonS : List Nat := []
  poisonLines : List Nat := []
  markers : List Nat := []
  markersSent : Bool := false
  drained : Bool := false
  switched : Bool := false
  cfg : List Packet := []
  cfgWaiting : List Packet := []
  cfgPoisoned : Bool := false
deriving DecidableEq, Repr

/-- A packet in the mesh: the router it is at, the round cycles it may use next (bit c for cycle c), and whether it has
reached the local port of its destination (R55). -/
structure InFlight where
  packet : Packet
  router : Nat
  cycles : Nat
  arrived : Bool := false
deriving DecidableEq, Repr

/-- A read request a memory endpoint has accepted (R66). -/
structure RdReq where
  addr : Nat
  tag : Byte
  src : Nat
  reply : Nat
  since : Nat
deriving DecidableEq, Repr

/-- A memory endpoint: last tick it accepted a packet, requests in order, channels it sources (R59, R66). -/
structure Endpoint where
  last : Option Nat := none
  reqs : List RdReq := []
  outs : List OutChan := []
deriving DecidableEq, Repr

/-- Six saturating counters per die for its user field (R284). -/
structure FieldCnt where
  planned : Nat := 0
  poison : Nat := 0
  refusals : Nat := 0
  sourced : Nat := 0
  holdFull : Nat := 0
  contained : Nat := 0
deriving DecidableEq, Repr

/-! ### Side flow (07) -/

/-- The source end of a credit account (R194). -/
structure AcctSrc where
  sent : Nat := 0
  grantSeen : Nat := 0
  epoch : Byte := 0
deriving DecidableEq, Repr

/-- The sink end of a credit account (R194). -/
structure AcctSink where
  received : Nat := 0
  granted : Nat := 0
  reported : Nat := 0
  firstUnreported : Option Nat := none
deriving DecidableEq, Repr

/-- An outstanding non-posted request (R184, R198). `ended` keeps the TAG allocated after a timeout (R200). -/
structure OutReq where
  unit : Nat
  tag : Nat
  dst : DieId
  field : Nat
  opcode : Nat
  sentAt : Nat
  ran : Nat := 0
  lastRun : Nat := 0
  ended : Option Nat := none
deriving DecidableEq, Repr

/-- A request result delivered to its source unit: status code (R183) and data. -/
structure ReqResult where
  unit : Nat
  tag : Nat
  status : Nat
  data : List Byte := []
deriving DecidableEq, Repr

/-- A line the home tracks (R185-R187): owner, agents waiting, INVAL outstanding. -/
structure DirLine where
  line : Nat
  owner : Option DieId := none
  waiting : List (DieId × Nat) := []
  inval : Bool := false
deriving DecidableEq, Repr

/-- A line an I/O die's line cache owns (R185). -/
structure CacheLine where
  home : DieId
  line : Nat
  data : List Byte
  dirty : Bool := false
  /-- The line holds poison: granted so, and not yet written whole (R46). -/
  bad : Bool := false
deriving DecidableEq, Repr

/-- A die's side-flow state. -/
structure SideDie where
  outbox : List Msg := []
  sources : NMap AcctSrc := []
  sinks : NMap AcctSink := []
  reqs : List OutReq := []
  results : List ReqResult := []
  holds : List DieId := []
  dir : List DirLine := []
  cache : List CacheLine := []
  alarms : List Msg := []
deriving DecidableEq, Repr

/-! ### The Steward's view of a die (12) -/

/-- An exact fraction: the estimator of R310 computes without rounding. -/
structure Frac where
  num : Int := 0
  den : Nat := 1
deriving DecidableEq, Repr, Inhabited

/-- Power and heat of a die as its package's Steward holds them (R294-R313). Voltages in mV, powers in mW. -/
structure Power where
  /-- Levels of Table 12.4 that are entered (1 rung drop, 2 fallow throttle, 3 orderly shutdown), each with the instant of the
  last sample that was not 3 degrees below its threshold (R301). -/
  levels : NMap Nat := []
  lastSample : Telemetry := ⟨0, 0, 0, 0, 0, [], [], 0, 0⟩
  /-- Consecutive telemetry samples (R379). -/
  samples : Nat := 0
  lastTelemetry : Nat := 0
  lost : Bool := false
  /-- The die's thermal limit and the instant of its last raise, or of the return to normal (R302). -/
  limit : Nat := 7
  limitRaised : Nat := 0
  /-- The fallow duty the die asks for, in percent, and the instant of its last fall, or of leaving the level (R303). -/
  duty : Nat := 0
  dutyAt : Nat := 0
  target : Nat := 0
  settled : Bool := false
  heldTarget : Option Nat := none
  ileak : Frac := {}
  offset : Frac := {}
  cdyn : Frac := {}
  pbase : Frac := {}
  estimate : Frac := {}
  windows : Nat := 0
  lastWindow : Nat := 0
  guard : Bool := true
  stale : Bool := false
deriving DecidableEq, Repr

/-- A die. -/
structure Die where
  ident : Ident := {}
  place : Placement := {}
  boot : Boot := {}
  tally : Tally := {}
  trb : Trb := {}
  /-- HBM of a compute die (48 GiB), SRAM of an I/O die (16 MiB). -/
  mem : Memory := []
  /-- Poisoned 64-byte lines of `mem`, by line number (R46). -/
  poison : List Nat := []
  tiles : NMap Tile := []
  mesh : List InFlight := []
  /-- Channels, as source, destination and number there, and routers their drain markers have passed in the present wave (R234). -/
  passed : List (Nat × Nat × Nat × Nat) := []
  eps : NMap Endpoint := []
  cnt : FieldCnt := {}
  side : SideDie := {}
  pow : Power := {}
deriving DecidableEq, Repr

/-! ### Link ports (05, 06, 08, 17) -/

/-- Training states, with the codes of KLC_TRSTATE (Table 18.11). -/
inductive TrSt where
  | down
  | detect
  | clock
  | equalise
  | repair
  | align
  | config
  | pin
  | up
  | failed
  | dry
deriving DecidableEq, Repr

/-- Phases of entering and leaving Dry (R135, R136). -/
inductive DryPhase where
  | none_
  | requested
  | sequences
  | answered
  | committed
  | dry
  | exiting
deriving DecidableEq, Repr

/-- Training and identity of a link port (R114-R121, Table 18.11, Table 4.5). -/
structure Link where
  st : TrSt := .down
  attempts : Nat := 0
  leader : Bool := false
  last : Nat := 0
  collided : Bool := false
  collisions : Nat := 0
  noSwapBefore : Nat := 0
  swapAsked : Option Nat := none
  swapped : Bool := false
  rawLat : Nat := 0
  timerFrom : Nat := 0
  /-- The state's timer in ticks; none while no timer runs (DETECT, the record fetch, UP). -/
  timer : Option Nat := none
  backoffFrom : Option Nat := none
  fetching : Bool := false
  cold : Bool := false
  enabled : Bool := false
  disabled : Bool := false
  forced : Bool := false
  /-- The tally at which a forced disable was commanded, and at which it was lifted (R246, R247). -/
  forcedAt : Option Nat := none
  liftedAt : Option Nat := none
  /-- A new equalisation record waits to be stored (R124). -/
  eqOwed : Bool := false
  kl2 : Bool := false
  gen : Nat := 0
  profile : Nat := 0
  peer : Option PortId := none
  /-- The peer lies on a tray outside the span (R385). -/
  foreign : Bool := false
  pinned : Nat := 0
  /-- The ledger's present entry fields: peer as published and its last change (R91, R92). -/
  inLedger : Bool := false
  changed : Dword := 0
  wrap : Bool := false
  cable : Option Module := none
  /-- The cage's 3.3 V supply is off: its module was refused as not passive (R439). -/
  cageOff : Bool := false
  /-- The recovered clock of the port failed the cleaner since its link last trained (R78). -/
  refFailed : Bool := false
  pad : Int := 0
  /-- What the peer stated in the last CONFIG (R114). -/
  heard : Option PeerIdent := none
  reversedLanes : Bool := false
  reversedBundles : Bool := false
deriving DecidableEq, Repr

/-- A pending substitution request (R130): bundle, lanes to retire (0x1F none), wheel number of the switch boundary, and the
tally at which the transmitter received its first copy. -/
structure Subst where
  bundle : Nat
  laneA : Nat
  laneB : Nat
  boundary : Nat
  copyAt : Nat := 0
deriving DecidableEq, Repr

/-- What soft retirements of a link end are held under: the key of R122 but for the maps, which they make (R127). -/
structure SoftKey where
  uid : Dword
  port : Nat
  peerUid : Dword
  cable : Option (Nat × Nat)
deriving DecidableEq, Repr

/-- A soft retirement the Watermaster keeps: key, map index, lane, source (R127, R128). -/
structure SoftRet where
  key : SoftKey
  map : Nat
  lane : Nat
  src : Nat
deriving DecidableEq, Repr

/-- Lanes of a port: working repair maps by 2 x bundle + direction (KLC_LANEMAP), substitutions,
failed flits in a row per bundle, equaliser settings (R122-R133). -/
structure Lanes where
  maps : NMap Half := []
  rx : Option Subst := none
  tx : Option Subst := none
  fails : NMap Nat := []
  /-- The free value that stands for the equaliser settings in use, none before the first (R122). -/
  eq : Option Nat := none
  /-- The soft retirements held for the port as it entered REPAIR (R127, R224). -/
  soft : List SoftRet := []
deriving DecidableEq, Repr

/-- Pinning of a link at this end (R86, R90, R102). -/
structure Pin where
  lost : Bool := false
  errStrikes : Nat := 0
  pinStrikes : Nat := 0
  good : Nat := 0
  lastSent : Nat := 0
deriving DecidableEq, Repr

/-- A flit as the adapter handles it (Tables 6.2, 6.3): class, PART, LAST, FIELD and its message or packet bytes. -/
structure Flit where
  cls : Nat
  part : Bool := false
  last : Bool := false
  field : Nat := 0
  bytes : List Byte := []
  /-- The message a side flit belongs to, as its sender segmented it (R175). -/
  msg : Option Hdr := none
deriving DecidableEq, Repr

/-- A sequenced flit kept until acknowledged, and how often it was sent (R158). -/
structure SeqFlit where
  seq : Half
  flit : Flit
  sends : Nat := 1
deriving DecidableEq, Repr

/-- A link-control flit to send, or a request that awaits its answer with how often it was repeated (R161). -/
structure LcMsg where
  type : Nat
  body : List Byte := []
  repeats : Nat := 0
deriving DecidableEq, Repr

/-- A flit in a position of a bundle, as the transmitter put it on the wire or as the receiver delivered it inside the die
(R138-R153). -/
structure Sent where
  bundle : Nat
  slot : Nat
  bytes : List Byte
deriving DecidableEq, Repr

/-- The codeword stream of a Culvert bundle at its transmitter (R144): the stripe-frame number of the codeword being filled, its
flits so far in slot order, and the symbols of the last whole one with its number. -/
structure CwStream where
  num : Nat := 0
  flits : List (List Byte) := []
  done : Option (Nat × List Nat) := none
deriving DecidableEq, Repr

/-- The side stream of a port (R154-R165). -/
structure SideTx where
  next : Half := 0
  expected : Half := 0
  unacked : List SeqFlit := []
  /-- The flit the running replay sends next, and the one it started from (R158). -/
  replayAt : Option Half := none
  replayFrom : Option Half := none
  timerFrom : Nat := 0
  lastNak : Option (Half × Nat) := none
  ackOwed : Bool := false
  hold : List Flit := []
  /-- The field whose turn came last, by class (R154). -/
  lastField : NMap Nat := []
  rx : List Flit := []
  lc : List LcMsg := []
  /-- Link-control requests that await their answer (R161). -/
  lcWaiting : List LcMsg := []
  synced : Bool := true
  replaying : Bool := false
  heldFor : List DieId := []
  sent : Option Sent := none
  /-- The last CFG_RSP: offset, status, data (R205). -/
  cfg : Option (Nat × Nat × List Byte) := none
deriving DecidableEq, Repr

/-- A pond (R160, R280): size, replay region, hold regions F0-F8, in bytes. -/
structure Pond where
  size : Nat := 0x1000000
  replay : Nat := 0x200000
  holds : NMap Nat := []
  /-- Hold regions that change at the next boundary of their fields, and the size once the last of them has (R16). -/
  dueHolds : NMap Nat := []
  dueSize : Option Nat := none
deriving DecidableEq, Repr

/-- Error levels (Table 6.8). -/
inductive ErrLevel where
  | normal
  | watch
  | quarantine
deriving DecidableEq, Repr

/-- Counters and error state of a port (R169, R170, R414). -/
structure Errors where
  cnt : NMap Nat := []
  sat : BitVec 10 := 0
  level : ErrLevel := .normal
  trend : Bool := false
  winFail : Nat := 0
  winReplay : Nat := 0
  lastFail : Nat := 0
  lastReplay : Nat := 0
  lastCorr : Nat := 0
  corrBy : NMap Nat := []
  below : Nat := 0
  watchRun : Nat := 0
  /-- KLC_THR figures set by LINK_THRESH; one not listed is its default (Table 18.11). -/
  thr : NMap Nat := []
  upWindows : Nat := 0
  /-- Baselines of failed flits and corrected symbols per window, times 1,024 (R414). -/
  baseFail : Nat := 0
  baseCorr : Nat := 0
deriving DecidableEq, Repr

/-- Dry of a port (R134-R137). -/
structure Dry where
  enabled : Bool := true
  idleUs : Nat := 50
  phase : DryPhase := .none_
  requester : Bool := false
  wakeAfter : Bool := false
  /-- When a flit other than idle, mark and Dry flits last crossed the link, or it came UP (R134). -/
  busyAt : Nat := 0
deriving DecidableEq, Repr

/-- The test block of a port (R222, Table 18.10). The measured registers hold free values, named by `run`, the index of the run
that measures them: `ended` is when it ended, `limited` that TST_UI_LIMIT ended it, `blind` that no pattern came back. -/
structure Tst where
  ctrl : Word := 0x18
  user : Word := 0
  uiLimit : Nat := 0
  eyesel : Word := 0
  run : Option Nat := none
  startAt : Nat := 0
  ended : Option Nat := none
  limited : Bool := false
  blind : Bool := false
deriving DecidableEq, Repr

/-- A histogram instance (R409-R411). -/
structure Hist where
  armed : Bool := false
  stopped : Bool := false
  bins : NMap Nat := []
deriving DecidableEq, Repr

/-- A trace record (Table 17.3). -/
structure TraceRec where
  tally : Nat
  dir : Nat
  cls : Nat
  retx : Bool
  seq : Half
  header : List Byte
deriving DecidableEq, Repr

/-- A trace recorder (R416-R418). -/
structure Trace where
  running : Bool := false
  starter : Option (Half × Fin 5) := none
  only : Option Nat := none
  records : List TraceRec := []
  lost : Nat := 0
  lastTx : Option Nat := none
  lastRx : Option Nat := none
deriving DecidableEq, Repr

/-- A packet waiting in the egress entries of an attachment router, and whether its first flit has left (R68). -/
structure Egress where
  chan : Nat
  packet : Packet
  half : Bool := false
deriving DecidableEq, Repr

/-- A received packet waiting for its injection (R68, R152). -/
structure Ingress where
  chan : Nat
  packet : Packet
deriving DecidableEq, Repr

/-- Planned traffic at a port (R68, R150-R152). -/
structure PlannedPort where
  /-- Codeword streams by bundle, on Culvert (R144). -/
  cw : NMap CwStream := []
  egress : List Egress := []
  first : NMap (List Byte × Bool) := []
  rxq : List Ingress := []
  waiting : NMap Nat := []
  sent : Option Sent := none
  delivered : Option Sent := none
deriving DecidableEq, Repr

/-- A link port. -/
structure Port where
  link : Link := {}
  lanes : Lanes := {}
  pin : Pin := {}
  side : SideTx := {}
  pond : Pond := {}
  err : Errors := {}
  dry : Dry := {}
  tst : Tst := {}
  histTray : Hist := {}
  histField : Hist := {}
  trace : Trace := {}
  planned : PlannedPort := {}
deriving DecidableEq, Repr

/-! ### Plans and fields (02, 09, 11) -/

/-- A step descriptor (Table 2.4). -/
structure Step where
  fallow : Bool := false
  calibration : Bool := false
  checkpoint : Bool := false
  slotSet : Option Nat := none
  lens : List Nat := []
deriving DecidableEq, Repr

/-- A ledger section entry (Table 2.3b). -/
structure PlanLedger where
  tray : Nat
  die : Nat
  port : Nat
  profile : Nat
  pinned : Nat
  peerTray : Nat
  peerDie : Nat
  peerPort : Nat
deriving DecidableEq, Repr

/-- A port block of a slot set: ledger index and the 256-bit mask (Table 2.3d). -/
structure SlotPort where
  ledger : Nat
  mask : Nat
deriving DecidableEq, Repr

/-- A slot set (Table 2.3d). -/
structure SlotSet where
  set : Nat
  ports : List SlotPort
deriving DecidableEq, Repr

/-- A credit bound (Table 2.3c). -/
structure Bound where
  tray : Nat
  die : Nat
  tile : Nat
  channel : Nat
  bound : Nat
deriving DecidableEq, Repr

/-- An entry point (Table 2.3e). -/
structure EntryPt where
  first : Nat
  last : Nat
  argMin : Nat
deriving DecidableEq, Repr

/-- A footprint declaration (Table 2.3a). -/
structure Foot where
  resource : Nat
  tray : Nat
  die : Nat
  location : Nat
  amount : Nat
deriving DecidableEq, Repr

/-- A channel record (Table 3.7). -/
structure ChanRec where
  kind : Nat
  order : Bool
  back : Bool
  src : Nat
  dst : Nat
  channel : Nat
  port : Nat
  attach : Nat
  bound : Nat
  cycles : Nat
deriving DecidableEq, Repr

/-- A position record (Table 3.8). -/
structure PosRec where
  set : Nat
  port : Nat
  bundle : Nat
  slot : Nat
  chan : Nat
deriving DecidableEq, Repr

/-- A tile record (Table 3.6). -/
structure TileRec where
  tile : Nat
  rules : Nat
  maxOps : Nat
  maxOuts : Nat
deriving DecidableEq, Repr

/-- A per-die block of the tile configuration section, declarations and packet count (R445). -/
structure Block where
  tray : Nat
  die : Nat
  tiles : List TileRec
  chans : List ChanRec
  poss : List PosRec
  packets : Nat
  packetOfs : Nat
deriving DecidableEq, Repr

/-- A checksum point (Table 2.3f). -/
structure CsumPt where
  tray : Nat
  die : Nat
  tile : Nat
  step : Nat
deriving DecidableEq, Repr

/-- A record of HBM initial contents (Table 2.3g). -/
structure HbmInit where
  tray : Nat
  die : Nat
  ofs : Nat
  data : List Byte
deriving DecidableEq, Repr

/-- A plan as the loader accepted it (R24-R36); `stale` under R106. -/
structure Plan where
  id : Dword := 0
  flags : Nat := 0
  ofs : Nat := 0
  len : Nat := 0
  foot : List Foot := []
  ledger : List PlanLedger := []
  steps : List Step := []
  sets : List SlotSet := []
  bounds : List Bound := []
  entries : List EntryPt := []
  blocks : List Block := []
  csums : List CsumPt := []
  inits : List HbmInit := []
  stale : Bool := false
deriving DecidableEq, Repr

/-- What kind of step runs (R29, R32, R232, R303). -/
inductive StepKind where
  | ordinary
  | calibration
  | throttle
  | switch
deriving DecidableEq, Repr

/-- The running launch (R41-R47). -/
structure Running where
  idx : Nat
  entry : EntryPt
  step : Nat
  start : Nat
  boundary : Nat
  kind : StepKind := .ordinary
  started : Bool := false
  poison : Nat := 0
  csum : Nat := 0
  clean : Nat := 0xFFFFFFFF
  reached : Nat := 0
  checksum : Bool := false
  cancel : Bool := false
deriving DecidableEq, Repr

/-- Field states (Table 11.5); `none_` for a field that does not exist. -/
inductive FieldSt where
  | none_
  | enabled
  | disabling
  | disabled
  | changing
deriving DecidableEq, Repr

/-- Why a field drains or flushes, and so what follows (R238, R241-R244, R290, R305, R323, R389). -/
inductive Why where
  | disable
  | destroy
  | cancel
  | reload (staged : Bool)
  | contain
  | resize
deriving DecidableEq, Repr

/-- Activation forms (Table 9.2). -/
inductive Form where
  | tailwater
  | still
  | reload
deriving DecidableEq, Repr

/-- A switch of the field's plan in progress (R232-R238). `staged` says whether the staged plan comes in. -/
structure Switch where
  form : Form
  since : Nat
  staged : Bool := true
  reported : List DieId := []
  done : List DieId := []
deriving DecidableEq, Repr

/-- A field-wide change (R95): a rung, the duty of inserted fallow steps in percent (R303), a resume. -/
inductive ChangeKind where
  | rung (r : Nat)
  | fallow (duty : Nat)
  | resume
deriving DecidableEq, Repr

/-- A change the lead die has named: boundary, confirmations, commit (R95). -/
structure Change where
  kind : ChangeKind
  boundary : Nat
  noticed : List DieId := []
  confirmed : List DieId := []
  committed : Bool := false
  applied : List DieId := []
deriving DecidableEq, Repr

/-- A mailbox command that completes later: its request and opcode (R259). -/
structure Waiting where
  req : MReq
  opcode : Nat
deriving DecidableEq, Repr

/-- What is being overwritten (R279): a window range of a die, and its tiles. -/
structure Scrub where
  die : DieId
  ofs : Nat
  len : Nat
  tiles : Bool
deriving DecidableEq, Repr

/-- A field's cap in one package (R308): a level 0-7 is a rung limit, -1, -2 and -3 are rung 0 with 25, 50 and 75 % fallow;
since when the next level up would fit, the last raise, and the arrival of a cap whose response is not yet in force (R309). -/
structure FieldCap where
  level : Int := 7
  fitSince : Option Nat := none
  raised : Option Nat := none
  arrived : Option Nat := none
deriving DecidableEq, Repr

/-- A user field F1-F8. -/
structure Field where
  st : FieldSt := .none_
  back : FieldSt := .none_
  dies : List DieId := []
  w : Nat := 0
  h : Nat := 0
  hold : Nat := 0
  touched : Bool := false
  read : Bool := false
  traced : Bool := false
  frozen : Bool := false
  split : Bool := false
  active : Option Plan := none
  staged : Option Plan := none
  ring : Memory := []
  prod : Byte := 0
  cons : Byte := 0
  taken : Byte := 0
  ringClosed : Bool := false
  stepClosed : Bool := false
  stepClosing : Bool := false
  sideClosed : Bool := false
  run : Option Running := none
  /-- STEP_REACHED of the launch that completed last, which FIELD_STATUS shows while none runs. -/
  lastReached : Nat := 0
  /-- The slot set in force until the last boundary, and that boundary (R152). -/
  prevSet : Option Nat := none
  prevEnd : Nat := 0
  /-- The last slot set an ordinary step of the active plan brought into force (R232, R233). -/
  lastSet : Option Nat := none
  lastCal : Nat := 0
  idleSince : Nat := 0
  /-- The earliest tally at which the lead die may name a launch's first boundary, beyond 100 us after its doorbell: 100 us
  after a cancel boundary or an activating command (R237, R244). -/
  notBefore : Nat := 0
  /-- The boundary at which the last launch ended while another entry waited, and whether it ended DONE, DONE_POISONED
  or CHECKSUM_FAIL (R41, R229). -/
  ended : Option (Nat × Bool) := none
  /-- The lead die's tally at the doorbell that covered each ring entry (R94). -/
  rang : NMap Nat := []
  /-- Fallow duty in force, in percent (R303). -/
  duty : Nat := 0
  drain : Option (Why × Nat) := none
  flush : Option (Why × Nat) := none
  recalls : List DieId := []
  switch : Option Switch := none
  /-- A switch to complete by reload before the next launch: of the staged plan (true) or the active one (R239). -/
  reloadDue : Option Bool := none
  rung : Nat := 0
  ceiling : Nat := 7
  /-- Cap limits by package, 4 x tray + package (R308). -/
  caps : NMap FieldCap := []
  change : Option Change := none
  calOff : Bool := false
  /-- The sluice boundary each die of the field holds: its own or the earliest of the alarms it has received (R166). -/
  sluices : List (DieId × Nat) := []
  frozenAt : Option Nat := none
  /-- The boundary at which each die froze, and the number of the step that would have begun there (R166, R168). -/
  dieFrozen : List (DieId × Nat × Nat) := []
  intakeHeld : Bool := false
  scrub : Option Why := none
  scrubs : List Scrub := []
  /-- The layout a resize brings in once its scrub completes (R289). -/
  resize : Option FieldBody := none
  cancels : List Nat := []
  /-- Links in Dry that a plan load woke and waits for (R137). -/
  waking : List PortId := []
  holder : Option Waiting := none
deriving DecidableEq, Repr

/-! ### Host ports and ownership (10, 18) -/

/-- Channel states (R257). -/
inductive ChanSt where
  | idle
  | busy
  | done
deriving DecidableEq, Repr

/-- A mailbox response: header fields and body (Table 10.6a). -/
structure Resp where
  opcode : Nat
  version : Nat
  flags : Byte
  seq : Half
  status : Nat
  body : List Byte
deriving DecidableEq, Repr

/-- A mailbox channel of a host port (R256, R257). -/
structure Chan where
  held : Bool := false
  holder : Half := 0
  lockedAt : Nat := 0
  submitted : Bool := false
  st : ChanSt := .idle
  doneAt : Nat := 0
  req : Memory := []
  resp : Memory := []
  captured : Option (List Byte) := none
  decided : Option Resp := none
  last : Option (List Byte × Resp) := none
  /-- The instant of the port's last reset: responses of requests up to it are discarded (R253). -/
  dropped : Option Nat := none
deriving DecidableEq, Repr

/-- How a host access completed (R251): Successful Completion, Unsupported Request; the EP bit; the data. -/
structure Completion where
  ur : Bool := false
  ep : Bool := false
  data : List Byte := []
deriving DecidableEq, Repr

/-- Configuration space of a host port as software may change it: the base address registers, the max payload size and max read request
size it is set to, the 10-bit tag enable; the power state is HostPort.d3 (R248, R250; log entry 151). -/
structure PcieCfg where
  bars : NMap Word := []
  mps : Nat := 128
  mrrs : Nat := 512
  tag10 : Bool := false
deriving DecidableEq, Repr

/-- A host port (R248-R255, R425). -/
structure HostPort where
  chans : NMap Chan := []
  cause : Dword := 0
  launchErr : BitVec 9 := 0
  /-- Mask bits of the MSI-X table: 1 masked. -/
  msixMask : Dword := BitVec.allOnes 64
  /-- Address and data words of the MSI-X table: word `w` of vector `v` under 4 v + w. -/
  msix : NMap Word := []
  pba : Dword := 0
  cfg : PcieCfg := {}
  d3 : Bool := false
  latch : Option Word := none
  last : Completion := {}
deriving DecidableEq, Repr

/-- A claimant in a claim window (R267). -/
structure Claimant where
  req : MReq
  rid : Half
  src : Fin 5
deriving DecidableEq, Repr

/-- A claim window (R267). -/
structure ClaimWin where
  opened : Nat
  claims : List Claimant
deriving DecidableEq, Repr

/-- A handover offer (R270). -/
structure Offer where
  rid : Half
  src : Nat
  since : Nat
deriving DecidableEq, Repr

/-- A scope's ownership (R266-R272). -/
structure Scope where
  owned : Bool := false
  rid : Half := 0
  src : Fin 5 := 0
  token : Dword := 0
  noLapse : Bool := false
  expert : Bool := false
  beat : Nat := 0
  win : Option ClaimWin := none
  offer : Option Offer := none
  seizedFrom : Option (Half × Fin 5) := none
deriving DecidableEq, Repr

/-! ### Power, packages, Watermaster (13, 14, 15) -/

/-- Package states (Table 13.3). -/
inductive PkgSt where
  | off
  | poweringUp
  | on
  | poweringDown
  | faulted
  | shutDown
  | unreachable
  | heldOff
  | unplaced
deriving DecidableEq, Repr

/-- A package of this tray (R314-R329, R364-R371). -/
structure Pkg where
  st : PkgSt := .off
  /-- WMP_PKGFAULT [5:0]: SHORT, RAMP_TIMEOUT, RAIL, TRIP, OT_HS, OT_POL (Table 13.2). -/
  latch : BitVec 6 := 0
  /-- The latch bits the Watermaster has read and reported (R325). -/
  scanned : BitVec 6 := 0
  /-- RAIL_ID (Table 13.2). -/
  railId : Nat := 0
  /-- Instants of the hiccups of the last second, and since when the dies are held in reset by one (R324). -/
  hiccups : List Nat := []
  held : Option Nat := none
  /-- Hiccups in a row of each rail's regulator; 8 latch it off (R324). -/
  rowHiccups : NMap Nat := []
  gate : Bool := false
  /-- The instant at which a gate enable that waits its turn is due (R316, R331). -/
  gateDue : Option Nat := none
  gateAt : Nat := 0
  /-- Events of Table 13.4 done since the gate enable, and the instant of the last. -/
  seq : Nat := 0
  seqAt : Nat := 0
  /-- Rails enabled, with the instant, and those in their window. -/
  rails : NMap Nat := []
  inWin : List (Fin 11) := []
  /-- Events of Table 13.5 done, and the instant of the last. -/
  downSeq : Nat := 0
  downAt : Nat := 0
  /-- The state a power-down leaves (Table 13.3), and whether a power-up follows it (R320). -/
  after : PkgSt := .off
  upAfter : Bool := false
  /-- Whether the package was powered at an input fault (R316). -/
  powered : Bool := false
  placed : Bool := false
  /-- Slots assigned, and ASSIGNs unanswered at the next one (R367, R368). -/
  enumerated : Nat := 0
  tries : Nat := 0
  enumDone : Bool := false
  /-- Identity records read, by slot (R367, R368). -/
  stored : NMap Ident := []
  /-- The chain switch SWn and the state held before isolation (R364, R370). -/
  sw : Bool := false
  beforeIsolation : PkgSt := .off
  bootsrc : Nat := 0
  straps : Bool := false
  refOn : Bool := false
  /-- LAST of the boot status (Table 15.4). -/
  lastStatus : Nat := 0
  /-- Caps the package's Steward holds, in W, per source: 0 mailbox, 1 Redfish, 2 protective (R306). -/
  trayCaps : NMap Nat := []
  pkgCaps : NMap Nat := []
  /-- Fatal copies of package scope already acted on, by TALLY (R406). -/
  downFor : List Nat := []
  /-- A mailbox command that holds the tray's scope, and Redfish requests, wait for the power-down (R320). -/
  asked : Bool := false
  redfishWaits : Nat := 0
deriving DecidableEq, Repr

/-- Bank states (Table 14.4). -/
inductive BankSt where
  | empty
  | staging
  | staged
  | pending
  | trial
  | invalid
  | active
deriving DecidableEq, Repr

/-- A flash bank (R343). -/
structure Bank where
  st : BankSt := .empty
  bundle : Dword := 0
deriving DecidableEq, Repr

/-- The key of an equalisation record (R122): UID and port, maps, peer UID, cable. -/
structure EqKey where
  uid : Dword
  port : Nat
  maps : NMap Half
  peerUid : Dword
  cable : Option (Nat × Nat)
deriving DecidableEq, Repr

/-- An equalisation record and when it was last used (R122). -/
structure EqRec where
  key : EqKey
  used : Nat
  settings : Option Nat := none
deriving DecidableEq, Repr

/-- A monitor point's state (R326): reading, warning in force with its clear scans, consecutive scans beyond the fault
threshold, fault reported, and since when a timed warning or fault condition holds. -/
structure Mon where
  reading : Int := 0
  warned : Bool := false
  clear : Nat := 0
  beyond : Nat := 0
  faulted : Bool := false
  warnSince : Option Nat := none
  faultSince : Option Nat := none
deriving DecidableEq, Repr

/-- What an indicator shows (Table 14.5). -/
inductive Light where
  | off
  | greenSlow
  | greenSteady
  | greenFast
  | greenFlash
  | amberSlow
  | amberSteady
  | amberFast
  | alternatingSlow
  | alternatingFast
  | blueSlow
deriving DecidableEq, Repr

/-- The indicators the Watermaster's latches drive: tray health, locate, packages, cages (R334, R356). -/
structure Panel where
  tray : Light := .off
  locate : Light := .off
  pkgs : List Light := []
  cages : List Light := []
deriving DecidableEq, Repr

/-- The Watermaster (R334-R359). -/
structure Wm where
  running : Bool := false
  restarting : Option RestartCause := none
  /-- The Watermaster runs its recovery image (R340). -/
  recovery : Bool := false
  bootedAt : Nat := 0
  earlyExpiries : Nat := 0
  fullCooling : Bool := true
  scansSince : Nat := 0
  fanDuty : Nat := 100
  pumpDuty : Nat := 100
  fansFitted : Nat := 6
  mon : NMap Mon := []
  bankA : Bank := { st := .active, bundle := 1 }
  bankB : Bank := {}
  activeB : Bool := false
  /-- The staging in progress: the length FW_STAGE gave, none for a push (R344, R355). -/
  staging : Option (Option Nat) := none
  failedBringups : Nat := 0
  lastResult : Nat := 0
  halted : Bool := false
  recoveryAsked : Bool := false
  oneTime : Option Dword := none
  bootsrc : Nat := 0
  /-- First gate enable of the bring-up in progress (R350). -/
  firstGate : Option Nat := none
  retryFrom : Option Nat := none
  cycleFrom : Option Nat := none
  /-- Packages of a tray power-up that waits for the restart into a pending bank (R349). -/
  owed : Option (List (Fin 4)) := none
  redfishTray : Nat := 0
  redfishPkg : NMap Nat := []
  /-- Protective caps in force, with the instant of the last scan at or above the warning threshold (R327). -/
  protTray : Option Nat := none
  protPkg : NMap Nat := []
  /-- Since when a package's input exceeds its cap by more than 10 %, and whether that was reported (R333). -/
  capOver : NMap (Nat × Bool) := []
  eqRecs : List EqRec := []
  soft : List SoftRet := []
  /-- Locates in force, with the instant each was set (R358). -/
  locTray : Option Nat := none
  locPkg : NMap Nat := []
  locCage : NMap Nat := []
  lastBeat : Nat := 0
  /-- The indicators as they hold during a restart (R334). -/
  heldPanel : Option Panel := none
  /-- Vector 29 is owed to the next tray owner (R352). -/
  fwVectorOwed : Bool := false
deriving DecidableEq, Repr

/-- The 54 V input as the tray sees it (R314, R316, R433). -/
structure Input where
  /-- 54 V stands at the clip, within what the auxiliary supplies need (R433). -/
  present : Bool := false
  fault : Bool := false
  lockout : Bool := false
deriving DecidableEq, Repr

/-- The reference-clock cleaner (R77, R78): 0 the local oscillator, p + 1 the recovered clock of cage Pp. -/
structure Cleaner where
  input : Nat := 0
  standby : List Nat := []
  holdover : Bool := false
  oscillatorOk : Bool := true
  configured : Bool := false
deriving DecidableEq, Repr

/-- Leadership (R98-R101). -/
structure Leader where
  serial : Dword := 1
  epoch : Half := 0
  root : Option DieId := none
  lead : Bool := true
  vacant : Bool := false
  windowFrom : Option Nat := none
  claims : List Dword := []
  answered : List Dword := []
  /-- The EPOCH a living leader answered this tray's claim with (R101). -/
  standing : Option Half := none
deriving DecidableEq, Repr

/-- The span (R19-R23, R385): this tray's number, the members' serials in name order, the shape row. -/
structure Span where
  num : Fin 4 := 0
  shape : Nat := 1
  members : List Dword := [1]
  /-- Each member tray's place in the span, in trays, in name order (R21). -/
  pos : List (Nat × Nat) := [(0, 0)]
  record : Option (Nat × List Dword) := none
  forming : Option Waiting := none
deriving DecidableEq, Repr

/-- Tray states (R377). -/
inductive TraySt where
  | bringUp
  | ready
  | degraded
deriving DecidableEq, Repr

/-- What the block sends out of the tray. -/
inductive Effect where
  /-- An MSI-X message on a host port (R255). -/
  | msix (port : Fin 4) (vector : Nat)
  /-- A Redfish answer: none where the request is carried out, the HTTP status where it is refused (R331, R332, R355). -/
  | redfish (refused : Option Nat)
  /-- An answer frame on the headgate chain: address, command, data (R365). -/
  | chain (addr : Byte) (cmd : Byte) (data : List Byte)
  /-- A leadership claim or a living leader's answer: serial, epoch (R98, R101). -/
  | claim (serial : Dword)
  | leaderAnswer (serial : Dword) (epoch : Half)
  /-- A side-flow message of the mailbox server to a peer die. -/
  | toPeer (m : Msg)
  /-- A PCI Express memory request to the host: a read, a write of data, an atomic with its subop and operands (R179). -/
  | hostRead (port : Fin 4) (addr len : Nat)
  | hostWrite (port : Fin 4) (addr : Nat) (data : List Byte)
  | hostAtomic (port : Fin 4) (addr : Nat) (data : List Byte)
deriving DecidableEq, Repr

/-- Tray-level trouble: summary, counters, tray record (R401-R403). -/
structure Trouble where
  summary : Dword := 0
  cntRefused : Nat := 0
  undeliv : NMap Nat := []
  records : List Rec := []
  ovf : Bool := false
  ovfCount : Nat := 0
deriving DecidableEq, Repr

/-- A mailbox command that waits: its scope, whether it needs the Watermaster, its request, the command (R259). -/
structure Held where
  scope : Fin 9
  wm : Bool
  opcode : Nat
  req : MReq
  cmd : Instr
deriving DecidableEq, Repr

/-- The whole tray. -/
structure State where
  pending : List Instr := []
  /-- Commands that wait for a scope another command holds, or for the Watermaster (R259). -/
  waiting : List Held := []
  /-- Set while a command that waited is decided again. -/
  resumed : Bool := false
  /-- The response to the Watermaster's own last mailbox command (source 4, R267). -/
  wmReply : Option Resp := none
  now : Nat := 0
  free : Nat := 0
  effects : List Effect := []
  serial : Dword := 1
  bundle : Dword := 0
  tray : TraySt := .bringUp
  span : Span := {}
  /-- The other members' trays, as their servers answered (R19-R23). -/
  peers : List TrayInfo := []
  serving : Option (Fin 4) := none
  scopes : NMap Scope := []
  /-- Interrupt target table, F0-F8: the I/O die's package (R189). -/
  targets : NMap (Option (Fin 4)) := []
  ports : NMap HostPort := []
  fields : NMap Field := []
  dies : NMap Die := []
  links : NMap Port := []
  ledgerEpoch : Nat := 0
  leader : Leader := {}
  cleaner : Cleaner := {}
  trouble : Trouble := {}
  pkgs : NMap Pkg := []
  wm : Wm := {}
  input : Input := {}
  /-- Mailbox caps in force, in W: tray and packages; 0 none (R306). -/
  capTray : Nat := 0
  capPkg : NMap Nat := []
  sfTimerMs : Nat := 50
  trayHolder : Option Waiting := none
deriving DecidableEq, Repr

/-! ### Reset -/

/-- The fused identity of a die at reset (log entry 3): part by slot, UID 1 + 20 x tray + 5 x package + slot. -/
def resetIdent (d : DieId) : Ident :=
  let n := 1 + 20 * d.tray.val + 5 * d.pkg.val + d.slot.val
  if d.slot = 0 then { part := 0x0A01, gen := 1, uid := BitVec.ofNat 64 n, maxRung := 0xFF }
  else { uid := BitVec.ofNat 64 n }

/-- The placement record of a package at reset (log entry 3): Tables 8.3, 8.4 and 8.6 as R212 gives them. -/
def resetPlacement (tray pkg : Fin 4) : Placement :=
  { serial := BitVec.ofNat 64 (1 + pkg.val),
    slots := [{ uid := (resetIdent ⟨tray, pkg, 0⟩).uid, orient := 0, edgeUse := 0, root := 0b1111 },
              { uid := (resetIdent ⟨tray, pkg, 1⟩).uid, orient := 2, edgeUse := 0b01101001, root := 1 },
              { uid := (resetIdent ⟨tray, pkg, 2⟩).uid, orient := 3, edgeUse := 0b01101001, root := 1 },
              { uid := (resetIdent ⟨tray, pkg, 3⟩).uid, orient := 0, edgeUse := 0b01101001, root := 1 },
              { uid := (resetIdent ⟨tray, pkg, 4⟩).uid, orient := 1, edgeUse := 0b01101001, root := 1 }] }

/-- A die at reset: every logic register at its reset value; identity and placement as fused. -/
def resetDie (d : DieId) : Die :=
  { ident := resetIdent d, place := if d.slot = 0 then resetPlacement d.tray d.pkg else {} }

/-- A link port at reset: pond sizes of Table 11.3, KLC registers of Table 18.11. -/
def resetPort (p : PortId) : Port :=
  if p.die.slot = 0 then
    { pond := { size := 0x200000, replay := 0x100000, holds := [(0, 0x40000)] } }
  else { pond := { holds := [(0, 0x200000)] } }

/-- The tray before 54 V: nothing powered, alone as T0, no owner, no field (R362, R382, R385). -/
def State.reset : State := {}

end Sys2Proof.Machine
end

