-- ==== Sys2Proof/Config.lean ====
section
/-! DEFINITION. Sys2Proof/Config.lean: what the spec leaves to an implementation, and the free values. Each is a constant
with no body, so that nothing can be proved of it that does not hold of every value; the log entry is named beside it. -/

namespace Sys2Proof.Config

open Sys2Proof.Machine (Rule Frac)

/-- Vendor ID, Yunaven Networks' assigned value, which the spec does not state (R248; log entry 20). -/
opaque vendorId : Half

/-- The seed of the n-th token (R267: a new non-zero 64-bit token, no value stated; log entry 21). -/
opaque tokenSeed : Nat → Dword

/-- The four bytes of die state in ID_DIE's answer, whose codes the spec does not state (Table 10.6; log entry 22). -/
opaque dieState : Nat → Word

/-! ### What a tile's program does (03; log entry 23): the tile instruction set is no user interface. -/

/-- A place an operation of a firing reads or writes: a vector or scalar register, a 64-byte SRAM line, or the packet of an
operand channel. -/
inductive Loc where
  | v (n : Fin 64)
  | s (n : Fin 16)
  | line (n : Fin 4096)
  | operand (channel : Nat)
deriving DecidableEq, Repr

/-- The registers a destination takes: one, or the aligned group of an accumulation, four for 8-bit inputs and two for 16-bit
(R51). -/
inductive Group where
  | one
  | two
  | four
deriving DecidableEq, Repr

/-- How many registers a group has. -/
def Group.size : Group → Nat
  | .one => 1
  | .two => 2
  | .four => 4

/-- An operation of a firing: what it reads, the place it writes, its group and the value of each register of it; the place that
supplies its predicate, with the value the predicate has there; the place that supplies its SRAM address, with the line at offset 0
of the region the rule declares (R51, R72, R73). -/
structure TileOp where
  srcs : List Loc := []
  dst : Loc
  group : Group := .one
  accumulates : Bool := false
  predicate : Option (Loc × Bool) := none
  address : Option (Loc × Fin 4096) := none
  values : Nat → BitVec 1024

/-- The operation sequence of the n-th firing: the Planner sets it and the hardware does not interpret it (03). -/
opaque firing : Nat → List TileOp

/-- The payload of output packet `k` of the n-th firing. -/
opaque payload : Nat → Nat → Line

/-- The place whose value output packet `k` of the n-th firing sends, if it sends one. -/
opaque sendSource : Nat → Nat → Option Loc

/-- The firing rules the configuration packets of a tile spell; their format is not stated (03, R235). -/
opaque rulesOf : List Line → List Rule

/-- The payload of the n-th substituted packet, which R74 does not state. -/
opaque substitute : Nat → Line

/-- What the error check of a line's words finds at a read: a 64-byte line of local SRAM in the n-th firing (R52), a line of HBM at
the n-th read (Table 16.4; log entry 110). -/
opaque sramCheck : Nat → Nat → HdrErr
opaque hbmCheck : Nat → Nat → HdrErr

/-- Byte `k` of the n-th read or atomic result the host returns in space 3 (Table 7.5; log entry 24). -/
opaque hostByte : Nat → Nat → Byte

/-- Checksum points that mismatch, of those of the n-th step's end (R48; log entry 25): how many of the first k. -/
opaque csumMismatch : Nat → Nat → Bool

/-- How far beyond 100 us ahead the lead die names its n-th resume tally (R95, R105; log entry 26). -/
opaque leadExtra : Nat → Nat

/-- The trim T, in millivolts, that a die's COEF field spells; its layout is not stated (R206, R297; log entry 27). -/
opaque trim : List Byte → Int

/-- The status of a mailbox command whose switch ended in RELOAD_FAIL or in a containment, which no rule states (R238;
log entry 28). -/
opaque failStatus : Nat → Half

/-- Register `idx` of KLC_EQ under the n-th equaliser settings a training found (Table 18.11; log entry 38). -/
opaque eqTap : Nat → Nat → Word

/-- TURNAROUND of a port, in 1/128 tick, and the base of its pond: fixed by the die, not stated (Table 18.11; log entry 38). -/
opaque turnaround : Nat → Word
opaque pondBase : Nat → Dword

/-! ### The power estimator (12; log entry 47): the layout of COEF and the form of I_leak are not stated. -/

/-- The factory leakage coefficient, C_dyn and P_base that a COEF field spells (R206, R312). -/
opaque coefLeak : List Byte → Frac
opaque coefDyn : List Byte → Frac
opaque coefBase : List Byte → Frac

/-- The activity of a sample for its planned firings and its side packets, each by field number (R310, Table 12.2). -/
opaque activity : List (Nat × Nat) → List (Nat × Nat) → Nat

/-- I_leak(V, Tj) in mA for a leakage coefficient, a voltage in mV and a temperature (R310). -/
opaque leakCurrent : Frac → Nat → Int → Frac

/-- The leakage coefficient and the sense offset that a calibration measurement sets: current in mA, voltage in mV, rung,
temperature (R311). -/
opaque calLeak : Nat → Nat → Nat → Int → Frac
opaque calOffset : Nat → Nat → Nat → Int → Frac

/-- Whether the last 96 bytes of a bundle are the ECDSA P-384 signature of the rest under the key in the boot ROM, whose number no rule
states (R342; log entry 153). -/
opaque bundleSigned : List Byte → Bool

/-- The BUNDLE_ID of the recovery image (R329; log entry 48). -/
opaque recoveryBundle : Dword

/-- The code of a restart's cause in WM_RESTART's INFO (R337; log entry 55). -/
opaque restartInfo : RestartCause → Nat

/-- The HTTP status of a Redfish request that is refused as a mailbox command is, where no rule states it (R320, R348, R353;
log entry 52). -/
opaque redfishRefusal : Nat

/-- The progress of a staging in percent, at an instant (Table 10.6; log entry 53). -/
opaque progress : Nat → Byte

/-! ### Measurements (08, 17; log entry 58): what a test run or an unlisted region of debug space holds. -/

/-- The bit a lane receives as bit `i` of the n-th run: run, lane, bit. -/
opaque testRx : Nat → Nat → Nat → Bool
/-- Whether flit `j` of the n-th run fails its checks, and the symbols corrected in it. -/
opaque testFlitBad : Nat → Nat → Bool
opaque testFlitCorr : Nat → Nat → Nat
/-- The errors at a point of the eye map of the n-th run. -/
opaque testEye : Nat → Nat → Nat
/-- Byte `k` of a debug read whose layout is not stated: the observation region, and the pairing table and poison marks of a
tile (Table 17.4). -/
opaque debugByte : Nat → Nat → Byte

/-- The status byte of an agent's answer frame: whether the command was carried out (R365; log entry 57). -/
opaque chainStatus : Bool → Byte

/-- Byte `k` of the trouble record of another tray, which its own sink holds (R405; log entry 59). -/
opaque peerRecord : Nat → Nat → Byte

/-- STATE, at an instant, of a link that this tray has no end of, as its tray reported it (Table 4.5; log entry 46). -/
opaque peerState : Nat → Nat → Fin 5

/-- Bit `n` of the idle pattern of a standby lane, before scrambling (R112; log entry 140). -/
opaque standbyBit : Nat → Bool

/-- HDR_ECC of bits [47:0] of a mesh header: a SEC-DED check whose code is not stated (Table 3.2; log entry 40). -/
opaque hdrEcc : Nat → Byte

end Sys2Proof.Config
end

