-- ==== Sys2Proof/Machine/Bytes.lean ====
section
/-! DEFINITION. Sys2Proof/Machine/Bytes.lean: byte order (R2), the checks of the spec (R443, R141, R142, the CRC-32 of
IEEE 802.3) and exact-arithmetic helpers. -/

namespace Sys2Proof.Machine

/-- `n` bytes of `v`, byte 0 holding bits [7:0] (R2). -/
def le : Nat → Nat → List Byte
  | 0, _ => []
  | n + 1, v => BitVec.ofNat 8 v :: le n (v / 256)

/-- The value of bytes in little-endian order (R2). -/
def ofLe : List Byte → Nat
  | [] => 0
  | b :: bs => b.toNat + 256 * ofLe bs

/-- Bytes `ofs` to `ofs + n - 1` of a byte list, 0 where the list ends. -/
def slice (bs : List Byte) (ofs n : Nat) : List Byte :=
  let part := (bs.drop ofs).take n
  part ++ List.replicate (n - part.length) 0

/-- The little-endian field of `n` bytes at `ofs`. -/
def fieldAt (bs : List Byte) (ofs n : Nat) : Nat := ofLe (slice bs ofs n)

/-- Whether every byte is 0, as a reserved field must be (R3). -/
def allZero (bs : List Byte) : Bool := bs.all (· == 0)

/-- Saturating addition at `top`. -/
def satAdd (top a b : Nat) : Nat := min top (a + b)

/-- The 32-bit saturating increment of a counter (R169, R403). -/
def sat32 (n : Nat) : Nat := satAdd 0xFFFFFFFF n 1

/-- Cuts bytes at address `a` into pieces that each lie in one 64-byte line, with their addresses; `fuel` bounds the
pieces. -/
def lineChunks : Nat → Nat → List Byte → List (Nat × List Byte)
  | 0, _, _ => []
  | _, _, [] => []
  | fuel + 1, a, bs =>
    let n := 64 - a % 64
    (a, bs.take n) :: lineChunks fuel (a + n) (bs.drop n)

/-- Ceiling division. -/
def ceilDiv (a b : Nat) : Nat := (a + b - 1) / b

/-- Floor of log2 (n + 1) by halving, at most `fuel` (R409). -/
def log2Floor : Nat → Nat → Nat
  | 0, _ => 0
  | fuel + 1, n => if n < 2 then 0 else 1 + log2Floor fuel (n / 2)

/-- One bit step of an MSB-first 16-bit CRC. -/
def crc16Bit (poly r : Nat) : Nat :=
  if r ≥ 0x8000 then ((r * 2) % 0x10000) ^^^ poly else (r * 2) % 0x10000

/-- One byte of an MSB-first 16-bit CRC (R443). -/
def crc16Byte (poly r : Nat) (b : Byte) : Nat :=
  (List.replicate 8 ()).foldl (fun r _ => crc16Bit poly r) (r ^^^ (b.toNat * 256))

/-- The CRC-16 of polynomial 0x1021 and seed 0xFFFF (R443). -/
def crc16 (bs : List Byte) : Nat := bs.foldl (crc16Byte 0x1021) 0xFFFF

/-- One bit step of a reflected CRC. -/
def crcBitR (poly r : Nat) : Nat := if r % 2 = 1 then (r / 2) ^^^ poly else r / 2

/-- One byte of a reflected CRC, bit 0 first. -/
def crcByteR (poly r : Nat) (b : Byte) : Nat :=
  (List.replicate 8 ()).foldl (fun r _ => crcBitR poly r) (r ^^^ b.toNat)

/-- The CRC-32 of IEEE 802.3 (R25, R342). -/
def crc32 (bs : List Byte) : Nat := (bs.foldl (crcByteR 0xEDB88320) 0xFFFFFFFF) ^^^ 0xFFFFFFFF

/-- The flit CRC register over bytes in transmission order (R141): generator 0x8BB7 bit-reversed is 0xEDD1, so the
register holds the coefficient of x^(15-i) in bit i, as the CRC field does. -/
def flitCrc (bs : List Byte) : Nat := bs.foldl (crcByteR 0xEDD1) 0xFFFF

/-! ### RS(68,64) over GF(2^8), field polynomial 0x11D (R142) -/

/-- Multiplication by alpha. -/
def gfDouble (a : Nat) : Nat := if a ≥ 128 then (a * 2) ^^^ 0x11D else a * 2

/-- Product by shift and add over the low `n` bits of `b`. -/
def gfMulAux : Nat → Nat → Nat → Nat
  | 0, _, _ => 0
  | n + 1, a, b => (if b % 2 = 1 then a else 0) ^^^ gfMulAux n (gfDouble a) (b / 2)

/-- Product in GF(2^8). -/
def gfMul (a b : Nat) : Nat := gfMulAux 8 a b

/-- alpha to the power `n`. -/
def gfPow : Nat → Nat
  | 0 => 1
  | n + 1 => gfDouble (gfPow n)

/-- `a` to the power 254, its inverse where `a` is not 0. -/
def gfInv (a : Nat) : Nat :=
  let a2 := gfMul a a
  let a4 := gfMul a2 a2
  let a8 := gfMul a4 a4
  let a16 := gfMul a8 a8
  let a32 := gfMul a16 a16
  let a64 := gfMul a32 a32
  let a128 := gfMul a64 a64
  gfMul a2 (gfMul a4 (gfMul a8 (gfMul a16 (gfMul a32 (gfMul a64 a128)))))

/-- Syndrome at alpha^j, byte 0 the highest-degree coefficient. -/
def rsSyndrome (j : Nat) (bs : List Byte) : Nat :=
  bs.foldl (fun acc b => (gfMul acc (gfPow j)) ^^^ b.toNat) 0

/-- Adds `y` to the byte of degree `deg` of a 68-byte word. -/
def rsFix (bs : List Byte) (deg y : Nat) : List Byte :=
  bs.modify (67 - deg) (fun b => b ^^^ BitVec.ofNat 8 y)

/-- Degrees below 68 whose locator alpha^deg is a root of X^2 + s1 X + s2. -/
def rsRoots (s1 s2 : Nat) : List Nat :=
  (List.range 68).filter fun p => (gfMul (gfPow p) (gfPow p)) ^^^ (gfMul s1 (gfPow p)) ^^^ s2 = 0

/-- Decodes a 68-byte flit: the corrected bytes and how many symbols were corrected, or none with more than two errors
(R142). -/
def rsDecode (bs : List Byte) : Option (List Byte × Nat) :=
  let s0 := rsSyndrome 0 bs
  let s1 := rsSyndrome 1 bs
  let s2 := rsSyndrome 2 bs
  let s3 := rsSyndrome 3 bs
  if s0 = 0 ∧ s1 = 0 ∧ s2 = 0 ∧ s3 = 0 then some (bs, 0)
  else
    let det := (gfMul s1 s1) ^^^ (gfMul s0 s2)
    if det = 0 then
      let x := gfMul s1 (gfInv s0)
      if s0 ≠ 0 ∧ s1 ≠ 0 ∧ gfMul s1 x = s2 ∧ gfMul s2 x = s3 then
        match (List.range 68).filter (fun p => gfPow p = x) with
        | [p] => some (rsFix bs p s0, 1)
        | _ => none
      else none
    else
      let a := gfMul ((gfMul s2 s1) ^^^ (gfMul s0 s3)) (gfInv det)
      let b := gfMul ((gfMul s1 s3) ^^^ (gfMul s2 s2)) (gfInv det)
      match rsRoots a b with
      | [p, q] =>
        let x1 := gfPow p
        let x2 := gfPow q
        let y1 := gfMul (s1 ^^^ (gfMul s0 x2)) (gfInv (x1 ^^^ x2))
        let y2 := s0 ^^^ y1
        if y1 = 0 ∨ y2 = 0 then none else some (rsFix (rsFix bs p y1) q y2, 2)
      | _ => none

/-- The four parity bytes of a 64-byte flit: those that make every syndrome 0, as remainder of division by the
generator (x - 1)(x - a)(x - a^2)(x - a^3) = x^4 + 15 x^3 + 54 x^2 + 120 x + 64 (R142). -/
def rsParity (bs : List Byte) : List Byte :=
  let step := fun (r : Nat × Nat × Nat × Nat) (b : Byte) =>
    let f := r.1 ^^^ b.toNat
    (r.2.1 ^^^ gfMul f 15, r.2.2.1 ^^^ gfMul f 54, r.2.2.2 ^^^ gfMul f 120, gfMul f 64)
  let r := bs.foldl step (0, 0, 0, 0)
  [BitVec.ofNat 8 r.1, BitVec.ofNat 8 r.2.1, BitVec.ofNat 8 r.2.2.1, BitVec.ofNat 8 r.2.2.2]

end Sys2Proof.Machine
end

