-- ==== Sys2Proof/Machine/Table.lean ====
section
/-! DEFINITION. Sys2Proof/Machine/Table.lean: reading and writing association lists and byte memories. Both keep their
keys strictly rising; a memory lists no byte that is 0, so equal memories are equal lists. -/

namespace Sys2Proof.Machine

/-- The value at key `k`, or `d` where `k` is not listed. -/
def NMap.get {ν : Type} (m : NMap ν) (k : Nat) (d : ν) : ν :=
  match m with
  | [] => d
  | (j, v) :: r => if j = k then v else NMap.get r k d

/-- `m` with key `k` holding `v`, inserted in key order. -/
def NMap.set {ν : Type} (m : NMap ν) (k : Nat) (v : ν) : NMap ν :=
  match m with
  | [] => [(k, v)]
  | (j, w) :: r => if k < j then (k, v) :: (j, w) :: r else if k = j then (k, v) :: r else (j, w) :: NMap.set r k v

/-- `m` without key `k`. -/
def NMap.erase {ν : Type} (m : NMap ν) (k : Nat) : NMap ν := m.filter fun e => e.1 ≠ k

/-- The byte at address `a`; an unlisted byte is 0 (R279, R373). -/
def Memory.get (m : Memory) (a : Nat) : Byte := NMap.get m a 0

/-- `m` with the byte at `a` removed from the list, so that it reads 0. -/
def Memory.clear (m : Memory) (a : Nat) : Memory :=
  match m with
  | [] => []
  | (j, b) :: r => if a < j then (j, b) :: r else if a = j then r else (j, b) :: Memory.clear r a

/-- `m` with byte `b` at address `a`; writing 0 removes the entry. -/
def Memory.put (m : Memory) (a : Nat) (b : Byte) : Memory :=
  if b = 0 then Memory.clear m a else NMap.set m a b

/-- The canonical form: addresses strictly rising, no entry equal to what an unlisted address reads as. -/
def Memory.wf : Memory → Bool
  | [] => true
  | (a, b) :: r => b ≠ 0 && r.all (fun e => a < e.1) && Memory.wf r

/-- `m` from address `a` on: the tail of the list that starts at or after `a`. -/
def Memory.from_ (m : Memory) (a : Nat) : Memory := m.dropWhile fun e => e.1 < a

/-- `n` bytes from address `a`, in ascending address order, in one walk of the list. -/
def Memory.walk : Nat → Memory → Nat → List Byte
  | 0, _, _ => []
  | n + 1, m, a =>
    match m with
    | [] => 0 :: Memory.walk n [] (a + 1)
    | (j, b) :: r => if j = a then b :: Memory.walk n r (a + 1) else 0 :: Memory.walk n ((j, b) :: r) (a + 1)

/-- `n` bytes from address `a`. -/
def Memory.read (m : Memory) (a n : Nat) : List Byte := Memory.walk n (Memory.from_ m a) a

/-- `m` with `bs` written from address `a` on. -/
def Memory.write (m : Memory) (a : Nat) (bs : List Byte) : Memory :=
  match bs with
  | [] => m
  | b :: r => Memory.write (Memory.put m a b) (a + 1) r

/-- `m` with the `n` bytes from `a` zero (R279). -/
def Memory.zero (m : Memory) (a n : Nat) : Memory := m.filter fun e => e.1 < a ∨ a + n ≤ e.1

/-- The sum of a list of numbers. -/
def total (l : List Nat) : Nat := l.foldr (· + ·) 0

end Sys2Proof.Machine
end

