-- ==== Sys2Proof/Machine/Ops.lean ====
section
/-! DEFINITION. Sys2Proof/Machine/Ops.lean: the named operations over the state: reading and writing each kind of part, the
clock, and the fixed geometry of the tray (addresses, grid, ports, cages, profiles, routes). -/

namespace Sys2Proof

/-- The headgate-chain address 0x10 + 5 x n + k (R7). -/
def DieId.addr (d : DieId) : Nat := 0x10 + 5 * d.pkg.val + d.slot.val

/-- A key that orders dies by tray, then address. -/
def DieId.key (d : DieId) : Nat := 20 * d.tray.val + 5 * d.pkg.val + d.slot.val

/-- A key that orders link ports by tray, die address, port (R91). -/
def PortId.key (p : PortId) : Nat := 5 * p.die.key + p.port.val

/-- Whether a die is a compute die, C0-C3 (R6). -/
def DieId.isCompute (d : DieId) : Bool := d.slot ≠ 0

/-- The die at a tray number and headgate address, if there is one (R7). -/
def dieOf (tray addr : Nat) : Option DieId :=
  if h : tray < 4 ∧ 0x10 ≤ addr ∧ addr < 0x24 then
    some ⟨⟨tray, h.1⟩, ⟨(addr - 0x10) / 5, by omega⟩, ⟨(addr - 0x10) % 5, by omega⟩⟩
  else none

/-- Compute slot Cm of a package. -/
def DieId.ofSlot (tray pkg : Fin 4) (m : Fin 4) : DieId := ⟨tray, pkg, ⟨m.val + 1, by omega⟩⟩

/-- The I/O die of a package. -/
def DieId.io (tray pkg : Fin 4) : DieId := ⟨tray, pkg, 0⟩

namespace Machine

/-- What a command answers. -/
abbrev Out := Host.Outcome State Fault Refusal

/-- The I/O die of this die's package. -/
def ioOf (d : DieId) : DieId := ⟨d.tray, d.pkg, 0⟩

/-- The four compute dies of a package. -/
def computeDies (tray pkg : Fin 4) : List DieId := [⟨tray, pkg, 1⟩, ⟨tray, pkg, 2⟩, ⟨tray, pkg, 3⟩, ⟨tray, pkg, 4⟩]

/-- The five dies of a package, X first. -/
def packageDies (tray pkg : Fin 4) : List DieId := ⟨tray, pkg, 0⟩ :: computeDies tray pkg

/-- The packages in number order. -/
def allPkgs : List (Fin 4) := [0, 1, 2, 3]

/-- The twenty dies of a tray in address order. -/
def trayDies (tray : Fin 4) : List DieId := allPkgs.flatMap (packageDies tray)

/-- The user fields, F1 first. -/
def allFields : List (Fin 8) := [0, 1, 2, 3, 4, 5, 6, 7]

/-! ### Parts of the state -/

/-- The die `d`. -/
def State.die (s : State) (d : DieId) : Die := NMap.get s.dies d.key (resetDie d)

/-- The state with die `d` holding `x`. -/
def State.setDie (s : State) (d : DieId) (x : Die) : State := { s with dies := NMap.set s.dies d.key x }

/-- The state with die `d` changed by `g`. -/
def State.onDie (s : State) (d : DieId) (g : Die → Die) : State := s.setDie d (g (s.die d))

/-- The link port `p`. -/
def State.port (s : State) (p : PortId) : Port := NMap.get s.links p.key (resetPort p)

/-- The state with port `p` holding `x`. -/
def State.setPort (s : State) (p : PortId) (x : Port) : State := { s with links := NMap.set s.links p.key x }

/-- The state with port `p` changed by `g`. -/
def State.onPort (s : State) (p : PortId) (g : Port → Port) : State := s.setPort p (g (s.port p))

/-- The link of port `p` changed by `g`. -/
def State.onLink (s : State) (p : PortId) (g : Link → Link) : State :=
  s.onPort p fun x => { x with link := g x.link }

/-- User field F(f + 1). -/
def State.field (s : State) (f : Fin 8) : Field := NMap.get s.fields f.val {}

/-- The state with the field holding `x`. -/
def State.setField (s : State) (f : Fin 8) (x : Field) : State := { s with fields := NMap.set s.fields f.val x }

/-- The state with the field changed by `g`. -/
def State.onField (s : State) (f : Fin 8) (g : Field → Field) : State := s.setField f (g (s.field f))

/-- Scope `n`: 0 the tray, 1-8 a field (R266). -/
def State.scope (s : State) (n : Fin 9) : Scope := NMap.get s.scopes n.val {}

/-- The state with the scope holding `x`. -/
def State.setScope (s : State) (n : Fin 9) (x : Scope) : State := { s with scopes := NMap.set s.scopes n.val x }

/-- Host port `n`. -/
def State.host (s : State) (n : Fin 4) : HostPort := NMap.get s.ports n.val {}

/-- The state with the host port holding `x`. -/
def State.setHost (s : State) (n : Fin 4) (x : HostPort) : State := { s with ports := NMap.set s.ports n.val x }

/-- The state with the host port changed by `g`. -/
def State.onHost (s : State) (n : Fin 4) (g : HostPort → HostPort) : State := s.setHost n (g (s.host n))

/-- Mailbox channel `k` of host port `n` (R255). -/
def State.chan (s : State) (n : Fin 4) (k : Fin 9) : Chan := NMap.get (s.host n).chans k.val {}

/-- The state with the channel holding `x`. -/
def State.setChan (s : State) (n : Fin 4) (k : Fin 9) (x : Chan) : State :=
  s.onHost n fun h => { h with chans := NMap.set h.chans k.val x }

/-- Package `n` of this tray. -/
def State.pkg (s : State) (n : Fin 4) : Pkg := NMap.get s.pkgs n.val {}

/-- The state with the package holding `x`. -/
def State.setPkg (s : State) (n : Fin 4) (x : Pkg) : State := { s with pkgs := NMap.set s.pkgs n.val x }

/-- The state with the package changed by `g`. -/
def State.onPkg (s : State) (n : Fin 4) (g : Pkg → Pkg) : State := s.setPkg n (g (s.pkg n))

/-! Each field of the state, set whole. -/

/-- The state with `waiting` set. -/
def State.setWaiting (s : State) (x : List Held) : State := { s with waiting := x }
/-- The state with `resumed` set. -/
def State.setResumed (s : State) (x : Bool) : State := { s with resumed := x }
/-- The state with `wmReply` set. -/
def State.setWmReply (s : State) (x : Option Resp) : State := { s with wmReply := x }
/-- The state with `bundle` set. -/
def State.setBundle (s : State) (x : Dword) : State := { s with bundle := x }
/-- The state with `tray` set. -/
def State.setTray (s : State) (x : TraySt) : State := { s with tray := x }
/-- The state with `span` set. -/
def State.setSpan (s : State) (x : Span) : State := { s with span := x }
/-- The state with `peers` set. -/
def State.setPeers (s : State) (x : List TrayInfo) : State := { s with peers := x }
/-- The state with `serving` set. -/
def State.setServing (s : State) (x : Option (Fin 4)) : State := { s with serving := x }
/-- The state with `targets` set. -/
def State.setTargets (s : State) (x : NMap (Option (Fin 4))) : State := { s with targets := x }
/-- The state with `fields` set. -/
def State.setFields (s : State) (x : NMap Field) : State := { s with fields := x }
/-- The state with `dies` set. -/
def State.setDies (s : State) (x : NMap Die) : State := { s with dies := x }
/-- The state with `links` set. -/
def State.setLinks (s : State) (x : NMap Port) : State := { s with links := x }
/-- The state with `ledgerEpoch` set. -/
def State.setLedgerEpoch (s : State) (x : Nat) : State := { s with ledgerEpoch := x }
/-- The state with `leader` set. -/
def State.setLeader (s : State) (x : Leader) : State := { s with leader := x }
/-- The state with `cleaner` set. -/
def State.putCleaner (s : State) (x : Cleaner) : State := { s with cleaner := x }
/-- The state with `trouble` set. -/
def State.setTrouble (s : State) (x : Trouble) : State := { s with trouble := x }
/-- The state with `wm` set. -/
def State.setWm (s : State) (x : Wm) : State := { s with wm := x }
/-- The state with `input` set. -/
def State.setInput (s : State) (x : Input) : State := { s with input := x }
/-- The state with `capTray` set. -/
def State.setCapTray (s : State) (x : Nat) : State := { s with capTray := x }
/-- The state with `capPkg` set. -/
def State.setCapPkg (s : State) (x : NMap Nat) : State := { s with capPkg := x }
/-- The state with `trayHolder` set. -/
def State.setTrayHolder (s : State) (x : Option Waiting) : State := { s with trayHolder := x }
/-- The state with `sfTimerMs` set. -/
def State.setSfTimer (s : State) (x : Nat) : State := { s with sfTimerMs := x }

/-- The state with the Watermaster changed by `g`. -/
def State.onWm (s : State) (g : Wm → Wm) : State := { s with wm := g s.wm }


/-- Tile `n` of die `x`. -/
def Die.tile (x : Die) (n : Nat) : Tile := NMap.get x.tiles n {}

/-- Die `x` with tile `n` holding `t`. -/
def Die.setTile (x : Die) (n : Nat) (t : Tile) : Die := { x with tiles := NMap.set x.tiles n t }

/-- The state with a tile changed by `g`. -/
def State.onTile (s : State) (d : DieId) (n : Nat) (g : Tile → Tile) : State :=
  s.onDie d fun x => x.setTile n (g (x.tile n))

/-- The state with one more output. -/
def State.emit (s : State) (e : Effect) : State := { s with effects := s.effects ++ [e] }

/-- Applies `g` for each element of a list, in order. -/
def State.forEach {α : Type} (s : State) (l : List α) (g : State → α → State) : State := l.foldl g s

/-- The state with a free value consumed. -/
def State.spend (s : State) : State := { s with free := s.free + 1 }

/-! ### The clock -/

/-- A tally after `n` account ticks of the reference: it counts unless it holds, and its slew phase lengthens or
shortens ticks without skipping or repeating a count (R79, R80, R84). -/
def Tally.count (y : Tally) (n : Nat) : Tally :=
  if y.counting then
    let whole : Int := (n : Int) * 128 + y.phase
    if 0 ≤ whole then
      { y with value := y.value + BitVec.ofNat 64 (whole.toNat / 128), phase := whole % 128 }
    else { y with phase := whole }
  else y

/-- `n` account ticks pass: the model's clock and every counting tally move (R79, R80). -/
def State.tick (s : State) (n : Nat) : State :=
  { s with now := s.now + n
           dies := s.dies.map fun e => (e.1, { e.2 with tally := e.2.tally.count n }) }

/-- Moves the clock to `t`; a command that arrives at an earlier instant than the clock finds the clock as it is. -/
def State.clock (s : State) (t : Nat) : State := if s.now < t then s.tick (t - s.now) else s

/-- One millisecond in account ticks. -/
def ms : Nat := 1000000
/-- One microsecond in account ticks. -/
def us : Nat := 1000
/-- One second in account ticks. -/
def sec : Nat := 1000000000

/-- The tally of a die as a number. -/
def State.tallyOf (s : State) (d : DieId) : Nat := (s.die d).tally.value.toNat

/-! ### Geometry (R9-R12, R212) -/

/-- Grid column of a compute slot in its package: C0 and C3 west, C1 and C2 east (Table 1.3). -/
def slotX (slot : Nat) : Nat := if slot = 2 ∨ slot = 3 then 1 else 0
/-- Grid row of a compute slot in its package (Table 1.3). -/
def slotY (slot : Nat) : Nat := if slot = 3 ∨ slot = 4 then 1 else 0

/-- Grid position of a compute die in its tray (Table 1.3). -/
def trayXY (d : DieId) : Nat × Nat := (2 * (d.pkg.val % 2) + slotX d.slot.val, 2 * (d.pkg.val / 2) + slotY d.slot.val)

/-- The compute slot at an offset within a package: the inverse of `slotX`, `slotY`. -/
def slotOf (x y : Nat) : Fin 5 := if y % 2 = 0 then (if x % 2 = 0 then 1 else 2) else (if x % 2 = 0 then 4 else 3)

/-- The compute die of a tray at grid position (x, y), 0-3 each. -/
def dieAt (tray : Fin 4) (x y : Nat) : DieId :=
  ⟨tray, ⟨(x / 2 % 2) + 2 * (y / 2 % 2), by omega⟩, slotOf x y⟩

/-- The port that faces port `q` across a join: N-S and E-W; ROOT and Hm pair by slot. -/
def opposite (q : Fin 5) : Fin 5 := if q = 0 then 2 else if q = 2 then 0 else if q = 1 then 3 else if q = 3 then 1 else 4

/-- The port the tray's wiring joins to `p`: package neighbour, neighbouring package or root port; none at the
perimeter and for a port that does not exist (R10, R12, R212). -/
def wired (p : PortId) : Option PortId :=
  let d := p.die
  if d.slot = 0 then
    if h : p.port.val < 4 then some ⟨⟨d.tray, d.pkg, ⟨p.port.val + 1, by omega⟩⟩, 4⟩ else none
  else if p.port = 4 then
    some ⟨⟨d.tray, d.pkg, 0⟩, ⟨d.slot.val - 1, by omega⟩⟩
  else
    let (x, y) := trayXY d
    if p.port = 0 then (if y = 0 then none else some ⟨dieAt d.tray x (y - 1), 2⟩)
    else if p.port = 1 then (if x = 3 then none else some ⟨dieAt d.tray (x + 1) y, 3⟩)
    else if p.port = 2 then (if y = 3 then none else some ⟨dieAt d.tray x (y + 1), 0⟩)
    else (if x = 0 then none else some ⟨dieAt d.tray (x - 1) y, 1⟩)

/-- The OSFP cage a perimeter port leaves through, if it does (Table 1.5). -/
def cageOf (p : PortId) : Option (Fin 16) :=
  if p.die.slot = 0 ∨ p.port = 4 then none
  else
    let x := (trayXY p.die).1
    let y := (trayXY p.die).2
    if p.port = 0 ∧ y = 0 then some (Fin.ofNat 16 x)
    else if p.port = 1 ∧ x = 3 then some (Fin.ofNat 16 (4 + y))
    else if p.port = 2 ∧ y = 3 then some (Fin.ofNat 16 (8 + x))
    else if p.port = 3 ∧ x = 0 then some (Fin.ofNat 16 (12 + y))
    else none

/-- The port that serves a cage (Table 1.5). -/
def cagePort (tray : Fin 4) (c : Fin 16) : PortId :=
  if c.val < 4 then ⟨dieAt tray c.val 0, 0⟩
  else if c.val < 8 then ⟨dieAt tray 3 (c.val - 4), 1⟩
  else if c.val < 12 then ⟨dieAt tray (c.val - 8) 3, 2⟩
  else ⟨dieAt tray 0 (c.val - 12), 3⟩

/-- Whether a port exists: five on an HC-2, four root ports on an HX-1 (R429). -/
def portExists (p : PortId) : Bool := p.die.slot ≠ 0 || p.port ≠ 4

/-- Profile of a port: 0 Bridge, 1 Furrow, 2 Culvert (R10, R212). -/
def profileOf (p : PortId) : Nat :=
  if p.die.slot = 0 ∨ p.port = 4 then 0
  else match wired p with
    | some q => if q.die.pkg = p.die.pkg then 1 else 2
    | none => 2

/-- Bundles of a port (Table 1.4, Table 5.2). -/
def bundlesOf (p : PortId) : Nat :=
  if profileOf p = 0 then 4 else if profileOf p = 1 then 8 else if (wired p).isSome then 2 else 1

/-- Data lanes of a bundle (Table 5.2). -/
def dataLanes (p : PortId) : Nat := if profileOf p = 2 then 7 else 16
/-- Spare lanes of a bundle (Table 5.2). -/
def spareLanes (p : PortId) : Nat := if profileOf p = 2 then 1 else 2

/-- The physical edge of an orientation code that faces logical port `q` (R211). -/
def edgeOf (code q : Nat) : Nat := if code < 4 then (q + 4 - code) % 4 else (3 + code - q) % 4

/-- The logical port physical edge Ei of a die with code c faces (R211). -/
def facing (code i : Nat) : Nat := if code < 4 then (i + code) % 4 else (3 + code - i) % 4

/-- A wheel period as a fraction of ticks: Bridge KL1 1024/5, Bridge KL2 1088/5, Furrow 272, Culvert 749/4 (R107, R148). -/
def wheelFrac (profile : Nat) (kl2 : Bool) : Nat × Nat :=
  if profile = 0 then (if kl2 then (1088, 5) else (1024, 5)) else if profile = 1 then (272, 1) else (749, 4)

/-- The tally, rounded up, at which slot `k` of wheel `n` begins (R148). -/
def slotStart (profile : Nat) (kl2 : Bool) (n k : Nat) : Nat :=
  let (a, b) := wheelFrac profile kl2
  ceilDiv ((n * 256 + k) * a) (256 * b)

/-- The first wheel boundary at or after tally `t`, as a wheel number (R130, R148). -/
def wheelFrom (profile : Nat) (kl2 : Bool) (t : Nat) : Nat :=
  let (a, b) := wheelFrac profile kl2
  ceilDiv (t * b) a

/-- Pinned latency of Table 4.4 for an external cable of `dm` tenths of a metre: 96 + 5 x m, up to a multiple of 8. -/
def cablePinned (dm : Nat) : Nat := ceilDiv (960 + 5 * dm) 80 * 8

/-- Declared length a module is pinned at, in tenths of a metre: 3.0 m where it declares none or its field is not valid, which a
field of 0 is, as is one of all ones, whose width the spec does not give and `invalidLength` therefore marks (R89). -/
def declaredDm (m : Module) : Nat :=
  match m.lengthDm with
  | some n => if m.invalidLength ∨ n = 0 then 30 else n
  | none => 30

/-- The pinned latency of a port's link in ticks (R88, Table 4.4). -/
def pinnedOf (p : PortId) (kl2 : Bool) (cable : Option Module) : Nat :=
  if profileOf p = 0 then (if kl2 then 18 else 30)
  else if profileOf p = 1 then 24
  else if (wired p).isSome then 120
  else match cable with
    | some m => cablePinned (declaredDm m)
    | none => cablePinned 30

/-- Rows and columns of the span's die grid by shape row (Table 1.8). -/
def gridOf (shape : Nat) : Nat × Nat :=
  if shape = 2 then (8, 4) else if shape = 3 then (12, 4) else if shape = 4 then (16, 4)
  else if shape = 5 then (8, 8) else (4, 4)

/-- Grid position of a compute die in the span (R21). -/
def State.spanXY (s : State) (d : DieId) : Nat × Nat :=
  let o := s.span.pos.getD d.tray.val (0, 0)
  (4 * o.1 + (trayXY d).1, 4 * o.2 + (trayXY d).2)

/-- The compute die at a position of the span's grid, if a member tray covers it. -/
def State.dieAtSpan (s : State) (x y : Nat) : Option DieId :=
  match s.span.pos.findIdx? (· == (x / 4, y / 4)) with
  | some t => if h : t < 4 then some (dieAt ⟨t, h⟩ (x % 4) (y % 4)) else none
  | none => none

/-- The trays of the device as it stands. -/
def State.trays (s : State) : List (Fin 4) := (List.range (min 4 s.span.members.length)).map fun n => Fin.ofNat 4 n

/-- Every die of the device in order of tray and address. -/
def State.allDies (s : State) : List DieId := s.trays.flatMap trayDies

/-- This tray's dies. -/
def State.ownDies (s : State) : List DieId := trayDies s.span.num

/-- Every port of a die. -/
def diePorts (d : DieId) : List PortId :=
  if d.slot = 0 then [⟨d, 0⟩, ⟨d, 1⟩, ⟨d, 2⟩, ⟨d, 3⟩] else [⟨d, 0⟩, ⟨d, 1⟩, ⟨d, 2⟩, ⟨d, 3⟩, ⟨d, 4⟩]

/-- Every port of the device in ledger order (R91). -/
def State.allPorts (s : State) : List PortId := s.allDies.flatMap diePorts

/-! ### Routes of side messages (R177) -/

/-- Whether a wrap joins the two ends of row `y` (dimension 0) or column `x` (dimension 1) of the span (R93). -/
def State.wrapAt (s : State) (dim i : Nat) : Bool :=
  match s.dieAtSpan (if dim = 0 then 0 else i) (if dim = 0 then i else 0) with
  | some d => (s.port ⟨d, if dim = 0 then 3 else 0⟩).link.wrap && (s.port ⟨d, if dim = 0 then 3 else 0⟩).link.inLedger
  | none => false

/-- Distance along one dimension and whether the step goes up, taking a wrap only where it is strictly shorter. -/
def leg (size a b : Nat) (wrap : Bool) : Nat × Bool :=
  let direct := if a ≤ b then b - a else a - b
  if wrap ∧ size - direct < direct then (size - direct, decide (b < a)) else (direct, decide (a < b))

/-- Hop count of the route between two compute dies: X first, then Y (R177). -/
def State.distance (s : State) (a b : DieId) : Nat :=
  let g := gridOf s.span.shape
  let pa := s.spanXY a
  let pb := s.spanXY b
  (leg g.1 pa.1 pb.1 (s.wrapAt 0 pa.2)).1 + (leg g.2 pa.2 pb.2 (s.wrapAt 1 pb.1)).1

/-- The compute die of a package nearest to `goal`, ties to the lowest slot (R177). -/
def State.nearest (s : State) (tray pkg : Fin 4) (goal : DieId) : DieId :=
  (computeDies tray pkg).foldl (fun best c => if s.distance c goal < s.distance best goal then c else best) ⟨tray, pkg, 1⟩

/-- The compute die at which a message enters the grid of `src`'s package on its way to `dst` (R177). -/
def State.entryDie (s : State) (src dst : DieId) : DieId :=
  if dst.slot ≠ 0 then s.nearest src.tray src.pkg dst
  else
    let pairs := (computeDies src.tray src.pkg).flatMap fun a => (computeDies dst.tray dst.pkg).map fun b => (a, b)
    (pairs.foldl (fun best c => if s.distance c.1 c.2 < s.distance best.1 best.2 then c else best)
      (⟨src.tray, src.pkg, 1⟩, ⟨dst.tray, dst.pkg, 1⟩)).1

/-- The compute die at which a message from `src` leaves the grid for I/O die `dst` (R177). -/
def State.exitDie (s : State) (src dst : DieId) : DieId :=
  if src.slot ≠ 0 then s.nearest dst.tray dst.pkg src
  else
    let pairs := (computeDies src.tray src.pkg).flatMap fun a => (computeDies dst.tray dst.pkg).map fun b => (a, b)
    (pairs.foldl (fun best c => if s.distance c.1 c.2 < s.distance best.1 best.2 then c else best)
      (⟨src.tray, src.pkg, 1⟩, ⟨dst.tray, dst.pkg, 1⟩)).2

/-- The port by which die `at_` sends a message from `src` to `dst` on; none where `at_` is the destination (R177). -/
def State.nextPort (s : State) (at_ src dst : DieId) : Option (Fin 5) :=
  if at_ = dst then none
  else if at_.slot = 0 then some ⟨(s.entryDie at_ dst).slot.val - 1, by omega⟩
  else
    let goal := if dst.slot = 0 then s.exitDie src dst else dst
    if at_ = goal then some 4
    else
      let g := gridOf s.span.shape
      let pa := s.spanXY at_
      let pb := s.spanXY goal
      if pa.1 ≠ pb.1 then (if (leg g.1 pa.1 pb.1 (s.wrapAt 0 pa.2)).2 then some 1 else some 3)
      else if (leg g.2 pa.2 pb.2 (s.wrapAt 1 pa.1)).2 then some 2 else some 0

/-! ### Fields, plans and membership -/

/-- The field number 1-8. -/
def fnum (f : Fin 8) : Nat := f.val + 1

/-- The scope of a field. -/
def fscope (f : Fin 8) : Fin 9 := ⟨f.val + 1, by omega⟩

/-- The field of a number 1-8. -/
def fieldOfNum (n : Nat) : Option (Fin 8) := if h : 1 ≤ n ∧ n ≤ 8 then some ⟨n - 1, by omega⟩ else none

/-- Whether a field exists (R273). -/
def Field.live (x : Field) : Bool := x.st ≠ .none_

/-- The user field a die belongs to (R274). -/
def State.fieldOf (s : State) (d : DieId) : Option (Fin 8) :=
  allFields.find? fun f => (s.field f).live && (s.field f).dies.contains d

/-- The field number of a die, 0 for none. -/
def State.fieldNumOf (s : State) (d : DieId) : Nat := match s.fieldOf d with | some f => fnum f | none => 0

/-- The lead die of a field: lowest tray, then lowest address (R94). -/
def Field.lead (x : Field) : Option DieId :=
  x.dies.foldl (fun best d => match best with
    | none => some d
    | some b => if d.key < b.key then some d else best) none

/-- The tally by which a field counts: its lead die's (R94). -/
def State.leadTally (s : State) (f : Fin 8) : Nat := match (s.field f).lead with | some d => s.tallyOf d | none => 0

/-- The loaded plans of a field: active, then staged (R24). -/
def Field.plans (x : Field) : List Plan := x.active.toList ++ x.staged.toList

/-- Whether a plan is loaded. -/
def Field.loaded (x : Field) : Bool := !x.plans.isEmpty

/-- The port a plan's ledger entry names, if it is a port. -/
def PlanLedger.portId (e : PlanLedger) : Option PortId :=
  match dieOf e.tray e.die with
  | some d => if h : e.port < 5 then some ⟨d, ⟨e.port, h⟩⟩ else none
  | none => none

/-- Planned slots a plan's slot set gives a port, as a 256-bit mask (Table 2.3d). -/
def Plan.maskOf (p : Plan) (set : Nat) (q : PortId) : Nat :=
  match p.sets.find? (·.set = set) with
  | some x =>
    match x.ports.find? (fun b => (p.ledger[b.ledger]?.bind PlanLedger.portId) = some q) with
    | some b => b.mask
    | none => 0
  | none => 0

/-- Whether a plan holds a slot on a port in any slot set (R134, R223, R245). -/
def Plan.holds (p : Plan) (q : PortId) : Bool := p.sets.any fun x => p.maskOf x.set q ≠ 0

/-- The peer of a link as the span uses it: none while it lies on a tray outside the span (R385). -/
def Link.mate (l : Link) : Option PortId := if l.foreign then none else l.peer

/-- The ends of the link of a port that are in the span. -/
def State.linkEnds (s : State) (p : PortId) : List PortId :=
  p :: (match (s.port p).link.mate with | some q => [q] | none => [])

/-- Whether any loaded plan holds a slot on the link of a port. -/
def State.planned (s : State) (p : PortId) : Bool :=
  allFields.any fun f => (s.field f).plans.any fun pl => (s.linkEnds p).any pl.holds

/-- Fields with a loaded plan that holds slots on the link of a port. -/
def State.fieldsOn (s : State) (p : PortId) : List (Fin 8) :=
  allFields.filter fun f => (s.field f).plans.any fun pl => (s.linkEnds p).any pl.holds

/-- The step the running launch is in, as its descriptor. -/
def Field.stepNow (x : Field) : Option Step :=
  match x.active, x.run with
  | some p, some r => p.steps[r.step]?
  | _, _ => none

/-- Whether a drain wave runs in a field: a tailwater switch or a drain (R233, R241). -/
def Field.waving (x : Field) : Bool :=
  x.drain.isSome || (match x.switch with | some w => w.form = .tailwater | none => false)

/-- The slot set in force: the running ordinary step's; in a drain wave the last one of the active plan, retained for the markers
(R232, R233; for a drain log entry 136); none in a frozen field and between launches (R167). -/
def Field.setNow (x : Field) : Option Nat :=
  if x.frozen then none
  else if x.waving then x.lastSet
  else
    match x.run with
    | some r => if r.kind = .ordinary ∧ r.started then x.stepNow.bind (·.slotSet) else none
    | none => none

/-- Slots of `q` that the field's slot set in force holds. -/
def Field.maskNow (x : Field) (q : PortId) : Nat :=
  match x.active, x.setNow with
  | some p, some n => p.maskOf n q
  | _, _ => 0

/-- The field that holds slot `k` of a port now, by any end of its link (R150, R152). -/
def State.slotField (s : State) (p : PortId) (k : Nat) : Option (Fin 8) :=
  allFields.find? fun f => (s.linkEnds p).any fun q => (((s.field f).maskNow q) / 2 ^ k) % 2 = 1

/-- Whether a loaded plan, active or staged, holds slot `k` of a port in any of its slot sets: such a slot is no side slot, whether
the plan runs, waits between launches, runs a fallow step or is frozen (R17, R150, R167; DEDUCED, log entry 135). -/
def State.slotHeld (s : State) (p : PortId) (k : Nat) : Bool :=
  k % 16 ≠ 0 && allFields.any fun f => (s.field f).plans.any fun pl => pl.sets.any fun n =>
    (s.linkEnds p).any fun q => (pl.maskOf n.set q).testBit k

/-- Whether the Watermaster runs, if only its recovery image: running, not restarting (R336, R340). -/
def State.wmAlive (s : State) : Bool := s.wm.running && s.wm.restarting.isNone

/-- Whether the Watermaster does its whole work: the recovery image holds every output and serves updates alone (R336, R340). -/
def State.wmUp (s : State) : Bool := s.wmAlive && !s.wm.recovery

/-- Whether the Watermaster serves a mailbox opcode: the firmware commands 0x09xx also in recovery (R340, R345). -/
def State.wmFor (s : State) (opcode : Nat) : Bool := if opcode / 256 = 9 then s.wmAlive else s.wmUp

/-- Whether a die has its rails and runs firmware. -/
def State.runs (s : State) (d : DieId) : Bool := (s.die d).boot.st = .firmware

/-- Whether a die stands in the test carrier, out of reset: TESTMODE is set and no gate powers a package around it (R225; log entry
144). -/
def State.inCarrier (s : State) (d : DieId) : Bool :=
  d.tray = s.span.num && (s.die d).boot.testMode && (s.die d).boot.st = .bootRom && !(s.pkg d.pkg).gate

/-- The trouble sink die: KP0-X, or the lowest-numbered placed and powered I/O die (R191, R401). -/
def State.sink (s : State) : DieId :=
  match allPkgs.find? (fun n => (s.pkg n).placed && (s.pkg n).st = .on) with
  | some n => ⟨s.span.num, n, 0⟩
  | none => ⟨s.span.num, 0, 0⟩

/-- Whether packages' dies are usable by a field: placed, powered, enabled (R286). -/
def State.usable (s : State) (d : DieId) : Bool :=
  if d.tray = s.span.num then
    (s.pkg d.pkg).placed && (s.pkg d.pkg).st = .on && !(s.die d).boot.hbmFailed && !(s.die d).boot.loadFailed
      && (s.die d).ident.maxRung = 7
  else
    match s.span.members[d.tray.val]? with
    | some ser => s.peers.any fun q => q.serial = ser && (q.placedMask / 2 ^ (d.addr - 0x10)) % 2 = 1
    | none => false

/-- The window of BAR4 an offset of a field's slot falls in: the die and the offset in its window (R278). -/
def Field.barDie (x : Field) (o : Nat) : Option (DieId × Nat) :=
  if x.h = 0 then none else (x.dies[o / x.h]?).map fun d => (d, o % x.h)

end Machine
end Sys2Proof
end

