-- ==== Sys2Proof/Machine/Flags.lean ====
section
/-! DEFINITION. Sys2Proof/Machine/Flags.lean: status bits and their rules: TRB_SUMMARY (Table 16.6), interrupt causes
(R255), the SEVERITY byte (R388), trouble codes (Table 16.4), access codes (R4), and the bytes of records. -/

namespace Sys2Proof.Machine

/-- `w` with bit `i` set. -/
def setBit {n : Nat} (w : BitVec n) (i : Nat) : BitVec n := w ||| BitVec.twoPow n i

/-- W1C: the bits written as 1 are cleared, the others stay (R4). -/
def w1c {n : Nat} (old written : BitVec n) : BitVec n := old &&& ~~~written

/-- RW bits under a mask: masked bits take the written value, the others stay (R3, R4). -/
def rwMask {n : Nat} (mask old written : BitVec n) : BitVec n := (old &&& ~~~mask) ||| (written &&& mask)

/-- Sets bit `i` of TRB_SUMMARY (R402). -/
def State.summarise (s : State) (i : Nat) : State :=
  s.setTrouble { s.trouble with summary := setBit s.trouble.summary i }

/-- Raises vector `v` on host port `n` (R255): a cause bit already set produces no message; otherwise the bit is set
and the message sent, or left pending while the vector is masked. -/
def State.raise (s : State) (n : Fin 4) (v : Nat) : State :=
  let h := s.host n
  if h.cause.getLsbD v then s
  else
    let h := { h with cause := setBit h.cause v }
    if h.msixMask.getLsbD v then s.setHost n { h with pba := setBit h.pba v }
    else (s.setHost n h).emit (.msix n v)

/-- Severity and scope of a trouble code (Table 16.4); scope 9 stands for the column's dash. -/
def codeInfo : NMap (Nat × Nat) :=
  [(0xE101, 0, 9), (0xE102, 2, 1), (0xE103, 2, 1), (0xE104, 2, 1), (0xE105, 2, 1), (0xE106, 2, 1), (0xE107, 2, 1),
   (0xE201, 0, 9), (0xE202, 1, 0), (0xE203, 0, 9), (0xE204, 1, 0), (0xE205, 2, 3)] ++
  [(0xE301, 0, 9), (0xE302, 0, 9), (0xE303, 0, 9), (0xE304, 0, 9), (0xE305, 0, 4), (0xE306, 0, 9), (0xE307, 0, 9),
   (0xE308, 0, 9), (0xE401, 2, 1), (0xE402, 2, 1), (0xE403, 2, 1), (0xE404, 0, 9)] ++
  [(0xE501, 0, 9), (0xE502, 2, 1), (0xE503, 1, 0), (0xE504, 1, 0), (0xE505, 0, 9), (0xE506, 0, 9),
   (0xE601, 1, 0), (0xE602, 1, 0), (0xE603, 2, 1), (0xE604, 2, 1), (0xE605, 2, 1), (0xE606, 0, 9)] ++
  [(0xE701, 0, 9), (0xE702, 0, 9), (0xE703, 0, 9), (0xE704, 0, 9), (0xE705, 2, 1), (0xE706, 2, 1), (0xE707, 3, 3),
   (0xE708, 3, 3), (0xE709, 3, 3), (0xE70A, 3, 3), (0xE70B, 3, 3), (0xE70C, 3, 5), (0xE70D, 3, 5), (0xE70E, 0, 9),
   (0xE70F, 0, 9), (0xE710, 0, 5)] ++
  [(0xE801, 0, 9), (0xE802, 3, 5), (0xE803, 0, 9), (0xE804, 0, 9), (0xE805, 3, 5), (0xE806, 2, 3), (0xE807, 3, 2),
   (0xE808, 3, 2), (0xE809, 0, 9), (0xE901, 2, 3), (0xE902, 2, 3), (0xE903, 2, 1), (0xE904, 3, 2), (0xE905, 3, 4)]

/-- Severity of a code before any escalation. -/
def codeSev (c : Nat) : Nat := (NMap.get codeInfo c (0, 9)).1

/-- Scope of a code as a die (or, with `wm`, the Watermaster) records it (R388). -/
def codeScope (c : Nat) (wm : Bool) : Nat :=
  let x := (NMap.get codeInfo c (0, 9)).2
  if x = 9 then (if wm then 5 else 2) else x

/-- Codes whose action is field containment, FC (Table 16.4). -/
def codeFC (c : Nat) : Bool := [0xE102, 0xE103, 0xE104, 0xE105, 0xE106, 0xE107, 0xE502, 0xE706, 0xE903].contains c

/-- Class of a code: 0xE000 + 0x100 x class + n (R392). -/
def codeClass (c : Nat) : Nat := (c - 0xE000) / 0x100

/-- The SEVERITY byte (R388). -/
def sevByte (sev : Nat) (nested : Bool) (scope : Nat) : Byte :=
  BitVec.ofNat 8 (sev + (if nested then 0x0C else 0) + 16 * scope)

/-- [1:0] of a SEVERITY byte. -/
def Rec.sev (r : Rec) : Nat := r.severity.toNat % 4
/-- [7:4] of a SEVERITY byte. -/
def Rec.scope (r : Rec) : Nat := r.severity.toNat / 16
/-- Whether a record's error was nested (R399). -/
def Rec.nested (r : Rec) : Bool := r.severity.getLsbD 2

/-- The 32 bytes of an error record entry (Table 16.5). -/
def Rec.bytes (r : Rec) : List Byte :=
  le 2 r.code ++ [r.severity] ++ le 1 r.field ++ le 2 r.count ++ le 1 r.locKind ++ le 1 r.die ++ le 4 r.location
    ++ le 4 0 ++ le 8 r.tally ++ le 8 r.info

/-- The record 32 bytes of data spell (Table 16.5). -/
def recOf (bs : List Byte) : Rec :=
  { code := fieldAt bs 0 2, severity := BitVec.ofNat 8 (fieldAt bs 2 1), field := fieldAt bs 3 1,
    count := fieldAt bs 4 2, locKind := fieldAt bs 6 1, die := fieldAt bs 7 1, location := fieldAt bs 8 4,
    tally := fieldAt bs 16 8, info := fieldAt bs 24 8 }

/-- The 64 bytes of an identity record (Table 8.2); a record whose CHECK is bad carries the complement of the CRC. -/
def Ident.bytes (x : Ident) : List Byte :=
  let body := le 2 x.tag ++ le 1 1 ++ le 1 0 ++ le 2 x.part ++ le 1 x.stepping ++ le 1 x.gen ++ le 8 x.uid.toNat
    ++ le 1 x.maxRung ++ le 3 0 ++ slice x.coef 0 32 ++ le 10 0
  body ++ le 2 (if x.checkOk then crc16 body else 0xFFFF - crc16 body)

/-- The 16 bytes of a slot entry (Table 8.4). -/
def SlotEnt.bytes (x : SlotEnt) : List Byte :=
  le 8 x.uid.toNat ++ le 1 x.orient ++ [x.edgeUse] ++ le 1 x.root ++ le 5 0

/-- The 112 bytes of a placement record (Table 8.3). -/
def Placement.bytes (x : Placement) : List Byte :=
  let body := le 2 x.tag ++ le 1 1 ++ le 1 5 ++ le 8 x.serial.toNat ++ le 2 x.pkgType ++ le 2 0
    ++ slice (x.slots.flatMap SlotEnt.bytes) 0 80
  body ++ le 2 (if x.checkOk then crc16 body else 0xFFFF - crc16 body) ++ le 14 0

/-- Whether a fuse record's TAG and CHECK are good (R216). -/
def Boot.fuseGood (b : Boot) : Bool := b.fuseTag = 0x4C52 && b.fuseOk

/-- The 152 bytes of a fuse record (Table 5.6). -/
def fuseBytes (b : Boot) : List Byte :=
  let head := le 2 b.fuseTag ++ le 1 1 ++ le 1 0 ++ le 2 72
  let ents := (List.range 72).flatMap fun n => le 2 (NMap.get b.fuse n 0x03FF).toNat
  head ++ le 2 (if b.fuseOk then crc16 (head ++ ents) else 0xFFFF - crc16 (head ++ ents)) ++ ents

/-- Whether an interrupt for `field` (0 the tray) can be delivered: the scope is owned by a host agent (R14). -/
def State.ownerPort (s : State) (n : Fin 9) : Option (Fin 4) :=
  let x := s.scope n
  if x.owned then (if h : x.src.val < 4 then some ⟨x.src.val, h⟩ else none) else none

end Sys2Proof.Machine
end

