-- ==== Sys2Proof/Machine/Operands.lean ====
section
/-! DEFINITION. Sys2Proof/Machine/Operands.lean: the operands of mailbox commands: references to ports, dies, scopes and
fields (R263), owner requirements, statuses (Table 10.8 and the chapters it points to), and field states that refuse a
command at once (Table 11.5). -/

namespace Sys2Proof.Machine

/-! ### Statuses -/

def eArgOpcode : Nat := 0x0101
def eArgLength : Nat := 0x0102
def eArgReserved : Nat := 0x0103
def eArgRange : Nat := 0x0104
def eArgVersion : Nat := 0x0105
def eArgChannel : Nat := 0x0106
def eOwnBusy : Nat := 0x0201
def eOwnNotOwner : Nat := 0x0202
def eOwnToken : Nat := 0x0203
def eOwnLevel : Nat := 0x0204
def eOwnHandover : Nat := 0x0205
def eNotReady : Nat := 0x0402
def eFieldState : Nat := 0x0403
def eSpanBusy : Nat := 0x0406
def eFwBusy : Nat := 0x0407
def eSpanShape : Nat := 0x0502
def eSpanBundle : Nat := 0x0503
def ePwrRange : Nat := 0x0601
def ePkgFault : Nat := 0x0602
def eServerMoved : Nat := 0x0702
def eWmAbsent : Nat := 0x0704
def eFwImage : Nat := 0x0107
def ePlanFormat : Nat := 0x0110
def ePlanUnbounded : Nat := 0x0111
def ePlanFit : Nat := 0x0301
def eFieldDies : Nat := 0x0302
def eFieldHbm : Nat := 0x0303
def eFieldPond : Nat := 0x0304
def eFieldCredit : Nat := 0x0305
def eFieldShape : Nat := 0x0306
def ePlanBusy : Nat := 0x0401
def eNoStaged : Nat := 0x0405
def eFwNone : Nat := 0x0408
def eSluiceSplit : Nat := 0x0410
def eObsBusy : Nat := 0x0411
def ePortTest : Nat := 0x0420
def ePortPlanned : Nat := 0x0421
def ePortDisabled : Nat := 0x0422
def ePondBusy : Nat := 0x0423
def ePkgUnplaced : Nat := 0x0430
def ePlanLedger : Nat := 0x0501
def eLinkTimeout : Nat := 0x0510
def eLinkRepair : Nat := 0x0511
def eLinkGen : Nat := 0x0512
def eLinkPin : Nat := 0x0513
def eLinkPeer : Nat := 0x0514
def eLinkSpare : Nat := 0x0515
def eLinkMedia : Nat := 0x0516
def eLinkAlign : Nat := 0x0517
def eLinkErrors : Nat := 0x0518
def eLinkReplay : Nat := 0x0519
def eLinkLane : Nat := 0x051A
def eSfTimeout : Nat := 0x0520
def eSfLost : Nat := 0x0521
def eSfRefused : Nat := 0x0522
def eSfUnsupported : Nat := 0x0523
def eSfPoisoned : Nat := 0x0524
def eSfTarget : Nat := 0x0525
def eFwFlash : Nat := 0x0705
def eFwBringup : Nat := 0x0706

/-! ### References -/

/-- The die a tray number and address name, if the tray is in the span (R263). -/
def State.dieRef (s : State) (tray addr : Nat) : Option DieId :=
  if tray < s.trays.length then dieOf tray addr else none

/-- The port a PORTREF names, if it exists in the span (R263, R429). -/
def State.portRef (s : State) (p : PRef) : Option PortId :=
  match s.dieRef p.tray p.die with
  | some d =>
    if h : p.port < 5 then (if portExists ⟨d, ⟨p.port, h⟩⟩ then some ⟨d, ⟨p.port, h⟩⟩ else none) else none
  | none => none

/-- The scope a SCOPE byte names: 0 the tray, 1-8 a field (R263). -/
def scopeOf (n : Nat) : Option (Fin 9) := if h : n < 9 then some ⟨n, h⟩ else none

/-- The package a package byte names. -/
def pkgOf (n : Nat) : Option (Fin 4) := if h : n < 4 then some ⟨n, h⟩ else none

/-- The field of the channel a 0x04xx command arrives on; none on channel M (R261). -/
def chanField (k : Fin 9) : Option (Fin 8) := if h : 1 ≤ k.val then some ⟨k.val - 1, by omega⟩ else none

/-- The field whose scope contains a port: both dies of its link are members (R275). -/
def State.portField (s : State) (p : PortId) : Option (Fin 8) :=
  match s.fieldOf p.die, (s.port p).link.mate with
  | some f, some q => if (s.field f).dies.contains q.die then some f else none
  | _, _ => none

/-- The scope of a field number, as an owner requirement names it. -/
def fieldScope (n : Nat) : Option (Fin 9) := if 1 ≤ n then scopeOf n else none

/-! ### Owner requirements (Table 10.6) -/

/-- Who may issue a command. A reference that names no scope is owned by nobody. -/
inductive Need where
  | anyone
  | tray
  | scope (n : Option (Fin 9))
  | either (n : Option (Fin 9))
  | everyTray
  | seize (n : Option (Fin 9))
deriving DecidableEq, Repr

/-- Whether the requester owns a scope (R266). -/
def Scope.ownedBy (x : Scope) (r : MReq) : Bool := x.owned && x.rid = r.rid && x.src = r.port

/-- The scopes whose owner a requirement accepts. -/
def Need.scopes : Need → List (Fin 9)
  | .anyone => []
  | .tray => [0]
  | .scope n => n.toList
  | .either n => 0 :: n.toList
  | .everyTray => [0]
  | .seize _ => [0]

/-- Whether a request is the Watermaster's seizure of the tray, which needs no ownership (R271). -/
def Need.wmSeize (n : Need) (r : MReq) : Bool := n = .seize (some 0) && r.port = 4

/-- The requirement on the owner and its token: E_OWN_NOT_OWNER, then E_OWN_TOKEN; the requester a scope was last seized
from gets E_OWN_TOKEN (R261, R271). A user field is seized by the tray owner; the tray by the Watermaster alone. -/
def State.ownerCheck (s : State) (r : MReq) (n : Need) : Option Nat :=
  if n = .anyone ∨ n.wmSeize r = true then none
  else if n = .seize (some 0) then some eOwnNotOwner
  else
    let mine := n.scopes.filter fun k => (s.scope k).ownedBy r
    if mine = [] then
      (if n.scopes.any fun k => (s.scope k).seizedFrom = some (r.rid, r.port) then some eOwnToken else some eOwnNotOwner)
    else if n = .everyTray ∧ s.peers.any (fun q => q.owner ≠ some (r.rid, r.port)) then some eOwnNotOwner
    else if mine.any fun k => (s.scope k).token = r.token then none
    else some eOwnToken

/-- The field a requirement concerns, for a field owner's expert permission. -/
def Need.own : Need → Option (Fin 9)
  | .scope n => n
  | .either n => n
  | .seize n => n
  | _ => none

/-- Expert permission (R265): the tray owner for every scope; a field owner for its own field while OWN_EXPERT is
enabled for it. -/
def State.expertOk (s : State) (r : MReq) (n : Need) : Bool :=
  (s.scope 0).ownedBy r || n.wmSeize r ||
  (match n.own with
   | some k => (s.scope k).ownedBy r && k ≠ 0 && (s.scope k).expert
   | none => false)

/-! ### Field states (Table 11.5) -/

/-- E_FIELD_BUSY of Table 11.5 for a command the field's state refuses: `changing` for the commands CHANGING refuses
too. E_FIELD_BUSY is 0x0404 (Table 9.1). -/
def eFieldBusy : Nat := 0x0404

/-- Whether the field's state refuses a command at once (Table 11.5). -/
def State.refuses (s : State) (f : Option (Fin 8)) (changing : Bool) : Option Nat :=
  match f with
  | some f =>
    if (s.field f).st = .disabling ∨ ((s.field f).st = .changing ∧ changing = true) then some eFieldBusy else none
  | none => none

/-- The state byte of FIELD_STATUS (Table 11.5); 0 for a field that does not exist. -/
def FieldSt.code : FieldSt → Nat
  | .none_ => 0
  | .enabled => 1
  | .disabling => 2
  | .disabled => 3
  | .changing => 4

end Sys2Proof.Machine
end

