-- ==== Sys2Proof/Machine/Trouble.lean ====
section
/-! DEFINITION. Sys2Proof/Machine/Trouble.lean: errors: recording, nesting, escalation, reporting, field containment and
tray-level containment (R387-R408). -/

namespace Sys2Proof.Machine

/-- An error a die or the Watermaster raises: code, field (0xFF none), place and INFO (Table 16.5). -/
structure Err where
  code : Nat
  field : Nat := 0xFF
  locKind : Nat := 0
  location : Nat := 0
  info : Nat := 0
deriving DecidableEq, Repr

/-! ### The die's record (R394-R400) -/

/-- The log entry an error would repeat: severity corrected, same CODE, DIE, LOC_KIND and LOCATION (R396). -/
def repeats (x : Err) (die : Nat) (r : Rec) : Bool :=
  codeSev x.code = 0 && r.code = x.code && r.die = die && r.locKind = x.locKind && r.location = x.location

/-- The log with the count of the repeated entry incremented, saturating (R396). -/
def bumpLog (x : Err) (die : Nat) : List Rec → List Rec
  | [] => []
  | r :: rs => if repeats x die r then { r with count := satAdd 0xFFFF r.count 1 } :: rs else r :: bumpLog x die rs

/-- Severity after the escalation of a nested error (R399). -/
def escalate (sev : Nat) (nested : Bool) : Nat := if nested then min 3 (sev + 1) else sev

/-- Scope after escalation (R399): a nested deferred error that names a user field contains it; a nested contained error
reaches die scope, or keeps package or tray; a nested fatal error reaches tray scope. -/
def escScope (sev scope field : Nat) (nested : Bool) : Nat :=
  if nested then
    (if sev = 1 then (if 1 ≤ field ∧ field ≤ 8 then 1 else scope)
     else if sev = 2 then (if scope = 3 ∨ scope = 4 then scope else 2) else if sev = 3 then 4 else scope)
  else scope

/-- Whether class `c` is being handled on a die (R398). -/
def Trb.handles (t : Trb) (c : Nat) : Bool := t.handling.any (·.1 = c)

/-- The record an error makes on a die (R388, R394, R399). -/
def makeRec (x : Err) (die tally : Nat) (nested wm : Bool) : Rec :=
  let sev := codeSev x.code
  { code := x.code, severity := sevByte (escalate sev nested) nested (escScope sev (codeScope x.code wm) x.field nested),
    field := x.field, count := 1, locKind := x.locKind, die := die, location := x.location, tally := tally,
    info := x.info }

/-- A new entry in a die's log: entries 0-31 in order, then OVF and OVF_COUNT (R396, R397). -/
def Trb.enter (t : Trb) (r : Rec) : Trb :=
  if t.log.length < 32 then { t with log := t.log ++ [r] }
  else { t with ovf := true, ovfCount := satAdd 0xFFFF t.ovfCount 1 }

/-- TRB_FEC takes the first error of severity deferred or above; a nested one never (R395, R399). -/
def Trb.capture (t : Trb) (r : Rec) : Trb :=
  if t.fec.isNone ∧ 1 ≤ r.sev ∧ !r.nested then { t with fec := some r } else t

/-- HANDLING bit c is set by a contained or fatal error of class c that is not nested (R398, R399). -/
def Trb.handle (t : Trb) (r : Rec) (now : Nat) : Trb :=
  if 2 ≤ r.sev ∧ !r.nested then { t with handling := t.handling ++ [(codeClass r.code, now)] } else t

/-- A copy of an alarm in the headgate agent's FIFO; when full, the oldest stay and the copy is counted (R406). -/
def Trb.copy (t : Trb) (c : AlarmCopy) : Trb :=
  if t.fifo.length < 8 then { t with fifo := t.fifo ++ [c] } else { t with ovfCount := satAdd 0xFFFF t.ovfCount 1 }

/-! ### Alarms (R191) -/

/-- The header of a side message between two dies. -/
def hdr (opcode field : Nat) (src dst : DieId) (unit : Nat) (len : Nat) : Hdr :=
  { opcode := opcode, field := field, space := 0, dst := dst, src := src, dstUnit := unit, srcUnit := 0, tag := 0,
    cstatus := 0, len := len, addr := 0 }

/-- Queues an alarm message at a die: at most 64 wait; one more is dropped and counted as ALARM_DROP (R191). -/
def Die.queueAlarm (x : Die) (self : DieId) (m : Msg) : Die :=
  if x.side.alarms.length < 64 then { x with side := { x.side with alarms := x.side.alarms ++ [m] } }
  else
    let e : Err := { code := 0xE506 }
    if x.trb.log.any (repeats e self.addr) then { x with trb := { x.trb with log := bumpLog e self.addr x.trb.log } }
    else { x with trb := x.trb.enter (makeRec e self.addr x.tally.value.toNat false false) }

/-! ### Field containment (R389) -/

/-- Closes the three headgates of a field at once (R240, R389). -/
def Field.shut (x : Field) : Field := { x with ringClosed := true, stepClosed := true, sideClosed := true }

/-- Whether the field is being contained: a flush for containment runs (R389). -/
def Field.containing (x : Field) : Bool := match x.flush with | some (.contain, _) => true | _ => false

/-- Field containment of a field: gates closed at once, the running step abandoned, a flush begun on every die; one
containment at a time (R389). -/
def State.containField (s : State) (f : Fin 8) : State :=
  let x := s.field f
  if !x.live then s
  else if x.containing then s
  else s.setField f { x.shut with flush := some (.contain, s.now) }

/-- Fields that hold a die of package `n` of this tray. -/
def State.pkgFields (s : State) (n : Fin 4) : List (Fin 8) :=
  allFields.filter fun f => (s.field f).live && (s.field f).dies.any fun d => d.tray = s.span.num && d.pkg = n

/-- Fields that hold a die of this tray. -/
def State.trayFields (s : State) : List (Fin 8) :=
  allFields.filter fun f => (s.field f).live && (s.field f).dies.any fun d => d.tray = s.span.num

/-- The FIELD byte of an error of a die itself: the user field that holds it, 0xFF for none (Table 16.5). -/
def State.fieldByte (s : State) (d : DieId) : Nat := match s.fieldOf d with | some f => fnum f | none => 0xFF

/-- Tray-level containment: every field with a die on the tray is contained and its ring intake held until TRAY_FATAL
is cleared; the tray is degraded (R391). The named die's warm reset is the Watermaster's (R406). -/
def State.containTray (s : State) : State :=
  let s := s.forEach s.trayFields fun s f => (s.containField f).onField f fun x => { x with intakeHeld := true }
  s.setTray (if s.tray = .ready then .degraded else s.tray)

/-! ### The sink (R401, R402) -/

/-- Whether the die of this tray at an address has its OVF set (Table 16.6, LOG_OVF). -/
def State.logOvf (s : State) (addr : Nat) : Bool :=
  match dieOf s.span.num.val addr with
  | some d => (s.die d).trb.ovf
  | none => false

/-- An interrupt of `field` (0 the tray) that cannot be delivered: its summary bit, its counter, and INT_UNDELIVERED in
the sink's log (R14, R189, R403). -/
def State.undelivered (s : State) (field die vector : Nat) : State :=
  let s := s.summarise (37 + field)
  let n := NMap.get s.trouble.undeliv field 0
  let s := s.setTrouble { s.trouble with undeliv := NMap.set s.trouble.undeliv field (sat32 n) }
  let e : Err := { code := 0xE809, field := field, location := field, info := vector }
  let s := s.onDie s.sink fun x =>
    if x.trb.log.any (repeats e die) then { x with trb := { x.trb with log := bumpLog e die x.trb.log } }
    else { x with trb := x.trb.enter (makeRec e die x.tally.value.toNat false false) }
  let s := (s.summarise 15).summarise (17 + (s.sink.addr - 0x10))
  if s.logOvf s.sink.addr then s.summarise 16 else s

/-- Raises a vector at the owner of a scope, or counts it undelivered while no host agent owns it (R14, R255). -/
def State.notify (s : State) (n : Fin 9) (v : Nat) : State :=
  match s.ownerPort n with
  | some p => s.raise p v
  | none => s.undelivered n.val 0 v

/-- The tray record takes a copy of a contained or fatal entry; it fills to 64 and overflows (R401). -/
def Trouble.take (t : Trouble) (r : Rec) : Trouble :=
  if t.records.length < 64 then { t with records := t.records ++ [r] }
  else { t with ovf := true, ovfCount := satAdd 0xFFFF t.ovfCount 1 }

/-- The package number a record of package or die scope concerns. -/
def Rec.pkg (r : Rec) : Nat := if r.die ≥ 0x10 then (r.die - 0x10) / 5 % 4 else r.location % 4

/-- Summary bits a record sets at the sink (Table 16.6). -/
def Rec.bits (r : Rec) : List Nat :=
  (if r.die ≥ 0x10 ∧ r.die < 0x24 then [17 + (r.die - 0x10)] else []) ++
  (if r.sev = 0 then [15] else if r.sev = 1 then [14]
   else if r.sev = 2 then (if 1 ≤ r.field ∧ r.field ≤ 8 then [6 + r.field - 1] else [])
   else if r.scope = 4 then [0] else if r.scope = 5 then [1] else [2 + r.pkg]) ++
  (if 2 ≤ r.sev then [46] else [])

/-- The sink takes a record: summary bits, tray record, interrupts to the owners (R401, R402, R407, Table 10.5a). -/
def State.sinkTake (s : State) (r : Rec) : State :=
  let s := s.forEach r.bits State.summarise
  let s := if 2 ≤ r.sev then s.setTrouble (s.trouble.take r) else s
  let s := if s.trouble.ovf ∨ s.logOvf r.die then s.summarise 16 else s
  let s := if r.sev = 2 then
      match fieldOfNum r.field with
      | some f => s.notify (fscope f) (17 + f.val)
      | none => s
    else s
  let s := if r.sev = 3 ∨ (r.sev = 2 ∧ r.scope = 3) then s.notify 0 25 else s
  if r.sev = 3 ∧ r.scope = 4 then s.containTray else s

/-! ### Reporting -/

/-- Whether an alarm's receiver has acted on the source, code and tally before (R406). -/
def State.actedOn (s : State) (d : DieId) (k : ActedKey) : Bool := (s.die d).trb.acted.contains k

/-- Records that an alarm has been acted on. -/
def State.noteActed (s : State) (d : DieId) (k : ActedKey) : State :=
  s.onDie d fun x => { x with trb := { x.trb with acted := x.trb.acted ++ [k] } }

/-- The key by which a receiver acts on a record once (R406). -/
def Rec.key (r : Rec) : ActedKey := { die := r.die, code := r.code, tally := r.tally }

/-- A die raises an error (R387-R400): a corrected repeat is merged; otherwise the error is nested if its class is being
handled, captured, logged, reported by ALARM to the sink and, where its action is FC, to every die of the field, copied
to the chain FIFO, and contained at once on all of them, which have then acted on it. A fatal error contains the field that holds the die, or every field with a die of the
package (R390); a fatal error of tray scope contains the tray once the sink has it (R391). -/
def State.report (s : State) (d : DieId) (e : Err) : State :=
  let x := s.die d
  if x.trb.log.any (repeats e d.addr) then
    s.setDie d { x with trb := { x.trb with log := bumpLog e d.addr x.trb.log } }
  else
    let nested := x.trb.handles (codeClass e.code)
    let r := makeRec e d.addr x.tally.value.toNat nested false
    let fc := codeFC e.code || (nested && codeSev e.code = 1)
    let trb := (((x.trb.capture r).enter r).handle r s.now).copy { opcode := 0x50, field := r.field, record := r }
    let cnt := if codeSev e.code = 2 then { x.cnt with contained := sat32 x.cnt.contained } else x.cnt
    let x := { x with trb := trb, cnt := cnt }
    let msg := fun (who : DieId) => ({ h := hdr 0x50 r.field d who 0x1C 32, data := r.bytes } : Msg)
    let x := x.queueAlarm d (msg s.sink)
    let others := match fieldOfNum e.field with
      | some f => if fc then (s.field f).dies.filter (· ≠ d) else []
      | none => []
    let x := others.foldl (fun x who => x.queueAlarm d (msg who)) x
    let s := s.setDie d x
    let s := match fieldOfNum e.field with
      | some f => if fc then (s.containField f).forEach others fun s who => s.noteActed who r.key else s
      | none => s
    if r.sev = 3 then
      (if r.scope = 3 then s.forEach (s.pkgFields d.pkg) State.containField
       else match s.fieldOf d with
         | some f => s.containField f
         | none => s)
    else s

/-- The Watermaster reports an error: its record goes to the sink at once over the chain (R401, R406). -/
def State.wmReport (s : State) (e : Err) : State :=
  s.sinkTake (makeRec e 0 (s.tallyOf s.sink) false true)

/-- Contains every field that holds a die of a package (R323, R390). -/
def State.containPkg (s : State) (n : Fin 4) : State := s.forEach (s.pkgFields n) State.containField

end Sys2Proof.Machine
end

