-- ==== Sys2Proof/Machine/Mailbox.lean ====
section
/-! DEFINITION. Sys2Proof/Machine/Mailbox.lean: what every mailbox command shares: the response, ownership changes, the
checks of R261 in their order, the heartbeat of R268, and the scope a command holds or waits for (R259). -/

namespace Sys2Proof.Machine

/-! ### Responses -/

/-- Whether the die of host port `n` serves its mailbox: boot ROM or firmware runs (R262). -/
def State.portLive (s : State) (n : Fin 4) : Bool :=
  let b := (s.die ⟨s.span.num, n, 0⟩).boot.st
  b = .bootRom || b = .firmware

/-- The 16 bytes of a response header and the body (Table 10.6a). -/
def Resp.bytes (r : Resp) : List Byte :=
  le 2 r.opcode ++ le 1 r.version ++ [r.flags] ++ le 2 r.seq.toNat ++ le 2 r.body.length ++ le 8 r.status ++ r.body

/-- The response of a request: OPCODE, VERSION, FLAGS and SEQ echoed; the boot ROM answers with VERSION 1. -/
def respOf (r : MReq) (rom : Bool) (opcode status : Nat) (body : List Byte) : Resp :=
  { opcode := opcode, version := if rom then 1 else r.version, flags := r.flags, seq := r.seq, status := status,
    body := body }

/-- Whether a channel is waiting for the response to this request: BUSY with the request's SEQ captured. The response of a request
that came no later than the port's last reset is discarded (R253). -/
def Chan.awaits (c : Chan) (r : MReq) : Bool :=
  c.st = .busy && (match c.dropped with | some n => n < r.t | none => true) && (match c.captured with | some bs => fieldAt bs 4 2 = r.seq.toNat | none => false)

/-- The serving instance decides a request: its response goes to the port and channel of the request, or to the
Watermaster (R257, R267). -/
def State.reply (s : State) (r : MReq) (opcode status : Nat) (body : List Byte) : State :=
  if h : r.port.val < 4 then
    let n : Fin 4 := ⟨r.port.val, h⟩
    let c := s.chan n r.chan
    let rom : Bool := (s.die ⟨s.span.num, n, 0⟩).boot.st = .bootRom
    if c.awaits r then s.setChan n r.chan { c with decided := some (respOf r rom opcode status body) } else s
  else s.setWmReply (some (respOf r false opcode status body))

/-! ### Ownership (R266-R272) -/

/-- One millisecond, the claim window (R267). -/
def claimWindow : Nat := ms
/-- Lapse after the last heartbeat (R268). -/
def lapseAfter : Nat := 15 * sec

/-- A new token: non-zero and not the scope's last one, no value stated (R267; log entry 21). -/
def State.newToken (s : State) (old : Dword) : Dword :=
  let x := Config.tokenSeed s.free
  if x ≠ 0 ∧ x ≠ old then x else if old + 1 ≠ 0 then old + 1 else 1

/-- The I/O die package a requester's interrupts go to, none for the Watermaster (R189). -/
def targetOf (src : Fin 5) : Option (Fin 4) := if h : src.val < 4 then some ⟨src.val, h⟩ else none

/-- Raises the ownership vector 26 at an agent's port (Table 10.5a). -/
def State.ownEvent (s : State) (src : Fin 5) : State :=
  match targetOf src with
  | some p => s.raise p 26
  | none => s

/-- The interrupt target table's entry of a scope, rewritten (R189). -/
def State.aim (s : State) (n : Fin 9) (a : Option (Fin 4)) : State := s.setTargets (NMap.set s.targets n.val a)

/-- Vector 29 that a rollback owes the next tray owner, once; a tray the Watermaster owns leaves it undelivered (R14, R352). -/
def State.payFwVector (s : State) (src : Fin 5) : State :=
  if s.wm.fwVectorOwed then
    match targetOf src with
    | some p => (s.onWm fun w => { w with fwVectorOwed := false }).raise p 29
    | none => (s.onWm fun w => { w with fwVectorOwed := false }).undelivered 0 0 29
  else s

/-- A grant of a scope: new token, interrupt target table rewritten, vector 26 to the new owner; a new tray owner gets the
vector 29 a rollback owes it (R267, R270, R271, R352). -/
def State.grant (s : State) (n : Fin 9) (rid : Half) (src : Fin 5) : State :=
  let x := s.scope n
  let t := s.newToken x.token
  let s := s.spend.setScope n { x with owned := true, rid := rid, src := src, token := t, noLapse := false,
                                       beat := s.now, win := none, offer := none,
                                       seizedFrom := if x.seizedFrom = some (rid, src) then none else x.seizedFrom }
  let s := (s.aim n (targetOf src)).ownEvent src
  if n = 0 then s.payFwVector src else s

/-- A claim ends: the token is invalid, the scope vacant, a handover ends with it; `told` raises vector 26 at the former
owner's port (R268, R270). -/
def State.endClaim (s : State) (n : Fin 9) (told : Bool) : State :=
  let x := s.scope n
  if x.owned then
    let s := s.setScope n { x with owned := false, noLapse := false, offer := none, rid := 0, src := 0 }
    let s := s.aim n none
    if told then s.ownEvent x.src else s
  else s

/-- A claim lapses when more than 15 s pass without a heartbeat, unless no-lapse is set (R268). -/
def State.lapse (s : State) (n : Fin 9) : State :=
  let x := s.scope n
  if x.owned ∧ !x.noLapse ∧ x.beat + lapseAfter < s.now then s.endClaim n true else s

/-- A handover ends 1 s after the offer; an acceptance at that instant is still in time (R270). -/
def State.expireOffer (s : State) (n : Fin 9) : State :=
  match (s.scope n).offer with
  | some o => if o.since + sec < s.now then s.setScope n { s.scope n with offer := none } else s
  | none => s

/-- The owner ID of a requester: requester ID, source, a reserved byte (Table 10.6). -/
def ownerId (rid : Half) (src : Fin 5) : List Byte := le 2 rid.toNat ++ le 1 src.val ++ le 1 0

/-- The winner of a window: lowest requester ID, then lowest source; of equals, the first to arrive (R267). -/
def winner (l : List Claimant) : Option Claimant :=
  l.foldl (fun best c => match best with
    | none => some c
    | some b => if c.rid.toNat < b.rid.toNat ∨ (c.rid = b.rid ∧ c.src < b.src) then some c else best) none

/-- The opcode of OWN_CLAIM. -/
def opOwnClaim : Nat := 0x0201

/-- A claim window closes: the winner is granted the scope and answered its token, each other claimant E_OWN_BUSY with
the winner's owner ID (R267). -/
def State.closeWindow (s : State) (n : Fin 9) : State :=
  match (s.scope n).win with
  | none => s
  | some w =>
    match winner w.claims with
    | none => s.setScope n { s.scope n with win := none }
    | some c =>
      let s := s.grant n c.rid c.src
      let s := s.reply c.req opOwnClaim 0 (le 8 (s.scope n).token.toNat ++ ownerId c.rid c.src)
      s.forEach (w.claims.erase c) fun s o => s.reply o.req opOwnClaim eOwnBusy (le 8 0 ++ ownerId c.rid c.src)

/-- Whether a claim window is past its closing instant (R267). -/
def Scope.windowPast (x : Scope) (now : Nat) : Bool :=
  match x.win with | some w => w.opened + claimWindow < now | none => false

/-- What has come due for the scopes before a command is decided: windows closed, claims lapsed, offers expired. -/
def State.settleOwn (s : State) : State :=
  s.forEach (List.finRange 9) fun s n =>
    let s := if (s.scope n).windowPast s.now then s.closeWindow n else s
    (s.lapse n).expireOffer n

/-- A heartbeat for a scope (R268). -/
def State.beat (s : State) (n : Fin 9) : State := s.setScope n { s.scope n with beat := s.now }

/-- Any accepted command that carries a scope's token is a heartbeat for it (R268). -/
def State.tokenBeat (s : State) (token : Dword) : State :=
  s.forEach (List.finRange 9) fun s n =>
    if (s.scope n).owned ∧ (s.scope n).token = token then s.beat n else s

/-! ### The checks of R261 -/

/-- What Table 10.6 states of a command: opcode, body length, level, owner, the scope it acts on (none for a query), and
whether it needs the Watermaster. -/
structure Cmd where
  opcode : Nat
  len : Nat
  expert : Bool := false
  need : Need := .anyone
  acts : Option (Fin 9) := none
  wm : Bool := false
deriving DecidableEq, Repr

/-- Opcodes of Table 10.6 with their body lengths; DBG_WRITE's is that of its operands and data. -/
def opcodeTable : NMap Nat :=
  [(0x0101, 0), (0x0102, 4), (0x0103, 0), (0x0104, 4), (0x0201, 4), (0x0202, 4), (0x0203, 4), (0x0204, 8), (0x0205, 4),
   (0x0206, 0), (0x0207, 4), (0x0208, 4), (0x0209, 4)] ++
  [(0x0301, 40), (0x0302, 40), (0x0303, 4), (0x0304, 4), (0x0305, 4), (0x0306, 4), (0x0401, 16), (0x0402, 4),
   (0x0403, 0), (0x0404, 4), (0x0405, 4), (0x0406, 4), (0x0407, 0)] ++
  [(0x0501, 4), (0x0502, 8), (0x0503, 4), (0x0504, 8), (0x0505, 4), (0x0506, 12), (0x0507, 44), (0x0508, 28),
   (0x0509, 8), (0x050A, 4), (0x050B, 4), (0x050C, 0)] ++
  [(0x0601, 0), (0x0602, 20), (0x0603, 4), (0x0604, 4), (0x0605, 4), (0x0606, 4), (0x0701, 4), (0x0702, 4),
   (0x0801, 4), (0x0802, 8), (0x0803, 8), (0x0804, 12), (0x0805, 12)] ++
  [(0x0901, 0), (0x0902, 16), (0x0903, 0), (0x0904, 0), (0x0905, 0), (0x0A01, 20), (0x0A02, 4), (0x0A03, 8),
   (0x0A04, 4)]

/-- Whether a version serves an opcode (Table 10.7). -/
def opcodeServed (version opcode : Nat) : Bool :=
  if version = 1 then 0x0101 ≤ opcode && opcode ≤ 0x0103 else opcodeTable.any (·.1 = opcode)

/-- Whether the tray has been declared ready or degraded (R377). -/
def State.isReady (s : State) : Bool := s.tray ≠ .bringUp

/-- The checks of R261 that the header alone decides, in their order. -/
def State.headCheck (s : State) (opcode : Nat) (len : Nat) (r : MReq) : Option Nat :=
  if r.version ≠ 1 ∧ r.version ≠ 2 then some eArgVersion
  else if r.version = 2 ∧ !s.isReady then some eNotReady
  else if !opcodeServed r.version opcode then some eArgOpcode
  else if opcode / 256 = 4 ∧ r.chan = 0 then some eArgChannel
  else if r.length ≠ len then some eArgLength
  else if r.rsvd ≠ 0 ∨ r.flags.toNat / 2 ≠ 0 ∨ (r.version = 1 ∧ (r.flags ≠ 0 ∨ r.token ≠ 0)) then some eArgReserved
  else none

/-- The checks of R261 before the range check, in their order; v1 has no level and no owner (Table 10.7). -/
def State.checks (s : State) (r : MReq) (c : Cmd) : Option Nat :=
  match s.headCheck c.opcode c.len r with
  | some e => some e
  | none =>
    if c.expert ∧ (r.flags.toNat % 2 = 0 ∨ !s.expertOk r c.need) then some eOwnLevel
    else s.ownerCheck r c.need

/-- Whether a longer command holds scope `n`: a command in progress, an open claim window, or one already waiting
(R259). A claim does not wait for the window it joins. -/
def State.scopeHeld (s : State) (n : Fin 9) (claim : Bool) : Bool :=
  (match chanField n with
   | some f => (s.field f).holder.isSome
   | none => s.trayHolder.isSome) ||
  (!claim && (s.scope n).win.isSome) || s.waiting.any (·.scope = n)

/-- Whether a plan command waits for its field: a load or unload for a switch to complete (09, When things coincide), a
load for a span that forms (01, When things coincide), an activation or reload for a drain or flush (log entry 43). -/
def State.planWaits (s : State) (n : Fin 9) (opcode : Nat) : Bool :=
  match chanField n with
  | some f =>
    let x := s.field f
    ((opcode = 0x0401 || opcode = 0x0402) && x.switch.isSome)
      || (opcode = 0x0401 && s.span.forming.isSome)
      || ((opcode = 0x0403 || opcode = 0x0404) && x.run.isNone && (x.drain.isSome || x.flush.isSome))
  | none => false

/-- The requester a scope was seized from has had its E_OWN_TOKEN (R271). -/
def State.forgetSeized (s : State) (r : MReq) (n : Need) : State :=
  s.forEach n.scopes fun s k =>
    if (s.scope k).seizedFrom = some (r.rid, r.port) then s.setScope k { s.scope k with seizedFrom := none } else s

/-- Serves a mailbox request: the clock moves to its arrival; nothing takes it where the port's die runs nothing; the
checks of R261; `early`, the statuses Table 11.5 gives at once; the heartbeat of R268; then it waits for a held scope or
for the Watermaster, or `body` decides it (R258, R259, R261). `self` is the command as it waits. -/
def State.serve (s : State) (r : MReq) (c : Cmd) (self : Instr) (early : State → Option Nat) (body : State → State) :
    State :=
  let again := s.resumed
  let s := (s.setResumed false).clock r.t
  if r.port.val < 4 ∧ !s.portLive (Fin.ofNat 4 r.port.val) then s
  else
    let s := s.settleOwn
    match s.checks r c with
    | some e => (if e = eOwnToken then s.forgetSeized r c.need else s).reply r c.opcode e []
    | none =>
      match early s with
      | some e => s.reply r c.opcode e []
      | none =>
        let s := s.tokenBeat r.token
        let held : Bool := match c.acts with
          | some n => !again && (s.scopeHeld n (c.opcode = opOwnClaim) || s.planWaits n c.opcode)
          | none => false
        if held || (c.wm && !s.wmFor c.opcode) then
          let w : Held := ⟨c.acts.getD 0, c.wm && !s.wmFor c.opcode, c.opcode, r, self⟩
          s.setWaiting (s.waiting ++ [w])
        else body s

/-- No status at once. -/
def noEarly (_ : State) : Option Nat := none

/-- A command that holds a field's scope until it completes (R259). -/
def State.holdField (s : State) (f : Fin 8) (r : MReq) (opcode : Nat) : State :=
  s.onField f fun x => { x with holder := some { req := r, opcode := opcode } }

/-- The command holding a field's scope completes. -/
def State.finishField (s : State) (f : Fin 8) (status : Nat) (body : List Byte) : State :=
  match (s.field f).holder with
  | some w => (s.onField f fun x => { x with holder := none }).reply w.req w.opcode status body
  | none => s

/-- The command holding the tray's scope completes. -/
def State.finishTray (s : State) (status : Nat) (body : List Byte) : State :=
  match s.trayHolder with
  | some w => (s.setTrayHolder none).reply w.req w.opcode status body
  | none => s

/-- Whether a waiting command may be decided: no command holds its scope, and the Watermaster is there if it needs it. -/
def State.mayRun (s : State) (w : Held) : Bool :=
  (match chanField w.scope with
   | some f => (s.field f).holder.isNone
   | none => s.trayHolder.isNone) && (s.scope w.scope).win.isNone && (!w.wm || s.wmFor w.opcode) && !s.planWaits w.scope w.opcode

/-- The first waiting command that may be decided, with the state it is decided in; an earlier command on the same scope
goes first (R259). -/
def nextHeld (s : State) : List (Fin 9) → List Held → List Held → Option (Instr × State)
  | _, _, [] => none
  | seen, before, w :: rest =>
    if s.mayRun w ∧ !seen.contains w.scope then
      some (w.cmd, ((s.setWaiting (before.reverse ++ rest)).setResumed true))
    else nextHeld s (w.scope :: seen) (w :: before) rest

/-- What an empty queue leaves to do: a waiting command that may now be decided, if there is one (log entry 8). -/
def State.nextWaiting (s : State) : Option (Instr × State) := nextHeld s [] [] s.waiting

/-- The span's or tray's serving instance moves: commands not yet decided, waiting ones and claims of an open window
included, are answered E_SERVER_MOVED; decided ones complete on the new instance (R258). -/
def State.moveServing (s : State) (inst : Option (Fin 4)) : State :=
  let inProgress : List MReq := (s.trayHolder.toList ++ allFields.flatMap fun f => (s.field f).holder.toList).map (·.req)
  let s := s.forEach s.waiting fun s w => s.reply w.req w.opcode eServerMoved []
  let s := (s.setWaiting []).setServing inst
  let s := s.forEach (List.finRange 9) fun s n =>
    let claims := match (s.scope n).win with | some w => w.claims | none => []
    (s.forEach claims fun s c => s.reply c.req opOwnClaim eServerMoved []).setScope n { s.scope n with win := none }
  s.forEach (allPkgs.flatMap fun p => (List.finRange 9).map fun k => (p, k)) fun s pk =>
    let c := s.chan pk.1 pk.2
    let mine : Bool := inProgress.any fun r => r.port.val = pk.1.val && r.chan = pk.2 && c.awaits r
    if c.st = .busy ∧ c.decided.isNone ∧ !mine then
      match c.captured with
      | some bs =>
        let r : Resp := { opcode := fieldAt bs 0 2, version := fieldAt bs 2 1, flags := BitVec.ofNat 8 (fieldAt bs 3 1),
                          seq := BitVec.ofNat 16 (fieldAt bs 4 2), status := eServerMoved, body := [] }
        s.setChan pk.1 pk.2 { c with decided := some r }
      | none => s
    else s

end Sys2Proof.Machine
end

