-- ==== Sys2Proof/Machine/Ready.lean ====
section
/-! DEFINITION. Sys2Proof/Machine/Ready.lean: the criteria of ready and degraded, the exceptions, and a package's phase
(R377, R379, R380, Tables 15.4, 15.5). -/

namespace Sys2Proof.Machine

/-- Whether a port's link has come UP; one in Dry has. -/
def State.linkUp (s : State) (p : PortId) : Bool := (s.port p).link.st = .up || (s.port p).link.st = .dry

/-- Ports of a package on Bridge links. -/
def bridgePorts (tray pkg : Fin 4) : List PortId := (packageDies tray pkg).flatMap fun d =>
  (diePorts d).filter fun p => p.die.slot = 0 || p.port = 4

/-- Ports of a package on Furrow and tray Culvert links. -/
def edgePorts (tray pkg : Fin 4) : List PortId := (computeDies tray pkg).flatMap fun d =>
  (diePorts d).filter fun p => p.port ≠ 4 && (wired p).isSome

/-- Ports of a package at a cage that holds a module. -/
def State.cagePorts (s : State) (n : Fin 4) : List PortId := (computeDies s.span.num n).flatMap fun d =>
  (diePorts d).filter fun p => (cageOf p).isSome && (s.port p).link.cable.isSome

/-- Whether the Steward of a die's package holds three consecutive samples of it (R379). -/
def State.sampled (s : State) (d : DieId) : Bool := 3 ≤ (s.die d).pow.samples

/-- Whether a compute die's HBM is trained and scrubbed. -/
def State.hbmReady (s : State) (d : DieId) : Bool := (s.die d).boot.hbmTrained && (s.die d).boot.hbmScrubbed

/-- Whether a package meets every criterion of R379 that applies to it and its own links. -/
def State.meets (s : State) (n : Fin 4) : Bool :=
  let dies := packageDies s.span.num n
  (s.pkg n).st = .on && (s.pkg n).placed && dies.all s.runs && (computeDies s.span.num n).all s.hbmReady
    && (bridgePorts s.span.num n ++ edgePorts s.span.num n ++ s.cagePorts n).all (fun p => s.linkUp p && (s.port p).link.inLedger)
    && dies.all (fun d => (s.die d).tally.st = .agreed) && dies.all s.sampled

/-- Whether every criterion of R379 holds; the tray stays degraded while TRAY_FATAL is set (R391). -/
def State.readyNow (s : State) : Bool := allPkgs.all s.meets && !s.trouble.summary.getLsbD 0

/-- Whether a package is held in an exception as a whole (Table 15.5); one shut down by heat is held as well (log entry 49). -/
def PkgSt.held (x : PkgSt) : Bool :=
  match x with
  | .faulted => true
  | .heldOff => true
  | .unplaced => true
  | .unreachable => true
  | .shutDown => true
  | _ => false

/-- Whether a die is out of the start by its package or by FW_LOAD_FAIL (Table 15.5). -/
def State.dieOut (s : State) (d : DieId) : Bool := (s.pkg d.pkg).st.held || (s.die d).boot.loadFailed

/-- Whether a link has met its criteria or is held in an exception: FAILED, or an end that cannot train it (R380). -/
def State.linkSettled (s : State) (p : PortId) : Bool :=
  let out := fun (d : DieId) => s.dieOut d || (profileOf p ≠ 0 && (s.die d).boot.hbmFailed) || (s.die (ioOf d)).boot.loadFailed
  s.linkUp p || (s.port p).link.st = .failed || (s.port p).link.disabled || out p.die ||
    (match wired p with | some q => (s.port q).link.st = .failed || out q.die | none => false)

/-- Whether a package and its links have met their criteria or are held in an exception (R380). -/
def State.settledPkg (s : State) (n : Fin 4) : Bool :=
  let k := s.pkg n
  k.st.held || (k.st = .on &&
    (packageDies s.span.num n).all (fun d =>
      s.dieOut d || (s.die (ioOf d)).boot.loadFailed ||
        (s.runs d && (!d.isCompute || s.hbmReady d || (s.die d).boot.hbmFailed) && s.sampled d &&
          ((s.die d).tally.st = .agreed || (s.die d).tally.st = .fault || (diePorts d).any fun p => !s.linkUp p)))
    && (bridgePorts s.span.num n ++ edgePorts s.span.num n ++ s.cagePorts n).all s.linkSettled)

/-- Whether bring-up has settled with an exception and a package meets its criteria (R380); after the first declaration, whether
the tray is not ready (R381). -/
def State.degradedNow (s : State) : Bool :=
  !s.readyNow && (s.tray ≠ .bringUp || (allPkgs.all s.settledPkg && allPkgs.any s.meets))

/-- PHASE of a package's boot status (Table 15.4): the first item its start has not met; 7 settled. -/
def State.phase (s : State) (n : Fin 4) : Nat :=
  let x := (s.die ⟨s.span.num, n, 0⟩).boot
  if s.settledPkg n ∨ s.meets n then 7
  else if x.st ≠ .firmware then (if x.comps = 0 then 0 else 1)
  else if !(bridgePorts s.span.num n).all s.linkSettled then 2
  else if !(computeDies s.span.num n).all (fun d => s.hbmReady d || (s.die d).boot.hbmFailed || (s.die d).boot.loadFailed) then 3
  else if !(edgePorts s.span.num n ++ s.cagePorts n).all s.linkSettled then 4
  else if !(packageDies s.span.num n).all (fun d => (s.die d).tally.st = .agreed) then 5
  else 6

end Sys2Proof.Machine
end

