-- ==== Sys2Proof/Machine/Identity.lean ====
section
/-! DEFINITION. Sys2Proof/Machine/Identity.lean: ID_TRAY, ID_DIE, STATUS and PLACEMENT (Table 10.6, Table 10.7), and the
register views of the same values (Tables 15.4, 18.3, 18.6, 18.7). -/

namespace Sys2Proof.Machine

/-- Package state codes (Table 13.3). -/
def PkgSt.code : PkgSt → Nat
  | .off => 0
  | .poweringUp => 1
  | .on => 2
  | .poweringDown => 3
  | .faulted => 4
  | .shutDown => 5
  | .unreachable => 6
  | .heldOff => 7
  | .unplaced => 8

/-- Tray state codes (R377). -/
def TraySt.code : TraySt → Nat
  | .bringUp => 0
  | .ready => 1
  | .degraded => 2

/-- Tally state codes (Table 18.3). -/
def TallySt.code : TallySt → Nat
  | .unsynced => 0
  | .agreed => 1
  | .fault => 2
  | .holdover => 3

/-- A mask with the bits of a list of positions. -/
def maskOf (l : List Nat) : Nat := (l.eraseDups.map (2 ^ ·)).foldl (· + ·) 0

/-- The placed-die mask: bit a - 0x10 for each die of a placed package (Table 10.6). -/
def State.placedMask (s : State) : Nat :=
  maskOf ((allPkgs.filter fun n => (s.pkg n).placed).flatMap fun n => (packageDies s.span.num n).map fun d => d.addr - 0x10)

/-- The 16 bytes of boot status of package `n` (Table 15.4). -/
def State.bootStat (s : State) (n : Fin 4) : List Byte :=
  le 1 s.tray.code ++ le 1 (s.phase n) ++ le 1 (s.pkg n).bootsrc ++ le 1 s.wm.failedBringups
    ++ le 2 (s.pkg n).lastStatus
    ++ le 1 (maskOf ((allPkgs.filter fun k => (s.pkg k).st = .on).map (·.val))
        + 16 * maskOf ((allPkgs.filter fun k => (s.pkg k).placed).map (·.val)))
    ++ le 1 0 ++ le 8 s.bundle.toNat

/-- The serving I/O die (R258). -/
def State.server (s : State) : DieId := match s.serving with
  | some n => ⟨s.span.num, n, 0⟩
  | none => s.sink

/-- The I/O die of the port a request came through; the serving one for the Watermaster. -/
def State.portDie (s : State) (r : MReq) : DieId :=
  if h : r.port.val < 4 then ⟨s.span.num, ⟨r.port.val, h⟩, 0⟩ else s.server

/-- ID_TRAY: v2 the tray, v1 the identity record of the port's own I/O die (Tables 10.6, 10.7). -/
def execIdTray (r : MReq) (s : State) : Out :=
  .next (s.serve r { opcode := 0x0101, len := 0 } (.idTray r) noEarly fun s =>
    s.reply r 0x0101 0 (if r.version = 1 then (s.die (s.portDie r)).ident.bytes
      else le 8 s.serial.toNat ++ le 8 s.bundle.toNat ++ le 1 s.span.num.val ++ le 1 s.trays.length
        ++ le 1 s.tray.code ++ le 1 0 ++ le 4 s.placedMask ++ le 8 0))

/-- ID_DIE: the identity record and die state of a die; v1 accepts the port's own address alone (Tables 10.6, 10.7).
The codes of the die state are not stated: a free value (log entry 22). -/
def execIdDie (r : MReq) (tray die : Nat) (s : State) : Out :=
  .next (s.serve r { opcode := 0x0102, len := 4 } (.idDie r tray die) noEarly fun s =>
    match s.dieRef tray die with
    | some d =>
      if r.version = 1 ∧ d ≠ s.portDie r then s.reply r 0x0102 eArgRange []
      else (s.spend).reply r 0x0102 0 ((s.die d).ident.bytes ++ le 4 (Config.dieState s.free).toNat)
    | none => s.reply r 0x0102 eArgRange [])

/-- STATUS: package and field states and rungs, trouble summary, the serving die's tally; v1 the boot status (Tables 10.6,
10.7, 15.4). F0 has no state and no rung: its bytes are 0 (log entry 9). -/
def execStatus (r : MReq) (s : State) : Out :=
  .next (s.serve r { opcode := 0x0103, len := 0 } (.status r) noEarly fun s =>
    s.reply r 0x0103 0 (if r.version = 1 then s.bootStat (s.portDie r).pkg
      else (allPkgs.flatMap fun n => le 1 (s.pkg n).st.code)
        ++ le 1 0 ++ (allFields.flatMap fun f => le 1 (s.field f).st.code)
        ++ le 1 0 ++ (allFields.flatMap fun f => le 1 (s.field f).rung)
        ++ le 2 0 ++ le 8 s.trouble.summary.toNat ++ le 8 (s.tallyOf s.server) ++ le 32 0))

/-- PLACEMENT: the placement record of a package, or E_PKG_UNPLACED (R210, Table 10.6). -/
def execPlacement (r : MReq) (pkg : Nat) (s : State) : Out :=
  .next (s.serve r { opcode := 0x0104, len := 4 } (.placement r pkg) noEarly fun s =>
    match pkgOf pkg with
    | none => s.reply r 0x0104 eArgRange []
    | some n =>
      if (s.pkg n).placed then s.reply r 0x0104 0 (s.die ⟨s.span.num, n, 0⟩).place.bytes
      else s.reply r 0x0104 ePkgUnplaced [])

/-! ### Register views -/

/-- Whether an I/O die holds the serving instance: in a span, only where this tray leads (R258). -/
def State.servesAt (s : State) (n : Fin 4) : Bool := s.serving = some n && (s.leader.lead || s.trays.length ≤ 1)

/-- IDS_POS (Table 18.3). -/
def State.idsPos (s : State) (n : Fin 4) : Nat :=
  n.val + 4 * s.span.num.val + 16 * (s.trays.length - 1) + (if s.servesAt n then 64 else 0)

/-- IDS_TALLYST of a port's I/O die (Table 18.3). -/
def State.idsTallySt (s : State) (n : Fin 4) : Nat :=
  let y := (s.die ⟨s.span.num, n, 0⟩).tally
  y.st.code + 256 * y.depth + 65536 * (BitVec.ofInt 16 y.rootOfs).toNat

/-- IDS_MBXVER: v2 is served from ready (Tables 10.7, 18.3). -/
def State.idsMbxVer (s : State) : Nat := 1 + (if s.isReady then 2 else 0)

/-- OWN_SCOPE[s] (Table 18.5). -/
def Scope.reg (x : Scope) : Nat :=
  x.rid.toNat + 65536 * x.src.val + (if x.owned then 0x80000 else 0) + (if x.noLapse then 0x100000 else 0)
    + (if x.expert then 0x200000 else 0)
    + (match x.offer with
       | some o => 0x400000 + 0x100000000 * o.rid.toNat + 0x1000000000000 * o.src
       | none => 0)

/-- The 64 bytes of LVE_FIELD (Table 18.6). -/
def State.lveField (s : State) (f : Fin 8) : List Byte :=
  let x := s.field f
  if !x.live then le 64 0
  else
    le 4 (x.st.code + 256 * x.dies.length + (if x.touched then 0x10000 else 0) + (if x.read then 0x20000 else 0)
      + (if x.traced then 0x40000 else 0) + (if x.frozen then 0x80000 else 0) + (if x.split then 0x100000 else 0))
    ++ le 4 0 ++ le 4 (x.w / 0x4000000) ++ le 4 (x.h / 0x4000000) ++ le 8 (f.val * 0x2000000000)
    ++ le 8 (x.dies.length * x.h) ++ le 4 x.hold ++ le 4 0
    ++ le 8 (match x.active with | some p => p.id.toNat | none => 0)
    ++ le 8 (match x.staged with | some p => p.id.toNat | none => 0) ++ le 8 0

/-- LVE_DIE of a die (Table 18.7). -/
def State.lveDie (s : State) (d : DieId) : Nat :=
  (match s.fieldOf d with
   | some f => fnum f + 16 * ((s.field f).dies.findIdx (· = d))
   | none => 0)
  + (if d.tray = s.span.num ∧ (s.pkg d.pkg).placed then 0x400 else 0)
  + (if d.tray = s.span.num ∧ (s.pkg d.pkg).st = .on then 0x800 else 0)

/-- TRB_TRAYHEAD (Table 18.7). -/
def Trouble.head (t : Trouble) : Nat := t.records.length + (if t.ovf then 256 else 0) + 65536 * t.ovfCount

end Sys2Proof.Machine
end

