-- ==== Sys2Proof/Machine/Ownership.lean ====
section
/-! DEFINITION. Sys2Proof/Machine/Ownership.lean: the ownership commands 0x0201-0x0209, OWN_BEAT and the ownership timers
(R265-R272). -/

namespace Sys2Proof.Machine

/-- Whether a scope exists: the tray's always, a field's while the field does (R267). -/
def State.scopeExists (s : State) (n : Fin 9) : Bool := match chanField n with | some f => (s.field f).live | none => true

/-- OWN_CLAIM: an owned scope answers E_OWN_BUSY with its owner; a field must exist; a vacant scope opens a claim window
or joins the open one (R267). -/
def execOwnClaim (r : MReq) (scope : Nat) (s : State) : Out :=
  .next (s.serve r { opcode := opOwnClaim, len := 4, acts := scopeOf scope } (.ownClaim r scope) noEarly fun s =>
    match scopeOf scope with
    | none => s.reply r opOwnClaim eArgRange []
    | some n =>
      let x := s.scope n
      if !s.scopeExists n then s.reply r opOwnClaim eFieldState []
      else if x.owned then s.reply r opOwnClaim eOwnBusy (le 8 0 ++ ownerId x.rid x.src)
      else
        let c : Claimant := { req := r, rid := r.rid, src := r.port }
        match x.win with
        | some w => s.setScope n { x with win := some { w with claims := w.claims ++ [c] } }
        | none => s.setScope n { x with win := some { opened := s.now, claims := [c] } })

/-- The claim window of a scope closes 1 ms after the claim that opened it (R267). -/
def execOwnClaimWindowClose (scope : Fin 9) (t : Nat) (s : State) : Out :=
  let s := s.clock t
  match (s.scope scope).win with
  | some w => if w.opened + claimWindow ≤ s.now then .next (s.closeWindow scope) else .next s
  | none => .next s

/-- OWN_RELEASE: the claim ends by its owner's act (R268, R269). -/
def execOwnRelease (r : MReq) (scope : Nat) (s : State) : Out :=
  .next (s.serve r { opcode := 0x0202, len := 4, need := .scope (scopeOf scope), acts := scopeOf scope }
    (.ownRelease r scope) noEarly fun s =>
    match scopeOf scope with
    | none => s.reply r 0x0202 eArgRange []
    | some n => (s.endClaim n false).reply r 0x0202 0 [])

/-- OWN_HEARTBEAT (R268). -/
def execOwnHeartbeat (r : MReq) (scope : Nat) (s : State) : Out :=
  .next (s.serve r { opcode := 0x0203, len := 4, need := .scope (scopeOf scope), acts := scopeOf scope }
    (.ownHeartbeat r scope) noEarly fun s =>
    match scopeOf scope with
    | none => s.reply r 0x0203 eArgRange []
    | some n => (s.beat n).reply r 0x0203 0 [])

/-- OWN_HANDOVER: the named successor is offered the scope through vector 26; E_ARG_RANGE if it is the owner or no agent
(R270). -/
def execOwnHandover (r : MReq) (scope : Nat) (succRid : Half) (succSrc : Nat) (s : State) : Out :=
  .next (s.serve r { opcode := 0x0204, len := 8, need := .scope (scopeOf scope), acts := scopeOf scope }
    (.ownHandover r scope succRid succSrc) noEarly fun s =>
    match scopeOf scope with
    | none => s.reply r 0x0204 eArgRange []
    | some n =>
      let x := s.scope n
      if 4 < succSrc ∨ (succRid = x.rid ∧ succSrc = x.src.val) then s.reply r 0x0204 eArgRange []
      else
        let s := s.setScope n { x with offer := some { rid := succRid, src := succSrc, since := s.now } }
        (s.ownEvent (Fin.ofNat 5 succSrc)).reply r 0x0204 0 [])

/-- OWN_ACCEPT: the named successor, within 1 s, takes the scope with a new token, and the old owner is told of its loss by vector 26;
otherwise E_OWN_HANDOVER (R270, Table 10.5a). -/
def execOwnAccept (r : MReq) (scope : Nat) (s : State) : Out :=
  .next (s.serve r { opcode := 0x0205, len := 4, acts := scopeOf scope } (.ownAccept r scope) noEarly fun s =>
    match scopeOf scope with
    | none => s.reply r 0x0205 eArgRange []
    | some n =>
      match (s.scope n).offer with
      | some o =>
        if o.rid = r.rid ∧ o.src = r.port.val then
          let s := (s.ownEvent (s.scope n).src).grant n r.rid r.port
          s.reply r 0x0205 0 (le 8 (s.scope n).token.toNat)
        else s.reply r 0x0205 eOwnHandover []
      | none => s.reply r 0x0205 eOwnHandover [])

/-- A handover ends 1 s after its offer (R270). -/
def execHandoverExpiry (scope : Fin 9) (t : Nat) (s : State) : Out := .next ((s.clock t).expireOffer scope)

/-- OWN_QUERY: the nine OWN_SCOPE values (Table 18.5). -/
def execOwnQuery (r : MReq) (s : State) : Out :=
  .next (s.serve r { opcode := 0x0206, len := 0 } (.ownQuery r) noEarly fun s =>
    s.reply r 0x0206 0 ((List.finRange 9).flatMap fun n => le 8 (s.scope n).reg))

/-- OWN_NOLAPSE: the owner exempts the scope from lapse, or ends the exemption (R272). -/
def execOwnNolapse (r : MReq) (scope : Nat) (set : Nat) (s : State) : Out :=
  .next (s.serve r { opcode := 0x0207, len := 4, expert := true, need := .scope (scopeOf scope), acts := scopeOf scope }
    (.ownNolapse r scope set) noEarly fun s =>
    match scopeOf scope with
    | none => s.reply r 0x0207 eArgRange []
    | some n =>
      if 1 < set then s.reply r 0x0207 eArgRange []
      else (s.setScope n { s.scope n with noLapse := set = 1 }).reply r 0x0207 0 [])

/-- OWN_SEIZE: takes a scope from any holder, or a vacant one, without a window; the former owner is told through vector
26 and its next command answers E_OWN_TOKEN. A field must exist (R267, R271). -/
def execOwnSeize (r : MReq) (scope : Nat) (s : State) : Out :=
  .next (s.serve r { opcode := 0x0208, len := 4, expert := true, need := .seize (scopeOf scope), acts := scopeOf scope }
    (.ownSeize r scope) noEarly fun s =>
    match scopeOf scope with
    | none => s.reply r 0x0208 eArgRange []
    | some n =>
      if !s.scopeExists n then s.reply r 0x0208 eFieldState []
      else
        let x := s.scope n
        let s := if x.owned ∧ (x.rid, x.src) ≠ (r.rid, r.port) then
            (s.setScope n { x with seizedFrom := some (x.rid, x.src) }).ownEvent x.src
          else s
        let s := s.grant n r.rid r.port
        s.reply r 0x0208 0 (le 8 (s.scope n).token.toNat))

/-- OWN_EXPERT: enables or disables the field owner's expert permission; E_FIELD_STATE where the field does not exist
(R265). -/
def execOwnExpert (r : MReq) (field enable : Nat) (s : State) : Out :=
  .next (s.serve r { opcode := 0x0209, len := 4, need := .tray, acts := fieldScope field } (.ownExpert r field enable)
    noEarly fun s =>
    match fieldOfNum field with
    | none => s.reply r 0x0209 eArgRange []
    | some f =>
      if 1 < enable then s.reply r 0x0209 eArgRange []
      else if !(s.field f).live then s.reply r 0x0209 eFieldState []
      else (s.setScope (fscope f) { s.scope (fscope f) with expert := enable = 1 }).reply r 0x0209 0 [])

/-- OWN_BEAT: a heartbeat for each scope whose bit is written and whose owner is the writer (R266, R268). Until ready the
OWN block ignores writes (R252). -/
def execOwnBeatWrite (port : Fin 4) (rid : Half) (bits : Half) (t : Nat) (s : State) : Out :=
  let s := (s.clock t).settleOwn
  if !s.portLive port ∨ !s.isReady ∨ (s.host port).d3 then .next s
  else
    .next (s.forEach (List.finRange 9) fun s n =>
      let x := s.scope n
      if bits.getLsbD n.val ∧ x.owned ∧ x.rid = rid ∧ x.src.val = port.val then s.beat n else s)

/-- The claim on a scope lapses once more than 15 s have passed without a heartbeat (R268). -/
def execOwnerLapse (scope : Fin 9) (t : Nat) (s : State) : Out := .next ((s.clock t).lapse scope)

end Sys2Proof.Machine
end

