-- ==== Sys2Proof/Machine/HostPort.lean ====
section
/-! DEFINITION. Sys2Proof/Machine/HostPort.lean: the host port: mailbox channels (R256, R257), doorbells and launch rings
(R251, R254, R427), BAR4 (R251, R278), IDS_TALLY (R425), TRB_SUMMARY writes (R402) and port events (R249, R253). -/

namespace Sys2Proof.Machine

/-! ### Channels -/

/-- Whether a BAR0 access to channel `k` of port `n` is live: the port's die runs, the port is in D0, and before ready
only channel M (R249, R252). -/
def State.chanLive (s : State) (n : Fin 4) (k : Fin 9) : Bool :=
  s.portLive n && !(s.host n).d3 && (s.isReady || k = 0)

/-- One second, the bound on an idle lock (R256). -/
def lockBound : Nat := sec

/-- The channel released: lock free, IDLE (R256). The last command and its response stay for R257. -/
def Chan.release (c : Chan) : Chan :=
  { c with held := false, holder := 0, submitted := false, st := .idle, captured := none, decided := none }

/-- DBI_MBX_LOCK (Table 18.4). -/
def Chan.lockReg (c : Chan) (rid : Half) : Nat :=
  c.holder.toNat + (if c.held then 0x10000 else 0) + (if c.held ∧ c.holder = rid then 0x80000000 else 0)

/-- DBI_MBX_LOCK read: grants a free channel to the reader (R256). -/
def execDbiMbxLockRead (port : Fin 4) (k : Fin 9) (rid : Half) (t : Nat) (s : State) : Out :=
  let s := s.clock t
  if s.portLive port = false ∨ (s.host port).d3 then
    .next (s.onHost port fun h => { h with last := { ur := true } })
  else if !s.chanLive port k then .next (s.onHost port fun h => { h with last := { data := le 4 0 } })
  else
    let c := s.chan port k
    let c := if c.held then c else { c with held := true, holder := rid, lockedAt := s.now, submitted := false }
    .next ((s.setChan port k c).onHost port fun h => { h with last := { data := le 4 (c.lockReg rid) } })

/-- The request the port copies at a submit: header and LENGTH bytes of body (R257, R260). -/
def Chan.request (c : Chan) : List Byte :=
  Memory.read c.req 0 (16 + min 4080 (fieldAt (Memory.read c.req 0 16) 6 2))

/-- The header of a captured request as the checks of R261 see it; the bytes of the body are checked with the command. -/
def headOf (n : Fin 4) (k : Fin 9) (rid : Half) (bs : List Byte) (t : Nat) : MReq :=
  { port := ⟨n.val, by omega⟩, rid := rid, chan := k, version := fieldAt bs 2 1,
    flags := BitVec.ofNat 8 (fieldAt bs 3 1), seq := BitVec.ofNat 16 (fieldAt bs 4 2), length := fieldAt bs 6 2,
    token := BitVec.ofNat 64 (fieldAt bs 8 8), rsvd := 0, t := t }

/-- Body length a request's opcode defines; DBG_WRITE carries its length operand's bytes after its operands. -/
def bodyLen (opcode : Nat) (body : List Byte) : Nat :=
  if opcode = 0x0805 then 12 + fieldAt body 8 2 else NMap.get opcodeTable opcode 0

/-- Submit: the holder's request is copied and the channel is BUSY; an identical repeat of the last completed command is
answered from its response; a request its header refuses is answered at once; otherwise the command travels to the
serving instance (R256, R257, R261). -/
def execMbxSubmit (port : Fin 4) (k : Fin 9) (rid : Half) (t : Nat) (s : State) : Out :=
  let s := s.clock t
  let c := s.chan port k
  if !s.chanLive port k ∨ !c.held ∨ c.holder ≠ rid ∨ c.st = .busy then .next s
  else
    let bs := c.request
    let c := { c with st := .busy, submitted := true, captured := some bs, decided := none }
    match c.last with
    | some (old, r) =>
      if old = bs then .next (s.setChan port k { c with decided := some r })
      else
        let s := s.setChan port k c
        let m := headOf port k rid bs t
        match s.headCheck (fieldAt bs 0 2) (bodyLen (fieldAt bs 0 2) (bs.drop 16)) m with
        | some e => .next (s.reply m (fieldAt bs 0 2) e [])
        | none => .next s
    | none =>
      let s := s.setChan port k c
      let m := headOf port k rid bs t
      match s.headCheck (fieldAt bs 0 2) (bodyLen (fieldAt bs 0 2) (bs.drop 16)) m with
      | some e => .next (s.reply m (fieldAt bs 0 2) e [])
      | none => .next s

/-- Release by the holder, ignored while BUSY (R256). -/
def execMbxRelease (port : Fin 4) (k : Fin 9) (rid : Half) (t : Nat) (s : State) : Out :=
  let s := s.clock t
  let c := s.chan port k
  if !s.chanLive port k ∨ !c.held ∨ c.holder ≠ rid ∨ c.st = .busy then .next s
  else .next (s.setChan port k c.release)

/-- The port writes the decided response into the buffer, sets DONE, then raises the channel's vector (R257, R424). -/
def execMbxResponsePosted (port : Fin 4) (k : Fin 9) (t : Nat) (s : State) : Out :=
  let s := s.clock t
  let c := s.chan port k
  match c.st, c.decided with
  | .busy, some r =>
    let c := { c with resp := Memory.write [] 0 r.bytes, st := .done, doneAt := s.now, decided := none,
                      last := c.captured.map fun bs => (bs, r) }
    .next ((s.setChan port k c).raise port k.val)
  | _, _ => .next s

/-- A lock without a submit ends 1 s after acquisition (R256). -/
def execMbxLockSubmitTimeout (port : Fin 4) (k : Fin 9) (t : Nat) (s : State) : Out :=
  let s := s.clock t
  let c := s.chan port k
  if c.held ∧ !c.submitted ∧ c.lockedAt + lockBound ≤ s.now then .next (s.setChan port k c.release) else .next s

/-- A lock without a release ends 1 s after DONE (R256). -/
def execMbxLockDoneTimeout (port : Fin 4) (k : Fin 9) (t : Nat) (s : State) : Out :=
  let s := s.clock t
  let c := s.chan port k
  if c.held ∧ c.st = .done ∧ c.doneAt + lockBound ≤ s.now then .next (s.setChan port k c.release) else .next s

/-- A command that needs the Watermaster has waited 5 s for it: E_WM_ABSENT (R259). -/
def execWmAbsentTimeout (port : Fin 4) (k : Fin 9) (t : Nat) (s : State) : Out :=
  let s := s.clock t
  match s.waiting.find? fun w => w.wm && w.req.port.val = port.val && w.req.chan = k && w.req.t + 5 * sec ≤ s.now with
  | some w =>
    if s.wmFor w.opcode then .next s
    else .next ((s.setWaiting (s.waiting.erase w)).reply w.req w.opcode eWmAbsent [])
  | none => .next s

/-! ### Port events -/

/-- A Function Level Reset, hot reset or link-down of a port (R253): locks released, pending responses discarded, causes
cleared, MSI-X table and configuration space at reset; ownership, fields and commands in progress unchanged. -/
def execHostPortReset (port : Fin 4) (s : State) : Out :=
  .next (s.onHost port fun h =>
    { h with chans := h.chans.map fun e => (e.1, { e.2.release with last := none, dropped := some s.now }),
             cause := 0, msixMask := BitVec.allOnes 64, msix := [], pba := 0, cfg := {}, d3 := false, latch := none })

/-- D0 and D3hot: in D3hot the port's BARs are disabled and a latched IDS_TALLY_HI is discarded (R249, Chapter 18). -/
def execPciePowerStateChange (port : Fin 4) (d3 : Bool) (s : State) : Out :=
  .next (s.onHost port fun h => { h with d3 := d3, latch := if d3 then none else h.latch })

/-- IDS_TALLY_LO by a 4-byte read: latches the high word (R425). -/
def execIdsTallyLoRead (port : Fin 4) (s : State) : Out :=
  if !s.portLive port ∨ (s.host port).d3 then .next (s.onHost port fun h => { h with last := { ur := true } })
  else
    let v := s.tallyOf ⟨s.span.num, port, 0⟩
    .next (s.onHost port fun h =>
      { h with latch := some (BitVec.ofNat 32 (v / 0x100000000)), last := { data := le 4 v } })

/-- IDS_TALLY_HI by a 4-byte read: the latched word once, else the present high word (R425). -/
def execIdsTallyHiRead (port : Fin 4) (s : State) : Out :=
  if !s.portLive port ∨ (s.host port).d3 then .next (s.onHost port fun h => { h with last := { ur := true } })
  else
    let v := s.tallyOf ⟨s.span.num, port, 0⟩
    .next (s.onHost port fun h =>
      { h with latch := none,
               last := { data := le 4 (match h.latch with | some w => w.toNat | none => v / 0x100000000) } })

/-- TRB_SUMMARY written by the tray owner: W1C (R402); clearing TRAY_FATAL ends the intake hold of R391. Writes of others
are discarded. -/
def execTrbSummaryWrite (port : Fin 4) (rid : Half) (value : Dword) (s : State) : Out :=
  let x := s.scope 0
  if !s.portLive port ∨ (s.host port).d3 ∨ !s.isReady ∨ !x.owned ∨ x.rid ≠ rid ∨ x.src.val ≠ port.val then .next s
  else
    let s := s.setTrouble { s.trouble with summary := w1c s.trouble.summary value }
    if value.getLsbD 0 then .next (s.forEach allFields fun s f => s.onField f fun x => { x with intakeHeld := false })
    else .next s

/-- The entry at HEAD leaves a die's alarm FIFO (R428). -/
def State.popAlarm (s : State) (d : DieId) : State :=
  match (s.die d).trb.fifo with
  | [] => s
  | _ :: rest => s.onDie d fun x => { x with trb := { x.trb with fifo := rest, fifoHead := (x.trb.fifoHead + 1) % 8 } }

/-- HG_ALMCTL POP removes the entry at HEAD of a die's alarm FIFO (R428, Table 18.8). -/
def execHgAlmctlPop (d : DieId) (s : State) : Out := .next (s.popAlarm d)

/-! ### Doorbells and rings -/

/-- A BAR or doorbell write discarded under R251 or R254 counts (R403). -/
def State.countRefused (s : State) : State :=
  s.setTrouble { s.trouble with cntRefused := sat32 s.trouble.cntRefused }

/-- Whether a port's agent owns a field (R266). -/
def State.portOwns (s : State) (port : Fin 4) (rid : Half) (f : Fin 8) : Bool :=
  let x := s.scope (fscope f)
  x.owned && x.rid = rid && x.src.val = port.val

/-- Whether BAR2 and BAR4 of a port are live (R249, R252). -/
def State.barsLive (s : State) (port : Fin 4) : Bool := s.portLive port && s.isReady && !(s.host port).d3

/-- LFLAGS of ring entry `i` (Table 2.7). -/
def Field.lflags (x : Field) (i : Nat) : Nat := fieldAt (Memory.read x.ring (64 * (i % 64) + 2) 2) 0 2

/-- Launches in flight: covered by a doorbell and VALID not yet cleared by the device (R41). -/
def Field.inFlight (x : Field) : Nat := (x.prod - x.cons).toNat

/-- DBI_LAUNCH_PROD written (R254): refused as a whole when it covers more entries than are free, an entry with VALID 0,
or is not the owner's; an accepted one puts its entries in flight with LSTATUS 0, and the device's other bytes, 0x2A-0x3F, read 0
until it writes them (R39; DESIGN CHOICE, log entry 122). Idle time with an empty ring of 16,000 ticks
ends here and counts as a calibration window (R32). -/
def execLaunchDoorbell (port : Fin 4) (rid : Half) (f : Fin 8) (prod : Byte) (t : Nat) (s : State) : Out :=
  let s := (s.clock t).settleOwn
  let x := s.field f
  if !s.barsLive port ∨ !x.live then .next s
  else if !s.portOwns port rid f then .next s.countRefused
  else
    let n := (prod - x.prod).toNat
    let covered := (List.range n).map (x.prod.toNat + ·)
    if 64 < n + x.inFlight ∨ covered.any (fun i => x.lflags i % 2 = 0) then
      .next ((s.onHost port fun h => { h with launchErr := setBit h.launchErr (f.val + 1) }).raise port (17 + f.val))
    else
      let ring := covered.foldl (fun m i => Memory.write m (64 * (i % 64) + 0x28) (le 24 0)) x.ring
      let now := s.leadTally f
      let idle : Bool := x.run.isNone && x.prod = x.cons && x.idleSince + 16000 ≤ now
      .next (s.setField f { x with prod := prod, ring := ring, lastCal := if idle then now else x.lastCal,
                                   rang := covered.foldl (fun m i => NMap.set m (i % 64) now) x.rang })

/-- Whether the device has read entry `i` of the ring and not completed it (R40). -/
def Field.entryRead (x : Field) (i : Nat) : Bool :=
  (List.range (x.taken - x.cons).toNat).any fun k => (x.cons.toNat + k) % 64 = i

/-- A write of 1-64 bytes within one ring entry by the field's owner (R251, R427): offsets 0x28-0x3F are the device's
(R39); a write to an entry the device has read is ignored (R40). -/
def execLaunchRingWrite (port : Fin 4) (rid : Half) (f : Fin 8) (ofs : Nat) (data : List Byte) (s : State) : Out :=
  let x := s.field f
  if !s.barsLive port ∨ !x.live then .next s
  else if !s.portOwns port rid f then .next s.countRefused
  else if data.length = 0 ∨ 64 < data.length ∨ 4096 < ofs + data.length ∨ ofs / 64 ≠ (ofs + data.length - 1) / 64 then
    .next s
  else if x.entryRead (ofs / 64) then .next s
  else .next (s.setField f { x with ring := Memory.write x.ring ofs (data.take (0x28 - min 0x28 (ofs % 64))) })

/-! ### Reading HBM (R46, R52, R65, Table 16.4) -/

/-- An error in a die's mesh or tiles, with its field (Table 16.5). -/
def State.meshError (s : State) (d : DieId) (code locKind location : Nat) : State :=
  s.report d { code := code, field := match s.fieldOf d with | some f => fnum f | none => 0xFF, locKind := locKind,
               location := location }

/-- The list with `n` in it or not. -/
def putMark (l : List Nat) (n : Nat) (on : Bool) : List Nat :=
  if on then (if l.contains n then l else n :: l) else l.filter (· ≠ n)

/-- The report of a memory error: a single-bit one corrected, a double-bit one deferred (R52, Table 16.4). -/
def State.memError (s : State) (d : DieId) (ce de locKind location : Nat) (e : HdrErr) : State :=
  match e with
  | .clean => s
  | .single => s.meshError d ce locKind location
  | .uncorrectable => s.meshError d de locKind location

/-- The home endpoint of a line: bits [10:6] of its offset (R65). -/
def homeEndpoint (addr : Nat) : Nat := addr / 64 % 32

/-- A line of a compute die's HBM is read under its error check: a single-bit error is corrected and reported, an uncorrectable one
stores the line poisoned (Table 16.4, R46). -/
def State.hbmRead (s : State) (d : DieId) (line : Nat) : State :=
  if !d.isCompute then s
  else
    let e := Config.hbmCheck s.free line
    let s := s.spend
    let s := if e = .uncorrectable then s.onDie d fun x => { x with poison := putMark x.poison line true } else s
    s.memError d 0xE203 0xE204 3 (homeEndpoint (64 * line)) e

/-! ### BAR4 (R251, R278) -/

/-- The bytes of one field slot, 128 GiB (R250). -/
def barSlot : Nat := 0x2000000000

/-- A byte the host sees at an offset of the field's slot: the port's own line cache if it owns the line, else the home
(R185). -/
def State.barByte (s : State) (port : Fin 4) (x : Field) (o : Nat) : Byte :=
  match x.barDie o with
  | some (d, a) =>
    match (s.die ⟨s.span.num, port, 0⟩).side.cache.find? fun c => c.home = d && c.line = a / 64 with
    | some c => (c.data[a % 64]?).getD 0
    | none => Memory.get (s.die d).mem a
  | none => 0

/-- Whether the byte lies in a poisoned line, as the port's own line cache or the home holds it (R46). -/
def State.barPoison (s : State) (port : Fin 4) (x : Field) (o : Nat) : Bool :=
  match x.barDie o with
  | some (d, a) =>
    (match (s.die ⟨s.span.num, port, 0⟩).side.cache.find? fun c => c.home = d && c.line = a / 64 with
     | some c => c.bad
     | none => (s.die d).poison.contains (a / 64))
  | none => false

/-- The HBM lines a BAR4 read reaches are read under their error checks, but those the port's own cache holds (Table 16.4). -/
def State.barCheck (s : State) (port : Fin 4) (x : Field) (o len : Nat) : State :=
  let lines := ((List.range len).filterMap fun i => (x.barDie (o + i)).map fun e => (e.1, e.2 / 64)).eraseDups
  let cache := (s.die ⟨s.span.num, port, 0⟩).side.cache
  s.forEach (lines.filter fun e => !cache.any fun c => c.home = e.1 && c.line = e.2) fun s e => s.hbmRead e.1 e.2

/-- Whether a BAR4 access of a port may go to a range of a field's slot: owner, inside the n x H window, side intake open
(R240, R251, R278). -/
def State.barOpen (s : State) (port : Fin 4) (rid : Half) (f : Fin 8) (o len : Nat) : Bool :=
  let x := s.field f
  x.live && s.portOwns port rid f && 0 < len && o + len ≤ x.dies.length * x.h && !x.sideClosed

/-- BAR4 read: Unsupported Request outside the window and for anyone but the owner; the EP bit with a poisoned line
(R46, R251). -/
def execHostBar4Read (port : Fin 4) (rid : Half) (ofs len : Nat) (s : State) : Out :=
  let f : Fin 8 := Fin.ofNat 8 (ofs / barSlot)
  let o := ofs % barSlot
  if !s.barsLive port ∨ 8 ≤ ofs / barSlot ∨ !s.barOpen port rid f o len then
    .next (s.onHost port fun h => { h with last := { ur := true } })
  else
    let x := s.field f
    let s := s.barCheck port x o len
    let data := (List.range len).map fun i => s.barByte port x (o + i)
    let ep := (List.range len).any fun i => s.barPoison port x (o + i)
    .next (s.onHost port fun h => { h with last := { ep := ep, data := data } })

/-- Poisoned lines after a write of `n` bytes at `a`: lines the write covers whole are clean, others stay (R46). -/
def poisonAfter (l : List Nat) (a n : Nat) : List Nat := l.filter fun k => !(a ≤ 64 * k && 64 * k + 64 ≤ a + n)

/-- Writes bytes of a die's memory as a side or host write does (R46). -/
def Die.sideWrite (x : Die) (a : Nat) (bs : List Byte) : Die :=
  { x with mem := Memory.write x.mem a bs, poison := poisonAfter x.poison a bs.length }

/-- Whether a range of a field's slot meets the image of a loaded plan, which is read-only to host and side writes
(R231). -/
def Field.imageHit (x : Field) (o len : Nat) : Bool := x.plans.any fun p => o < p.ofs + p.len && p.ofs < o + len

/-- A host write of bytes within one line: into the port's own line cache if it owns the line, else at the home
(R185). -/
def State.hostLine (s : State) (port : Fin 4) (d : DieId) (a : Nat) (bs : List Byte) : State :=
  let owner : DieId := ⟨s.span.num, port, 0⟩
  let cache := (s.die owner).side.cache
  if cache.any fun c => c.home = d && c.line = a / 64 then
    s.onDie owner fun y =>
      { y with side := { y.side with cache := cache.map fun c =>
          if c.home = d ∧ c.line = a / 64 then
            { c with dirty := true, bad := c.bad && bs.length ≠ 64, data := slice (c.data.take (a % 64) ++ bs ++ c.data.drop (a % 64 + bs.length)) 0 64 }
          else c } }
  else s.onDie d fun y => y.sideWrite a bs

/-- A BAR4 write of consecutive bytes, die window by die window; `i` is the place in the die list (R278). -/
def State.barStore (s : State) (port : Fin 4) (x : Field) (o : Nat) (bs : List Byte) : List (Nat × DieId) → State
  | [] => s
  | (i, d) :: rest =>
    let lo := max o (i * x.h)
    let hi := min (o + bs.length) ((i + 1) * x.h)
    let s := if lo < hi then
        let part := (bs.drop (lo - o)).take (hi - lo)
        s.forEach (lineChunks (part.length + 1) (lo - i * x.h) part) fun s c => s.hostLine port d c.1 c.2
      else s
    s.barStore port x o bs rest

/-- BAR4 write: discarded and counted for anyone but the owner, outside the window, or into a loaded plan's image; else
the bytes land in the member dies' windows (R231, R251, R278). -/
def execHostBar4Write (port : Fin 4) (rid : Half) (ofs : Nat) (data : List Byte) (s : State) : Out :=
  let f : Fin 8 := Fin.ofNat 8 (ofs / barSlot)
  let o := ofs % barSlot
  let x := s.field f
  if !s.barsLive port then .next s
  else if 8 ≤ ofs / barSlot ∨ !s.barOpen port rid f o data.length ∨ x.imageHit o data.length then .next s.countRefused
  else .next (s.barStore port x o data (x.dies.zipIdx.map fun e => (e.2, e.1)))

end Sys2Proof.Machine
end

