-- ==== Sys2Proof/Machine/Image.lean ====
section
/-! DEFINITION. Sys2Proof/Machine/Image.lean: the plan image: header, directory and sections (R25-R28, R149, R444, R445).
Every parser answers none where the layout is broken, which the loader answers E_PLAN_FORMAT. -/

namespace Sys2Proof.Machine

/-- Cuts a byte list into entries of `n` bytes; `fuel` bounds their number. -/
def entries (n : Nat) : Nat → List Byte → List (List Byte)
  | 0, _ => []
  | _, [] => []
  | fuel + 1, bs => bs.take n :: entries n fuel (bs.drop n)

/-- The entries of a fixed-size section: its length is a whole number of them (R444). -/
def fixedEntries (n : Nat) (bs : List Byte) : Option (List (List Byte)) :=
  if bs.length % n = 0 then some (entries n bs.length bs) else none

/-- Whether bytes `ofs` to `ofs + n - 1` of an entry are 0, as a reserved field must be. -/
def zeroAt (bs : List Byte) (ofs n : Nat) : Bool := allZero (slice bs ofs n)

/-- Applies a parser to each entry; none where one fails. -/
def parseAll {α : Type} (g : List Byte → Option α) : List (List Byte) → Option (List α)
  | [] => some []
  | e :: es =>
    match g e, parseAll g es with
    | some x, some xs => some (x :: xs)
    | _, _ => none

/-- A value where a check holds. -/
def guarded {α : Type} (ok : Bool) (x : α) : Option α := if ok then some x else none

/-- Whether a tray and address are those of a die (R7). -/
def isDie (tray die : Nat) : Bool := (dieOf tray die).isSome

/-- Whether a tray and address are those of a compute die (R6, R7). -/
def isComputeDie (tray die : Nat) : Bool := match dieOf tray die with | some d => d.isCompute | none => false

/-- Table 2.3a. Resource codes are those of Table 2.5; the die is 0x00 for entry-point scope alone. -/
def parseFoot (e : List Byte) : Option Foot :=
  let x : Foot := { resource := fieldAt e 0 2, tray := fieldAt e 2 1, die := fieldAt e 3 1, location := fieldAt e 4 2,
                    amount := fieldAt e 8 8 }
  let place : Bool :=
    if x.resource = 0x0001 ∨ x.resource = 0x0003 then isDie x.tray x.die && x.location = 0xFFFF
    else if x.resource = 0x0002 ∨ x.resource = 0x0006 then isDie x.tray x.die && x.location < 1024
    else if x.resource = 0x0004 ∨ x.resource = 0x0005 ∨ x.resource = 0x0010 then isDie x.tray x.die && x.location < 5
    else if x.resource = 0x0007 then x.tray < 4 && x.die = 0 && x.location < 16
    else if x.resource = 0x0008 then isDie x.tray x.die && (x.location < 5 || x.location = 0xFFFF)
    else false
  guarded (zeroAt e 6 2 && place) x

/-- Table 2.3b. -/
def parseLedger (e : List Byte) : Option PlanLedger :=
  let x : PlanLedger := { tray := fieldAt e 0 1, die := fieldAt e 1 1, port := fieldAt e 2 1, profile := fieldAt e 3 1,
                          pinned := fieldAt e 4 2, peerTray := fieldAt e 6 1, peerDie := fieldAt e 7 1,
                          peerPort := fieldAt e 8 1 }
  guarded (zeroAt e 9 7 && isDie x.tray x.die && x.port < 5 && x.profile < 3) x

/-- Table 2.3c; the bound's range is the bounds stage's (R34). -/
def parseBound (e : List Byte) : Option Bound :=
  let x : Bound := { tray := fieldAt e 0 1, die := fieldAt e 1 1, tile := fieldAt e 2 2, channel := fieldAt e 4 1,
                     bound := fieldAt e 6 2 }
  guarded (zeroAt e 5 1 && isDie x.tray x.die && x.tile < 1024 && x.channel < 64) x

/-- Table 2.4 with the rules of R30: lengths within bounds, not rising with the rung; fallow, calibration and checkpoint
steps. -/
def parseStep (e : List Byte) : Option Step :=
  let flags := fieldAt e 0 4
  let set := fieldAt e 4 4
  let lens := (List.range 8).map fun r => fieldAt e (8 + 4 * r) 4
  let x : Step := { fallow := flags % 2 = 1, calibration := flags / 2 % 2 = 1, checkpoint := flags / 4 % 2 = 1,
                    slotSet := if set = 0xFFFFFFFF then none else some set, lens := lens }
  let falling := (lens.zip (lens.drop 1)).all fun p => p.2 ≤ p.1
  let equal := lens.all fun n => n = lens.headD 0
  guarded (flags < 8 && zeroAt e 0x28 8 && lens.all (fun n => 1024 ≤ n) && falling
    && (!x.fallow || (x.slotSet.isNone && equal && !x.checkpoint))
    && (!x.calibration || (x.fallow && 16000 ≤ lens.headD 0))) x

/-- Table 2.3e. -/
def parseEntry (e : List Byte) : Option EntryPt :=
  let x : EntryPt := { first := fieldAt e 0 4, last := fieldAt e 4 4, argMin := fieldAt e 8 4 }
  guarded (zeroAt e 12 4 && x.first ≤ x.last) x

/-- Table 2.3f; PARAM is not checked. -/
def parseCsum (e : List Byte) : Option CsumPt :=
  let x : CsumPt := { tray := fieldAt e 0 1, die := fieldAt e 1 1, tile := fieldAt e 2 2, step := fieldAt e 4 4 }
  guarded (isDie x.tray x.die && x.tile < 1024) x

/-- The bits of a slot mask at slots that are multiples of 16, the side reserve (R149). -/
def reserveMask : Nat := ((List.range 16).map fun j => 2 ^ (16 * j)).foldl (· + ·) 0

/-- A port block of a slot set (Table 2.3d): no planned slot in the side reserve (R149). -/
def parseSlotPort (e : List Byte) : Option SlotPort :=
  let x : SlotPort := { ledger := fieldAt e 0 2, mask := fieldAt e 8 32 }
  guarded (zeroAt e 2 6 && Nat.land x.mask reserveMask = 0) x

/-- The slot sets of section 0x0004, filled exactly (Table 2.3d); `fuel` bounds their number. -/
def parseSets : Nat → List Byte → Option (List SlotSet)
  | _, [] => some []
  | 0, _ => none
  | fuel + 1, bs =>
    let n := fieldAt bs 4 2
    let set := fieldAt bs 0 4
    if bs.length < 16 + 40 * n ∨ n = 0 ∨ set = 0xFFFFFFFF ∨ !zeroAt bs 6 10 then none
    else
      match parseAll parseSlotPort (entries 40 n ((bs.drop 16).take (40 * n))), parseSets fuel (bs.drop (16 + 40 * n)) with
      | some ports, some rest => some ({ set := set, ports := ports } :: rest)
      | _, _ => none

/-- The records of section 0x0009, filled exactly (Table 2.3g). -/
def parseInits : Nat → List Byte → Option (List HbmInit)
  | _, [] => some []
  | 0, _ => none
  | fuel + 1, bs =>
    let n := fieldAt bs 4 4
    let full := 16 + ceilDiv n 8 * 8
    let x : HbmInit := { tray := fieldAt bs 0 1, die := fieldAt bs 1 1, ofs := fieldAt bs 8 8,
                         data := (bs.drop 16).take n }
    if bs.length < full ∨ n = 0 ∨ !zeroAt bs 2 2 ∨ x.ofs % 64 ≠ 0 ∨ !isDie x.tray x.die
        ∨ !allZero ((bs.drop (16 + n)).take (full - 16 - n)) then none
    else (parseInits fuel (bs.drop full)).map (x :: ·)

/-! ### Tile configuration blocks (R57, R445) -/

/-- Table 3.6, with the limits of R57. -/
def parseTileRec (e : List Byte) : Option TileRec :=
  let x : TileRec := { tile := fieldAt e 0 2, rules := fieldAt e 2 1, maxOps := fieldAt e 3 1, maxOuts := fieldAt e 4 1 }
  guarded (zeroAt e 5 3 && x.tile < 1024 && x.rules ≤ 32 && x.maxOps ≤ 4 && x.maxOuts ≤ 4) x

/-- Table 3.7; a bound outside 1-64 is the bounds stage's. -/
def parseChan (e : List Byte) : Option ChanRec :=
  let flags := fieldAt e 1 1
  let x : ChanRec := { kind := fieldAt e 0 1, order := flags % 2 = 1, back := flags / 2 % 2 = 1, src := fieldAt e 2 2,
                       dst := fieldAt e 4 2, channel := fieldAt e 6 1, port := fieldAt e 7 1, attach := fieldAt e 8 2,
                       bound := fieldAt e 10 2, cycles := fieldAt e 16 8 }
  let ends : Bool := if x.kind = 0 then x.port = 0xFF && x.attach = 0xFFFF else x.port < 4 && x.attach < 1024
  guarded (x.kind < 3 && flags < 4 && x.src < 1056 && x.dst < 1024 && x.channel < 64 && ends && zeroAt e 12 4) x

/-- Table 3.8. -/
def parsePos (e : List Byte) : Option PosRec :=
  let x : PosRec := { set := fieldAt e 0 4, port := fieldAt e 4 1, bundle := fieldAt e 5 1, slot := fieldAt e 6 1,
                      chan := fieldAt e 8 2 }
  guarded (zeroAt e 7 1 && zeroAt e 10 2) x

/-- The per-die blocks of section 0x0007 (Tables 3.4, 3.5); `ofs` is where the section's rest begins in the image. -/
def parseBlocks : Nat → Nat → List Byte → Option (List Block)
  | _, _, [] => some []
  | 0, _, _ => none
  | fuel + 1, ofs, bs =>
    let tray := fieldAt bs 0 1
    let die := fieldAt bs 1 1
    let blen := fieldAt bs 4 4
    let nt := fieldAt bs 12 2
    let nc := fieldAt bs 14 2
    let np := fieldAt bs 16 4
    let dl := 16 + 8 * nt + 24 * nc + 12 * np
    if bs.length < 24 ∨ !zeroAt bs 2 2 ∨ !isComputeDie tray die ∨ blen < 8 + dl ∨ bs.length < blen
        ∨ fieldAt bs 8 2 ≠ 0x4843 ∨ fieldAt bs 10 1 ≠ 1 ∨ !zeroAt bs 11 1 ∨ fieldAt bs 20 4 ≠ dl
        ∨ (blen - 8 - dl) % 72 ≠ 0 then none
    else
      let tiles := parseAll parseTileRec (entries 8 nt ((bs.drop 24).take (8 * nt)))
      let chans := parseAll parseChan (entries 24 nc ((bs.drop (24 + 8 * nt)).take (24 * nc)))
      let poss := parseAll parsePos (entries 12 np ((bs.drop (24 + 8 * nt + 24 * nc)).take (12 * np)))
      match tiles, chans, poss, parseBlocks fuel (ofs + blen) (bs.drop blen) with
      | some ts, some cs, some ps, some rest =>
        if ps.all fun p => p.chan < nc then
          some ({ tray := tray, die := die, tiles := ts, chans := cs, poss := ps, packets := (blen - 8 - dl) / 72,
                  packetOfs := ofs + 8 + dl } :: rest)
        else none
      | _, _, _, _ => none

/-! ### Header and directory (R25, R26) -/

/-- A region of the image: offset and length. -/
structure Region where
  ofs : Nat
  len : Nat
deriving DecidableEq, Repr

/-- Whether two regions share a byte; a region of length 0 that begins strictly inside another counts as sharing one, which R25
does not say (DESIGN CHOICE, log entry 115). -/
def Region.meets (a b : Region) : Bool := a.ofs < b.ofs + b.len && b.ofs < a.ofs + a.len

/-- Whether no two regions of a list share a byte (R25). -/
def apart : List Region → Bool
  | [] => true
  | r :: rs => rs.all (fun q => !r.meets q) && apart rs

/-- A directory entry: section type and region; none with a reserved bit set (R25). -/
def parseDir (e : List Byte) : Option (Nat × Region) :=
  guarded (zeroAt e 2 2 && zeroAt e 12 4) (fieldAt e 0 2, { ofs := fieldAt e 4 4, len := fieldAt e 8 4 })

/-- The header's checks (Table 2.2), but for the directory: MAGIC, FORMAT, FLAGS, PLAN_ID, IMAGE_LEN, DIR_COUNT,
STEP_COUNT, reserved bytes, CRC. -/
def headerOk (bs : List Byte) (len : Nat) : Bool :=
  fieldAt bs 0 4 = 0x50564E4F && fieldAt bs 4 2 = 2 && fieldAt bs 6 2 < 4 && fieldAt bs 8 8 ≠ 0
    && fieldAt bs 0x10 4 = len && 7 ≤ fieldAt bs 0x18 2 && fieldAt bs 0x18 2 ≤ 9 && zeroAt bs 0x1A 2
    && 1 ≤ fieldAt bs 0x1C 4 && fieldAt bs 0x1C 4 ≤ 1048576 && zeroAt bs 0x20 28
    && fieldAt bs 0x3C 4 = crc32 (bs.take 0x3C ++ le 4 0 ++ bs.drop 0x40)

/-- The section of a type, as its bytes with its offset; empty where the image has none. -/
def sectionOf (bs : List Byte) (dir : List (Nat × Region)) (type : Nat) : List Byte × Nat :=
  match dir.find? (·.1 = type) with
  | some e => ((bs.drop e.2.ofs).take e.2.len, e.2.ofs)
  | none => ([], 0)

/-- Exactly one section of each type 1-7, one of type 8 if and only if FLAGS bit 0, at most one of type 9 (R26). -/
def dirOk (flags : Nat) (dir : List (Nat × Region)) : Bool :=
  let count := fun t => (dir.filter (·.1 = t)).length
  dir.all (fun e => 1 ≤ e.1 && e.1 ≤ 9) && (List.range 7).all (fun t => count (t + 1) = 1)
    && count 8 = flags % 2 && count 9 ≤ 1

/-- The image as the loader reads it, before any check against the field: none where a layout is broken (R25, R26,
R444, R445). -/
def parseImage (bs : List Byte) (ofs len : Nat) : Option Plan :=
  let dirOfs := fieldAt bs 0x14 4
  let n := fieldAt bs 0x18 2
  let flags := fieldAt bs 6 2
  if !headerOk bs len ∨ len < dirOfs + 16 * n then none
  else
    match parseAll parseDir (entries 16 n ((bs.drop dirOfs).take (16 * n))) with
    | none => none
    | some dir =>
      if !dirOk flags dir ∨ dir.any (fun e => len < e.2.ofs + e.2.len)
          ∨ !apart ({ ofs := 0, len := 64 } :: { ofs := dirOfs, len := 16 * n } :: dir.map (·.2)) then none
      else
        let sec := fun t => (sectionOf bs dir t).1
        let foot := (fixedEntries 16 (sec 1)).bind (parseAll parseFoot)
        let ledger := (fixedEntries 16 (sec 2)).bind (parseAll parseLedger)
        let steps := (fixedEntries 48 (sec 3)).bind (parseAll parseStep)
        let sets := parseSets (sec 4).length (sec 4)
        let bounds := (fixedEntries 8 (sec 5)).bind (parseAll parseBound)
        let ents := (fixedEntries 16 (sec 6)).bind (parseAll parseEntry)
        let blocks := parseBlocks (sec 7).length (sectionOf bs dir 7).2 (sec 7)
        let csums := (fixedEntries 32 (sec 8)).bind (parseAll parseCsum)
        let inits := parseInits (sec 9).length (sec 9)
        match foot, ledger, steps, sets, bounds, ents, blocks, csums, inits with
        | some foot, some ledger, some steps, some sets, some bounds, some ents, some blocks, some csums, some inits =>
          if steps.length = fieldAt bs 0x1C 4 ∧ 1 ≤ ents.length ∧ ents.length ≤ 16
              ∧ ents.all (fun e => e.last < steps.length) = true
              ∧ csums.all (fun c => c.step < steps.length) = true then
            some { id := BitVec.ofNat 64 (fieldAt bs 8 8), flags := flags, ofs := ofs, len := len, foot := foot,
                   ledger := ledger, steps := steps, sets := sets, bounds := bounds, entries := ents, blocks := blocks,
                   csums := csums, inits := inits }
          else none
        | _, _, _, _, _, _, _, _, _ => none

end Sys2Proof.Machine
end

