-- ==== Sys2Proof/Machine/Loader.lean ====
section
/-! DEFINITION. Sys2Proof/Machine/Loader.lean: the loader's stages in their order (R27, R31, R33-R38, R57, R60, R96, R150)
and the plan it places. -/

namespace Sys2Proof.Machine

/-! ### Mesh geometry of a die (R50, R55, R65, R67) -/

/-- The boundary tile a memory endpoint attaches at: E1 (x = 31) for ME0-ME15, E3 (x = 0) for ME16-ME31 (R65). -/
def endpointTile (k : Nat) : Nat := 32 * (4 * (k % 16 / 2) + 2 + k % 2) + (if k < 16 then 31 else 0)

/-- The router a packet source or destination sits at. -/
def routerOf (code : Nat) : Nat := if code < 1024 then code else endpointTile (code - 1024)

/-- The attachment router j of physical edge Ei (R67). -/
def attachTile (edge j : Nat) : Nat :=
  if edge = 0 then 1 + 4 * j else if edge = 1 then 32 * (1 + 4 * j) + 31
  else if edge = 2 then 32 * 31 + 1 + 4 * j else 32 * (1 + 4 * j)

/-- Orientation code of a compute die's slot: (m + 2) mod 4 (R212). -/
def orientOf (d : DieId) : Nat := (d.slot.val + 1) % 4

/-- The boundary router at the root corner: it attaches the root port, and the die's rider cores at its outward E0-side port, output
0 (R67). -/
def rootRouter : Nat := 0
def riderPlace : Nat × Nat := (rootRouter, 0)

/-- The routers a port attaches at: the root port at the root router, an edge port at the eight of its edge (R67, R211). -/
def attachRouters (p : PortId) : List Nat :=
  if p.port = 4 then [rootRouter] else (List.range 8).map (attachTile (edgeOf (orientOf p.die) p.port.val))

/-- Ports that carry channels of a die. -/
def planPorts (d : DieId) : List PortId := (diePorts d).filter fun p => p.port ≠ 4

/-- The number of a port's attachment router on its edge, if the tile is one: planned channels leave the die through E0-E3 only
(R67). -/
def attachIdx (p : PortId) (tile : Nat) : Option Nat :=
  if p.port = 4 then none else (attachRouters p).findIdx? (· = tile)

/-- The bundle attachment router j uses (R150). -/
def bundleOf (p : PortId) (j : Nat) : Nat :=
  if profileOf p = 1 then j else if (wired p).isSome then j / 4 else 0

/-- The router output that leads from router `a` toward `b`, dimension X (0) or Y (1) first (R55): 0 up, 1 right, 2 down,
3 left, 4 where `a` is `b`. -/
def meshDir (yFirst : Bool) (a b : Nat) : Nat :=
  let dx := if a % 32 < b % 32 then 1 else if b % 32 < a % 32 then 3 else 4
  let dy := if a / 32 < b / 32 then 2 else if b / 32 < a / 32 then 0 else 4
  if yFirst then (if dy = 4 then dx else dy) else (if dx = 4 then dy else dx)

/-- The router one hop on through an output. -/
def meshNext (a dir : Nat) : Nat :=
  if dir = 0 then a - 32 else if dir = 1 then a + 1 else if dir = 2 then a + 32 else if dir = 3 then a - 1 else a

/-- The routers and outputs of a route from `a` to `b` with its last output `last`, at most `fuel` hops (R55). -/
def meshPath (yFirst : Bool) (last : Nat) : Nat → Nat → Nat → List (Nat × Nat)
  | 0, a, _ => [(a, last)]
  | fuel + 1, a, b => if a = b then [(a, last)] else (a, meshDir yFirst a b) :: meshPath yFirst last fuel (meshNext a (meshDir yFirst a b)) b

/-- The route of a channel on its die: to the consumer's local port (4), or out of the attachment router (5). -/
def ChanRec.path (c : ChanRec) : List (Nat × Nat) :=
  let start := if c.kind = 2 then c.attach else routerOf c.src
  let goal := if c.kind = 1 then c.attach else c.dst
  meshPath c.order (if c.kind = 1 then 5 else 4) 62 start goal

/-- The reservations of a channel as (router, output, round cycle) keys: the k-th router in cycle c + k mod 64 (R55). -/
def ChanRec.slots (c : ChanRec) : List Nat :=
  let path := c.path.zipIdx
  (List.range 64).flatMap fun n => if (c.cycles / 2 ^ n) % 2 = 1
    then path.map fun e => (e.1.1 * 8 + e.1.2) * 64 + (n + e.2) % 64 else []

/-- Adds keys to a set held as a mask; none where one is there already. -/
def addKeys : List Nat → Nat → Option Nat
  | [], m => some m
  | k :: ks, m => if m.testBit k then none else addKeys ks (m ||| 2 ^ k)

/-! ### First stage: checks beyond layout (R27, R33, R57, R444) -/

/-- The port of a block's die. -/
def Block.portId (b : Block) (port : Nat) : Option PortId :=
  match dieOf b.tray b.die with
  | some d => if h : port < 5 then some ⟨d, ⟨port, h⟩⟩ else none
  | none => none

/-- The port a plan's ledger section joins to a port, by the port's own entry or its peer's (R27, R445). -/
def Plan.peerOf (p : Plan) (q : PortId) : Option PortId :=
  match p.ledger.find? fun e => e.portId = some q with
  | some e => (match dieOf e.peerTray e.peerDie with
      | some d => if h : e.peerPort < 5 then some ⟨d, ⟨e.peerPort, h⟩⟩ else none
      | none => none)
  | none => match p.ledger.find? fun e => e.peerTray = q.die.tray.val && e.peerDie = q.die.addr && e.peerPort = q.port.val with
      | some e => e.portId
      | none => none

/-- Slots a slot set plans on a link, by either end. -/
def Plan.linkMask (p : Plan) (set : Nat) (q : PortId) : Nat :=
  p.maskOf set q ||| (match p.peerOf q with | some r => p.maskOf set r | none => 0)

/-- One channel against R57: at an attachment router of its port, joined by a ledger entry, no reservation in cycles
0-3. -/
def Plan.chanOk (p : Plan) (b : Block) (c : ChanRec) : Bool :=
  (if c.kind = 0 then true
   else match b.portId c.port with
     | some q => (attachIdx q c.attach).isSome && (p.peerOf q).isSome
     | none => false)
  && c.slots.all fun k => 4 ≤ k % 64

/-- A position against R57: its channel crosses this port, the slot is planned, and on the source's die the bundle is the
one its attachment router uses (R150). -/
def Plan.posOk (p : Plan) (b : Block) (x : PosRec) : Bool :=
  match b.chans[x.chan]?, b.portId x.port with
  | some c, some q =>
    c.kind ≠ 0 && c.port = x.port && p.sets.any (·.set = x.set) && (p.linkMask x.set q).testBit x.slot
      && x.bundle < bundlesOf q
      && (match attachIdx q c.attach with | some j => bundleOf q j = x.bundle | none => false)
  | _, _ => false

/-- Positions of a channel in a set, in ascending slot order by construction of the check. -/
def Block.slotsOf (b : Block) (chan set : Nat) : List PosRec := b.poss.filter fun x => x.chan = chan && x.set = set

/-- Each channel holds an even number of positions in each slot set (R57). -/
def Block.evenPositions (b : Block) : Bool :=
  b.poss.all fun x => (b.slotsOf x.chan x.set).length % 2 = 0

/-- No two channels hold one bundle position of one planned slot of one set, in one direction of the link (R57, R148). -/
def Block.positionsApart (b : Block) : Bool :=
  let key := fun (x : PosRec) => (x.set, x.port, x.bundle, x.slot, match b.chans[x.chan]? with | some c => c.kind | none => 0)
  (b.poss.map key).Nodup

/-- A channel's identity by its consumer: tray, die, tile, channel (R34). -/
structure ChanKey where
  tray : Nat
  die : Nat
  tile : Nat
  channel : Nat
deriving DecidableEq, Repr

/-- The consumer of a channel record: on this die, or on the peer's for KIND 1 (Table 3.7). -/
def Plan.chanKey (p : Plan) (b : Block) (c : ChanRec) : ChanKey :=
  if c.kind = 1 then
    match (b.portId c.port).bind p.peerOf with
    | some q => ⟨q.die.tray.val, q.die.addr, c.dst, c.channel⟩
    | none => ⟨0, 0, c.dst, c.channel⟩
  else ⟨b.tray, b.die, c.dst, c.channel⟩

/-- Channels of a plan with their blocks. -/
def Plan.chans (p : Plan) : List (Block × Nat × ChanRec) :=
  p.blocks.flatMap fun b => b.chans.zipIdx.map fun e => (b, e.2, e.1)

/-- Whether the positions of two records are equal in SET, SLOT and BUNDLE (R445). -/
def samePositions (a b : List PosRec) : Bool :=
  a.length = b.length && a.all fun x => b.any fun y => y.set = x.set && y.slot = x.slot && y.bundle = x.bundle

/-- The half of a cross-die channel on the other die: joined through the ledger, same SRC, DST, CHANNEL, BOUND and
positions (R445). -/
def Plan.halfOk (p : Plan) (b : Block) (i : Nat) (c : ChanRec) : Bool :=
  if c.kind = 0 then true
  else
    match (b.portId c.port).bind p.peerOf with
    | none => false
    | some q => p.chans.any fun e =>
        e.1.tray = q.die.tray.val && e.1.die = q.die.addr && e.2.2.kind = 3 - c.kind && e.2.2.port = q.port.val
          && (e.1.portId e.2.2.port).bind p.peerOf = b.portId c.port
          && e.2.2.src = c.src && e.2.2.dst = c.dst && e.2.2.channel = c.channel && e.2.2.bound = c.bound
          && samePositions (b.poss.filter (·.chan = i)) (e.1.poss.filter (·.chan = e.2.1))

/-- The channel declarations of every die (R57). -/
def Plan.declsOk (p : Plan) : Bool :=
  p.blocks.all (fun b =>
    b.chans.all (p.chanOk b) && b.poss.all (p.posOk b) && b.evenPositions && b.positionsApart
      && (addKeys (b.chans.flatMap ChanRec.slots) 0).isSome && (b.tiles.map (·.tile)).Nodup)
  && p.chans.all (fun e => p.halfOk e.1 e.2.1 e.2.2)
  && (let own := (p.chans.filter (·.2.2.kind ≠ 2)).map fun e => p.chanKey e.1 e.2.2
      own.Nodup && own.all fun k => (own.filter fun j => j.tray = k.tray && j.die = k.die && j.tile = k.tile).length ≤ 64)

/-- Slot sets and ledger section against each other and the step table (R27, R444). -/
def Plan.setsOk (p : Plan) : Bool :=
  (p.sets.map (·.set)).Nodup
  && p.sets.all (fun x => (x.ports.map (·.ledger)).Nodup && x.ports.all fun b => b.ledger < p.ledger.length)
  && p.steps.all (fun x => match x.slotSet with | some n => p.sets.any (·.set = n) | none => true)
  && (p.ledger.map fun e => (e.tray, e.die, e.port)).Nodup
  && (List.range p.ledger.length).all fun i => p.sets.any fun x => x.ports.any (·.ledger = i)

/-- The bytes of the image that lie in die i's host-visible part, as a range of its window (R25, R278). -/
def Field.imagePart (x : Field) (i ofs len : Nat) : Nat × Nat :=
  let lo := max ofs (i * x.h)
  let hi := min (ofs + len) ((i + 1) * x.h)
  if lo < hi then (lo - i * x.h, hi - lo) else (0, 0)

/-- HBM initial contents: on a member die, within its window, clear of the image (Table 2.3g). -/
def Plan.initsOk (p : Plan) (x : Field) : Bool :=
  p.inits.all fun r =>
    match dieOf r.tray r.die with
    | some d =>
      let part := x.imagePart (x.dies.findIdx (· = d)) p.ofs p.len
      x.dies.contains d && r.ofs + r.data.length ≤ x.w
        && !(r.ofs < part.1 + part.2 && part.1 < r.ofs + r.data.length)
    | none => false

/-- The first stage beyond layout; FLAGS bit 1 only while calibration is off for the field (R33). -/
def Plan.formatOk (p : Plan) (x : Field) : Bool :=
  (p.flags / 2 % 2 = 0 || x.calOff) && p.setsOk && p.declsOk && p.initsOk x

/-! ### Deficit records (R38) -/

/-- A deficit entry (Table 2.6). -/
structure Deficit where
  resource : Nat
  tray : Nat
  die : Nat
  location : Nat
  required : Nat
  available : Nat
deriving DecidableEq, Repr

/-- The order of deficit entries: resource, tray, die, location (R38). -/
def Deficit.before (a b : Deficit) : Bool :=
  let ka := ((a.resource * 4 + a.tray) * 256 + a.die) * 65536 + a.location
  let kb := ((b.resource * 4 + b.tray) * 256 + b.die) * 65536 + b.location
  ka ≤ kb

/-- Inserts a deficit in order. -/
def Deficit.insert (a : Deficit) : List Deficit → List Deficit
  | [] => [a]
  | b :: bs => if a.before b then a :: b :: bs else b :: Deficit.insert a bs

/-- Deficits in the order of R38. -/
def sortDeficits : List Deficit → List Deficit
  | [] => []
  | a :: as => Deficit.insert a (sortDeficits as)

/-- The 24 bytes of a deficit entry. -/
def Deficit.bytes (a : Deficit) : List Byte :=
  le 2 a.resource ++ le 1 a.tray ++ le 1 a.die ++ le 2 a.location ++ le 2 0 ++ le 8 a.required ++ le 8 a.available

/-- A deficit record: head with the entries returned and the total, up to 16 entries (R38). -/
def deficitBytes (l : List Deficit) : List Byte :=
  let s := sortDeficits l
  le 2 (min 16 s.length) ++ le 2 s.length ++ (s.take 16).flatMap Deficit.bytes

/-! ### Ledger stage (R36, R92) -/

/-- Pinned latency and peer packed as R38 states. -/
def packLedger (pinned tray die port : Nat) : Nat := pinned + 0x10000 * tray + 0x1000000 * die + 0x100000000 * port

/-- The present ledger's pinned latency and peer of a port, packed; 0 for a port the ledger lacks (R38, R91). -/
def State.presentLedger (s : State) (p : PortId) : Nat :=
  let l := (s.port p).link
  if !l.inLedger then 0
  else match l.peer with
    | some q => packLedger l.pinned q.die.tray.val q.die.addr q.port.val
    | none => packLedger l.pinned 0xFF 0 0xFF

/-- The deficit of one ledger entry: any difference in pinned latency or peer (R38, R92); PROFILE is no part of either. -/
def State.ledgerDeficit (s : State) (e : PlanLedger) : Option Deficit :=
  let req := packLedger e.pinned e.peerTray e.peerDie e.peerPort
  let avail := match e.portId with | some q => s.presentLedger q | none => 0
  if req = avail then none
  else some { resource := 0x0010, tray := e.tray, die := e.die, location := e.port, required := req, available := avail }

/-- Deficits of a plan's ledger section. -/
def State.ledgerDeficits (s : State) (p : Plan) : List Deficit := p.ledger.filterMap s.ledgerDeficit

/-! ### Bounds stage (R34) -/

/-- Every declared channel has exactly one entry, every entry a channel, every bound lies in 1-64 (R34). -/
def Plan.boundsOk (p : Plan) : Bool :=
  let own := (p.chans.filter (·.2.2.kind ≠ 2)).map fun e => p.chanKey e.1 e.2.2
  let ents := p.bounds.map fun e => (⟨e.tray, e.die, e.tile, e.channel⟩ : ChanKey)
  ents.Nodup && own.all ents.contains && ents.all own.contains && p.bounds.all (fun e => 1 ≤ e.bound && e.bound ≤ 64)
    && p.chans.all fun e => 1 ≤ e.2.2.bound && e.2.2.bound ≤ 64

/-- The bound of a channel, from the credit-bound section (R59). -/
def Plan.boundOf (p : Plan) (k : ChanKey) : Nat :=
  match p.bounds.find? fun e => (⟨e.tray, e.die, e.tile, e.channel⟩ : ChanKey) = k with
  | some e => e.bound
  | none => 0

/-- The bound of a channel record of a block, from the credit-bound section (R59; log entry 127). -/
def Plan.boundAt (p : Plan) (b : Block) (c : ChanRec) : Nat := p.boundOf (p.chanKey b c)

/-- The CREDIT requirement of a tile: the bounds of its input channels and of the channels attached at it (R60). -/
def Plan.creditAt (p : Plan) (tray die tile : Nat) : Nat :=
  total (p.chans.map fun e =>
    let k := p.chanKey e.1 e.2.2
    (if e.2.2.kind ≠ 1 ∧ e.1.tray = tray ∧ e.1.die = die ∧ e.2.2.dst = tile then p.boundOf k else 0)
    + (if e.2.2.kind ≠ 0 ∧ e.1.tray = tray ∧ e.1.die = die ∧ e.2.2.attach = tile then p.boundOf k else 0))

/-! ### Footprint stage (R35) -/

/-- The amount a footprint declares. -/
def Plan.declared (p : Plan) (res tray die loc : Nat) : Option Nat :=
  (p.foot.find? fun x => x.resource = res && x.tray = tray && x.die = die && x.location = loc).map (·.amount)

/-- Whether a use is declared and within its declaration. -/
def Plan.covers (p : Plan) (res tray die loc used : Nat) : Bool :=
  match p.declared res tray die loc with | some n => used ≤ n | none => false

/-- The number of set bits of a 256-bit mask. -/
def popcount (m : Nat) : Nat := ((List.range 256).filter fun k => m.testBit k).length

/-- The runs of R31 in an entry range at rung 0, each with its limit: leading and trailing 125 ms, between windows 250 ms.
`run` is the run so far, `lead` that no window has been seen. -/
def windowRuns : List Step → Nat → Bool → List (Nat × Nat)
  | [], run, _ => [(run, 125000000)]
  | x :: xs, run, lead =>
    if x.calibration then (run, if lead then 125000000 else 250000000) :: windowRuns xs 0 false
    else windowRuns xs (run + x.lens.headD 0) lead

/-- The runs of an entry point. -/
def Plan.runs (p : Plan) (e : EntryPt) : List (Nat × Nat) :=
  windowRuns ((p.steps.drop e.first).take (e.last + 1 - e.first)) 0 true

/-- The tiles a block uses. -/
def Block.tilesUsed (b : Block) : Nat :=
  ((b.tiles.map (·.tile)) ++ (b.chans.filter (·.kind ≠ 1)).map (·.dst)
    ++ ((b.chans.filter fun c => c.kind ≠ 2 && c.src < 1024).map (·.src))).eraseDups.length

/-- The resource and location a declaration is for: a CALIBRATION declaration's location is its entry point alone (Table 2.5). -/
def Foot.place (a : Foot) : Nat × Nat × Nat × Nat :=
  if a.resource = 0x0007 then (a.resource, 0, 0, a.location) else (a.resource, a.tray, a.die, a.location)

/-- Whether the footprint names a tile: a TILE_SRAM or CREDIT declaration at it (Table 2.5; DEDUCED, log entry 116). -/
def Plan.declaresTile (p : Plan) (tray die tile : Nat) : Bool :=
  (p.declared 0x0002 tray die tile).isSome || (p.declared 0x0006 tray die tile).isSome

/-- Every section against the footprint (R35). A die or port outside the field needs a SCOPE declaration. -/
def Plan.footprintOk (p : Plan) (x : Field) : Bool :=
  (p.foot.map Foot.place).Nodup
  && p.ledger.all (fun e =>
      p.declared 0x0010 e.tray e.die e.port = some e.pinned
      && p.covers 0x0004 e.tray e.die e.port
          ((p.sets.map fun z => match e.portId with | some q => popcount (p.maskOf z.set q) | none => 0).foldl max 0)
      && (match e.portId, dieOf e.peerTray e.peerDie with
          | some q, some d => (x.dies.contains q.die && x.dies.contains d) || p.covers 0x0008 e.tray e.die e.port 1
          | some _, none => p.covers 0x0008 e.tray e.die e.port 1
          | none, _ => false))
  && p.foot.all (fun a => a.resource ≠ 0x0010 || p.ledger.any fun e => e.tray = a.tray && e.die = a.die && e.port = a.location)
  && (p.blocks.map fun b => (b.tray, b.die))
      = ((List.range 4).flatMap fun t => (List.range 20).filterMap fun k =>
          if (p.declared 0x0001 t (0x10 + k) 0xFFFF).isSome then some (t, 0x10 + k) else none)
  && p.blocks.all (fun b => p.covers 0x0001 b.tray b.die 0xFFFF b.tilesUsed
      && ((match dieOf b.tray b.die with | some d => x.dies.contains d | none => false)
          || p.covers 0x0008 b.tray b.die 0xFFFF 1)
      && b.chans.all fun c => (c.kind = 1 || p.covers 0x0006 b.tray b.die c.dst (p.creditAt b.tray b.die c.dst))
          && (c.kind = 0 || p.covers 0x0006 b.tray b.die c.attach (p.creditAt b.tray b.die c.attach)))
  && p.csums.all (fun c => (p.declared 0x0001 c.tray c.die 0xFFFF).isSome && p.declaresTile c.tray c.die c.tile)
  && p.inits.all (fun r => p.covers 0x0003 r.tray r.die 0xFFFF
      (total ((p.inits.filter fun q => q.tray = r.tray && q.die = r.die).map (·.data.length))))
  && (p.flags / 2 % 2 = 1 || p.entries.zipIdx.all fun e =>
      (p.foot.filter fun a => a.resource = 0x0007 && a.location = e.2).any fun a =>
        ((p.runs e.1).map (·.1)).foldl max 0 ≤ a.amount)

/-! ### Fit stage (R37, Table 2.5) -/

/-- Slots other fields' loaded plans hold on a port's link. -/
def State.slotsHeld (s : State) (f : Fin 8) (q : PortId) : Nat :=
  total ((allFields.filter (· ≠ f)).flatMap fun g => (s.field g).plans.map fun p =>
    ((p.sets.map fun z => popcount (((s.linkEnds q).map (p.maskOf z.set)).foldl Nat.lor 0)).foldl max 0))

/-- The amount available to the field for a declaration (Table 2.5); none for resources the fit stage does not weigh. A SCOPE
declaration at a member die or an in-field port is never a deficit: Table 2.5 gives 0 for what lies outside and no amount for what
lies inside (DESIGN CHOICE, log entry 117). -/
def State.available (s : State) (f : Fin 8) (a : Foot) : Option Nat :=
  let x := s.field f
  match dieOf a.tray a.die with
  | none => none
  | some d =>
    let member := x.dies.contains d
    if a.resource = 0x0001 then some (if member then 1024 else 0)
    else if a.resource = 0x0002 then some 262144
    else if a.resource = 0x0003 then
      some ((if member then x.w else 0)
        - (match x.active with | some p => (p.declared 0x0003 a.tray a.die 0xFFFF).getD 0 | none => 0))
    else if a.resource = 0x0006 then some 256
    else if a.resource = 0x0008 then
      some (if a.location = 0xFFFF then (if member then a.amount else 0)
            else if h : a.location < 5 then (if s.portField ⟨d, ⟨a.location, h⟩⟩ = some f then a.amount else 0) else 0)
    else if h : a.location < 5 then
      if a.resource = 0x0004 then some (240 - s.slotsHeld f ⟨d, ⟨a.location, h⟩⟩)
      else if a.resource = 0x0005 then some (NMap.get (s.port ⟨d, ⟨a.location, h⟩⟩).pond.holds (fnum f) 0)
      else none
    else none

/-- Deficits of the fit stage: every declaration and window run that exceeds what is available by even one unit (R37, R38). The
entry of a CALIBRATION run carries TRAY 0, as in worked case 2.2 (DEDUCED, log entry 118). -/
def State.fitDeficits (s : State) (f : Fin 8) (p : Plan) : List Deficit :=
  (p.foot.filterMap fun a =>
    match s.available f a with
    | some n => if n < a.amount then some { resource := a.resource, tray := a.tray, die := a.die,
                                            location := a.location, required := a.amount, available := n } else none
    | none => none)
  ++ (if p.flags / 2 % 2 = 1 then [] else
      p.entries.zipIdx.filterMap fun e =>
        match (p.runs e.1).find? fun r => r.2 < r.1 with
        | some r => some { resource := 0x0007, tray := 0, die := 0, location := e.2, required := r.1, available := r.2 }
        | none => none)

/-! ### The load (R36) -/

/-- How a load ends: a status, a status with a deficit record, or the plan. -/
inductive LoadRes where
  | refuse (status : Nat)
  | deficit (status : Nat) (l : List Deficit)
  | ok (p : Plan)
deriving DecidableEq, Repr

/-- The bytes of a range of the field's slot (R25, R278). -/
def State.slotBytes (s : State) (x : Field) (ofs len : Nat) : List Byte :=
  x.dies.zipIdx.flatMap fun e =>
    let part := x.imagePart e.2 ofs len
    Memory.read (s.die e.1).mem part.1 part.2

/-- Data that host port engines hold modified of a field's windows reaches its homes, so that the loader reads what the host wrote; the
lines stay owned (R185; log entry 141). -/
def State.syncCaches (s : State) (f : Fin 8) : State :=
  let homes := (s.field f).dies
  s.forEach (s.allDies.filter fun d => !d.isCompute) fun s d =>
    let mine := (s.die d).side.cache.filter fun c => c.dirty && homes.contains c.home
    if mine.isEmpty then s
    else
      let s := s.forEach mine fun s c => s.onDie c.home fun x =>
        if c.bad then { x with mem := Memory.write x.mem (64 * c.line) c.data } else x.sideWrite (64 * c.line) c.data
      let clean := (s.die d).side.cache.map fun c => if homes.contains c.home then { c with dirty := false } else c
      s.onDie d fun x => { x with side := { x.side with cache := clean } }

/-- The ports a plan's ledger section names. -/
def Plan.ports (p : Plan) : List PortId := p.ledger.filterMap PlanLedger.portId

/-- The stages of R36 in their order. -/
def State.load (s : State) (f : Fin 8) (ofs len : Nat) : LoadRes :=
  let x := s.field f
  match parseImage (s.slotBytes x ofs len) ofs len with
  | none => .refuse ePlanFormat
  | some p =>
    if !p.formatOk x then .refuse ePlanFormat
    else
      match s.ledgerDeficits p with
      | d :: ds => .deficit ePlanLedger (d :: ds)
      | [] =>
        if p.ports.any fun q => (s.port q).link.disabled || (s.port q).link.forced then .refuse ePortDisabled
        else if p.ports.any fun q => (s.port q).tst.ctrl.toNat % 8 ≠ 0 then .refuse ePortTest
        else if !p.boundsOk then .refuse ePlanUnbounded
        else if !p.footprintOk x then .refuse ePlanFormat
        else
          match s.fitDeficits f p with
          | d :: ds => .deficit ePlanFit (d :: ds)
          | [] => .ok p

/-- Whether a PLAN_LOAD names a range of the first n x H bytes of the slot, 4 KiB to 256 MiB long (R25). -/
def Field.loadRange (x : Field) (ofs len : Nat) : Bool :=
  0x1000 ≤ len && len ≤ 0x10000000 && ofs + len ≤ x.dies.length * x.h

/-- The loader copies the plan's HBM initial contents into the windows (R36, Table 2.3g). -/
def State.copyInits (s : State) (p : Plan) : State :=
  s.forEach p.inits fun s r =>
    match dieOf r.tray r.die with
    | some d => s.onDie d fun y => y.sideWrite r.ofs r.data
    | none => s

end Sys2Proof.Machine
end

