-- ==== Sys2Proof/Machine/Tiles.lean ====
section
/-! DEFINITION. Sys2Proof/Machine/Tiles.lean: tiles and the mesh (03): tags and pairing, firing, credits, routes, memory
endpoints, ingress, drain markers and configuration. -/

namespace Sys2Proof.Machine

open Sys2Proof.Config (Loc TileOp)

/-! ### Mesh headers (Table 3.2) -/

/-- The check bits of a mesh header's bits [47:0] stand in [55:48] (Table 3.2); the code is not stated, so the byte is a free
value (log entry 40). -/
def meshHeader (k : Packet) : Nat :=
  let w := k.tag.toNat + 0x100 * (k.channel % 64) + (if k.half then 0x4000 else 0) + (if k.pair then 0x8000 else 0)
    + 0x10000 * (k.dest % 2048) + 0x8000000 * (k.src % 2048) + 0x4000000000 * (k.kind % 8)
    + (if k.poison then 0x20000000000 else 0) + 0x40000000000 * (k.egress % 8) + (if k.order then 0x200000000000 else 0)
  w + 0x1000000000000 * (Config.hdrEcc w).toNat

/-- The packet a mesh header and 64 payload bytes spell (Table 3.2). -/
def packetOf (h : Nat) (payload : List Byte) : Packet :=
  { tag := BitVec.ofNat 8 h, channel := h / 0x100 % 64, half := h.testBit 14, pair := h.testBit 15, dest := h / 0x10000 % 2048,
    src := h / 0x8000000 % 2048, kind := h / 0x4000000000 % 8, poison := h.testBit 41, egress := h / 0x40000000000 % 8,
    order := h.testBit 45, payload := BitVec.ofNat 512 (ofLe payload) }

/-! ### Names -/

/-- The plan a die's tiles run: its field's active plan. -/
def State.planOn (s : State) (d : DieId) : Option Plan := (s.fieldOf d).bind fun f => (s.field f).active

/-- The block of a plan for a die (R445). -/
def Plan.blockOf (p : Plan) (d : DieId) : Option Block := p.blocks.find? fun b => b.tray = d.tray.val && b.die = d.addr

/-- The channel record of an input channel of a tile on its die (Table 3.7). -/
def Plan.inRec (p : Plan) (d : DieId) (tile channel : Nat) : Option ChanRec :=
  (p.blockOf d).bind fun b => b.chans.find? fun c => c.kind ≠ 1 && c.dst = tile && c.channel = channel

/-- The record of the channel a source on the die sends a packet on (Table 3.7). -/
def Plan.outRec (p : Plan) (d : DieId) (k : Packet) : Option ChanRec :=
  (p.blockOf d).bind fun b => b.chans.find? fun c => c.kind ≠ 2 && c.src = k.src && c.dst = k.dest && c.channel = k.channel
    && (if c.kind = 1 then k.egress = c.port + 1 else k.egress = 0)

/-! ### Tags, pairing (R61, R62) -/

/-- The distance of a tag from T0 (R61). -/
def Tile.dist (x : Tile) (tag : Byte) : Nat := (tag - x.t0).toNat

/-- Whether the packet of an operand is in the queue. An operand that travels as a pair is present once both its halves are, which
R62 leaves open (DESIGN CHOICE, log entry 124). -/
def Tile.here (x : Tile) (channel : Nat) (tag : Byte) : Bool :=
  match x.queue.find? fun p => p.channel = channel && p.tag = tag with
  | none => false
  | some p => !p.pair || x.queue.any fun q => q.channel = channel && q.tag = tag && q.half ≠ p.half

/-- The rule that names a channel as operand (log entry 31). -/
def Tile.ruleFor (x : Tile) (channel : Nat) : Option Nat := x.rules.findIdx? fun r => r.operands.contains channel

/-- Marks an operand present in the entry of its rule and tag. -/
def Tile.mark (x : Tile) (rule : Nat) (tag : Byte) (channel : Nat) : Tile :=
  { x with pairs := x.pairs.map fun e =>
      if e.rule = rule ∧ e.tag = tag ∧ !e.present.contains channel then { e with present := e.present ++ [channel] } else e }

/-- A new entry: one of 0-14 for any eligible tag, entry 15 for T0 alone (R62). -/
def Tile.allocate (x : Tile) (rule : Nat) (tag : Byte) : Tile :=
  if (x.pairs.filter fun e => !e.reserved).length < 15 then
    { x with pairs := x.pairs ++ [{ rule := rule, tag := tag }], iterations := (x.iterations ++ [tag]).eraseDups }
  else if tag = x.t0 ∧ !(x.pairs.any (·.reserved)) then
    { x with pairs := x.pairs ++ [{ rule := rule, tag := tag, reserved := true }],
             iterations := (x.iterations ++ [tag]).eraseDups }
  else x

/-- Offers one packet of the queue to the pairing table (R62). -/
def Tile.offer (x : Tile) (p : Packet) : Tile :=
  match x.ruleFor p.channel with
  | none => x
  | some r =>
    let x := if x.pairs.any fun e => e.rule = r && e.tag = p.tag then x else x.allocate r p.tag
    if x.here p.channel p.tag then x.mark r p.tag p.channel else x

/-- Offers the eligible packets of the queue, oldest tag first (R61, R62). -/
def Tile.offerAll (x : Tile) : Tile :=
  (List.range 8).foldl (fun x d => (x.queue.filter fun p => x.dist p.tag = d).foldl Tile.offer x) x

/-! ### The input queue (R60, R69, R74) -/

/-- Entries of a channel in use. -/
def Tile.used (x : Tile) (channel : Nat) : Nat := (x.queue.filter fun p => p.channel = channel).length

/-- Entries of a channel: its bound (R60); a channel the tile does not have has none. -/
def Tile.entries (x : Tile) (channel : Nat) : Nat :=
  match x.ins.find? fun c => c.channel = channel with | some c => c.bound | none => 0

/-- A channel that expects tag `t` next, past tags whose substitutes have come early. -/
def InChan.expect : Nat → Byte → InChan → InChan
  | 0, t, c => { c with nextTag := t }
  | fuel + 1, t, c =>
    if c.early.contains t then InChan.expect fuel (t + 1) { c with early := c.early.erase t } else { c with nextTag := t }

/-- Whether a packet ends its turn on its channel: a single packet, or the second half of a pair. -/
def packetEnds (p : Packet) : Bool := !p.pair || p.half

/-- The next expected tag of a channel after a packet in arrival order: a pair advances it with its second half (R74). -/
def Tile.advance (x : Tile) (p : Packet) : Tile :=
  { x with ins := x.ins.map fun c => if c.channel = p.channel ∧ packetEnds p then c.expect c.early.length (p.tag + 1) else c }

/-- The next expected tag of a channel. -/
def Tile.nextTag (x : Tile) (channel : Nat) : Byte :=
  match x.ins.find? fun c => c.channel = channel with | some c => c.nextTag | none => x.t0

/-- The tag a channel expects once `n` packets that are still on their way have come: turns whose substitutes are early are taken
(R74; log entry 123). -/
def InChan.tagAfter : Nat → Nat → Byte → InChan → Byte
  | 0, _, t, _ => t
  | fuel + 1, n, t, c =>
    if c.early.contains t then InChan.tagAfter fuel n (t + 1) c
    else if n = 0 then t else InChan.tagAfter fuel (n - 1) (t + 1) c

/-- The tag of a channel's packet that comes after `n` others; with none before it the next expected tag. -/
def Tile.tagAfter (x : Tile) (channel n : Nat) : Byte :=
  match x.ins.find? fun c => c.channel = channel with
  | some c => if n = 0 then c.nextTag else c.tagAfter (n + c.early.length + 1) n c.nextTag
  | none => x.t0

/-- Notes that the turn of a substitute is taken: the next expected tag moves, or the tag is early (R74). -/
def Tile.took (x : Tile) (p : Packet) : Tile :=
  if p.tag = x.nextTag p.channel then x.advance p
  else { x with ins := x.ins.map fun c =>
      if c.channel = p.channel ∧ packetEnds p then { c with early := c.early ++ [p.tag] } else c }

/-- Queues a packet that has an entry. -/
def Tile.enqueue (x : Tile) (p : Packet) : Tile := ({ x with queue := x.queue ++ [p] }.advance p).offerAll

/-- The substitute for a packet lost with `ahead` packets of its channel still to come before it: its channel, the tag the channel
expects at its turn, poison (R74). It takes the lost packet's entry, or waits for one. -/
def Tile.substitute (x : Tile) (lost : Packet) (ahead : Nat) (payload : Line) : Tile :=
  let p := { lost with tag := x.tagAfter lost.channel ahead, poison := true, payload := payload }
  if x.used p.channel < x.entries p.channel then ({ x with queue := x.queue ++ [p] }.took p).offerAll
  else { x with owed := x.owed ++ [p] }.took p

/-- Substitutes that now have an entry enter the queue in order. -/
def Tile.settleOwed (x : Tile) : Tile :=
  x.owed.foldl (fun x p =>
    if x.used p.channel < x.entries p.channel then { x with queue := x.queue ++ [p], owed := x.owed.erase p } else x) x

/-- Whether a packet is a data packet of the channel of another, by its consumer, that ends its turn. -/
def packetPrecedes (p lost : Packet) : Bool :=
  p.kind = 0 && p.dest = lost.dest && p.channel = lost.channel && p.egress = lost.egress && packetEnds p

/-- How many of the packets precede a lost one on its channel. -/
def aheadOf (l : List Packet) (lost : Packet) : Nat := (l.filter (packetPrecedes · lost)).length

/-- The data packets on their way to the tiles of a die: in its mesh, then in the ingress entries of its ports. -/
def State.underway (s : State) (d : DieId) : List Packet :=
  ((s.die d).mesh.map (·.packet)) ++ (planPorts d).flatMap fun q => ((s.port q).planned.rxq.map (·.packet))

/-- The consumer tile of a die substitutes poison for a lost packet that `ahead` packets of its channel precede (R54, R69, R71,
R74). -/
def State.substitute (s : State) (d : DieId) (lost : Packet) (ahead : Nat) : State :=
  (s.onTile d lost.dest fun x => x.substitute lost ahead (Config.substitute s.free)).spend

/-- Poison for a packet lost on die `d`, at its consumer there or across the link it leaves by; `before` are the packets of the
die that precede it. -/
def State.substituteFrom (s : State) (d : DieId) (lost : Packet) (before : List Packet) : State :=
  if lost.egress = 0 then s.substitute d lost (aheadOf before lost)
  else if h : lost.egress - 1 < 5 then
    match (s.planOn d).bind fun pl => pl.peerOf ⟨d, ⟨lost.egress - 1, h⟩⟩ with
    | some q =>
      let far := { lost with egress := 0 }
      s.substitute q.die far (aheadOf before lost + aheadOf (s.underway q.die) far)
    | none => s
  else s

/-! ### The mesh (R53-R56) -/

/-- Round cycles a packet may use next at its injection: its channel's reserved cycles; cycles 4-63 for configuration
(R234); 0-3 for the rest (R55, R56), among them a response on a reply channel its endpoint does not source (R66; DESIGN CHOICE, log
entry 125). -/
def State.injectCycles (s : State) (d : DieId) (k : Packet) : Nat :=
  if k.kind = 1 then 2 ^ 64 - 16
  else
    match (s.planOn d).bind fun pl => pl.outRec d k with
    | some c => c.cycles
    | none => 15

/-- Puts packets into the mesh at their source's router (R55). -/
def State.inject (s : State) (d : DieId) (l : List Packet) : State :=
  let new := l.map fun k => ({ packet := k, router := routerOf k.src, cycles := s.injectCycles d k } : InFlight)
  s.onDie d fun x => { x with mesh := x.mesh ++ new }

/-- The router at which a packet leaves the mesh of its die. -/
def State.meshGoal (s : State) (d : DieId) (k : Packet) : Nat :=
  if k.egress = 0 then routerOf k.dest
  else match (s.planOn d).bind fun pl => pl.outRec d k with
    | some c => c.attach
    | none => routerOf k.dest

/-- A side packet uses cycles 0-3 and any cycle no loaded plan of the die's field, active or staged, reserves at the output
(R56). -/
def State.sideCycle (s : State) (d : DieId) (router out c : Nat) : Bool :=
  c < 4 || !((match s.fieldOf d with | some f => (s.field f).plans | none => []).any fun pl =>
    match pl.blockOf d with
    | some b => b.chans.any fun k => k.slots.contains ((router * 8 + out) * 64 + c)
    | none => false)

/-- A side packet: KIND 5, and memory traffic that no channel of the plan carries, which is that of the side-flow protocols
(R56). -/
def State.sidePacket (s : State) (d : DieId) (k : Packet) : Bool :=
  k.kind = 5 || ((k.kind = 3 || k.kind = 4) && ((s.planOn d).bind fun pl => pl.outRec d k).isNone)

/-- The output a packet in flight takes at its router: 4 the local port, 5 the egress entries of its attachment router, else the
direction of its route (R55, R68). -/
def State.outputOf (s : State) (d : DieId) (fl : InFlight) : Nat :=
  let goal := s.meshGoal d fl.packet
  if fl.router = goal then (if fl.packet.egress = 0 then 4 else 5) else meshDir fl.packet.order fl.router goal

/-- Whether no older packet among those of `g` waits for the same output (R56, R234): the mesh lists packets in the order of their
injection. -/
def State.oldestOf (s : State) (d : DieId) (g : Packet → Bool) (idx : Nat) (fl : InFlight) : Bool :=
  !(((s.die d).mesh.take idx).any fun e => !e.arrived && g e.packet && e.router = fl.router
    && s.outputOf d e = s.outputOf d fl)

/-- A configuration packet uses cycles 4-63; in a tailwater switch, of those the outgoing plan reserves at the output, only the ones
whose channel's marker has passed the router (R234). The dies of a field carry no other field's plan. -/
def State.cfgCycle (s : State) (d : DieId) (router out c : Nat) : Bool :=
  4 ≤ c &&
    match s.fieldOf d with
    | none => true
    | some f =>
      let tail : Bool := match (s.field f).switch with | some w => w.form = .tailwater | none => false
      !tail || (match ((s.field f).active).bind fun pl => pl.blockOf d with
        | some b => b.chans.all fun k =>
            !k.slots.contains ((router * 8 + out) * 64 + c) || (s.die d).passed.contains (k.src, k.dst, k.channel, router)
        | none => true)

/-- Whether the packet at place `idx` may leave its router in a round cycle: side packets and configuration packets in the cycles
open to them, oldest first among themselves, a packet of a channel in its own cycle (R55, R56, R234). -/
def State.mayLeave (s : State) (d : DieId) (idx : Nat) (fl : InFlight) (c : Nat) : Bool :=
  if s.sidePacket d fl.packet then s.sideCycle d fl.router (s.outputOf d fl) c && s.oldestOf d (s.sidePacket d) idx fl
  else if fl.packet.kind = 1 then
    s.cfgCycle d fl.router (s.outputOf d fl) c && s.oldestOf d (fun k => k.kind = 1) idx fl
  else fl.cycles.testBit c

/-- Notes that a drain marker has passed a router (R234). -/
def State.notePassed (s : State) (d : DieId) (router : Nat) (k : Packet) : State :=
  if k.kind = 2 then s.onDie d fun x => { x with passed := (x.passed ++ [(k.src, k.dest, k.channel, router)]).eraseDups } else s

/-- ROUTER_FORWARD: the packet at place `idx` of the die's mesh moves one router on in its cycle, a single-bit header error
corrected; an uncorrectable one discards it, with poison in its place on a planned channel (R54-R56). At its goal it leaves
through the local port, or enters the egress entries of its attachment router (R68). -/
def execRouterForward (d : DieId) (idx : Nat) (cycle : Fin 64) (err : HdrErr) (s : State) : Out :=
  if !d.isCompute then .fault .noSuchUnit
  else
    match (s.die d).mesh[idx]? with
    | none => .next s
    | some fl =>
      let k := fl.packet
      let out := s.outputOf d fl
      if fl.arrived ∨ !s.mayLeave d idx fl cycle.val then .next s
      else if err = .uncorrectable then
        let before := ((s.die d).mesh.take idx).map (·.packet)
        let s := s.onDie d fun x => { x with mesh := x.mesh.eraseIdx idx }
        let s := s.meshError d 0xE102 1 fl.router
        .next (if k.kind = 0 then s.substituteFrom d k before else s)
      else
        let s := (if err = .single then s.meshError d 0xE101 1 fl.router else s).notePassed d fl.router k
        if out = 5 then
          if h : k.egress - 1 < 5 then
            let s := s.onDie d fun x => { x with mesh := x.mesh.eraseIdx idx }
            .next (s.onPort ⟨d, ⟨k.egress - 1, h⟩⟩ fun y =>
              { y with planned := { y.planned with egress := y.planned.egress ++ [{ chan := k.channel, packet := k }] } })
          else .next s
        else
          let fl' : InFlight :=
            if out = 4 then { fl with arrived := true }
            else { fl with router := meshNext fl.router out, cycles := 2 ^ ((cycle.val + 1) % 64) }
          .next (s.onDie d fun x => { x with mesh := x.mesh.set idx fl' })

/-- A packet that waits at a local port leaves the mesh for its destination. -/
def State.takeArrived (s : State) (d : DieId) (g : Packet → Bool) : State :=
  s.onDie d fun x =>
    match x.mesh.findIdx? fun fl => fl.arrived && g fl.packet with
    | some i => { x with mesh := x.mesh.eraseIdx i }
    | none => x

/-! ### Arrivals at a tile -/

/-- MESH_PACKET_ARRIVAL: the levee of the local port (Table 11.4), the tag (R61), the queue entry (R69), pairing (R62). -/
def execMeshPacketArrival (d : DieId) (tile : Fin 1024) (p : Packet) (s : State) : Out :=
  if !d.isCompute then .fault .noSuchUnit
  else
    let s := s.takeArrived d (· == p)
    if (s.fieldOf d).isNone ∨ p.kind ≠ 0 ∨ p.dest ≠ tile.val then .next (s.meshError d 0xE107 1 tile.val)
    else
      let x := (s.die d).tile tile.val
      if 128 ≤ x.dist p.tag then .next (s.meshError d 0xE103 1 tile.val)
      else if x.entries p.channel ≤ x.used p.channel then
        .next ((s.meshError d 0xE104 1 tile.val).substitute d p 0)
      else .next (s.onTile d tile.val fun x => x.enqueue p)

/-! ### Firing (R58, R59, R63, R72, R73) -/

/-- Credits an output needs: one, or two for a pair (R59). -/
def outNeed (o : Nat × Nat × Bool) : Nat := if o.2.2 then 2 else 1

/-- The output channel of a rule's output. -/
def Tile.outOf (x : Tile) (o : Nat × Nat × Bool) : Option OutChan :=
  x.outs.find? fun c => c.dst = o.1 && c.channel = o.2.1

/-- Whether an entry's rule may fire: every operand present, credit on every output (R63). -/
def Tile.ready (x : Tile) (e : PairEnt) : Bool :=
  match x.rules[e.rule]? with
  | some r => r.operands.all e.present.contains &&
      r.outputs.all fun o => match x.outOf o with | some c => outNeed o ≤ c.credits | none => false
  | none => false

/-- The entry that fires: the smallest tag distance, then the lowest rule number (R63). -/
def Tile.pick (x : Tile) : Option PairEnt :=
  (x.pairs.filter x.ready).foldl (fun best e => match best with
    | none => some e
    | some b => if x.dist e.tag < x.dist b.tag ∨ (x.dist e.tag = x.dist b.tag ∧ e.rule < b.rule) then some e else best)
    none

/-- Whether a place holds poison, given the poisoned operand channels of the firing (R72). -/
def Tile.poisoned (x : Tile) (ops : List Nat) : Loc → Bool
  | .v n => x.poisonV.contains n.val
  | .s n => x.poisonS.contains n.val
  | .line n => x.poisonLines.contains n.val
  | .operand c => ops.contains c

/-- Writes one value to a place with its mark (R72). -/
def Tile.writeLoc (x : Tile) (loc : Loc) (value : BitVec 1024) (bad : Bool) : Tile :=
  match loc with
  | .v n => { x with v := NMap.set x.v n.val value, poisonV := putMark x.poisonV n.val bad }
  | .s n => { x with s := NMap.set x.s n.val (value.setWidth 32), poisonS := putMark x.poisonS n.val bad }
  | .line n => { x with sram := Memory.write x.sram (64 * n.val) (le 64 value.toNat),
                        poisonLines := putMark x.poisonLines n.val bad }
  | .operand _ => x

/-- The registers a destination takes: the aligned group that holds a vector register, the place itself else (R51). -/
def groupOf (loc : Loc) (g : Config.Group) : List Loc :=
  match loc with
  | .v n => (List.range g.size).map fun i => .v (Fin.ofNat 64 (n.val / g.size * g.size + i))
  | l => [l]

/-- The operations of a firing so far: the tile, whether a poisoned value supplied a predicate or an address (R73), and what the
error checks of the lines read have found (R52). -/
structure OpRun where
  tile : Tile
  bad : Bool := false
  errs : List HdrErr := []

/-- The error check of a place read, in the n-th firing: a line with a double-bit error is marked poisoned (R52). -/
def OpRun.check (n : Nat) (r : OpRun) (l : Loc) : OpRun :=
  match l with
  | .line k =>
    match Config.sramCheck n k.val with
    | .clean => r
    | .single => { r with errs := r.errs ++ [.single] }
    | .uncorrectable =>
      { r with errs := r.errs ++ [.uncorrectable], tile := { r.tile with poisonLines := putMark r.tile.poisonLines k.val true } }
  | _ => r

/-- A place of an operation whose SRAM address is poisoned: the line at offset 0 of the region the rule declares (R73). -/
def locAtLine (l : Loc) (n : Fin 4096) : Loc := match l with | .line _ => .line n | l => l

/-- An operation with the SRAM address its rule falls back to (R73). -/
def opAtLine (o : TileOp) (n : Fin 4096) : TileOp :=
  { o with srcs := o.srcs.map (locAtLine · n), dst := locAtLine o.dst n }

/-- Whether the place an operand of control comes from holds poison. -/
def Tile.badFrom {α : Type} (x : Tile) (ops : List Nat) (p : Option (Loc × α)) : Bool :=
  match p with | some q => x.poisoned ops q.1 | none => false

/-- One operation of the n-th firing. A poisoned predicate is false, and a false one leaves the operation undone; a poisoned
address is offset 0 of its region; either poisons the firing's outputs (R73). A poisoned source or address, or accumulation into a
poisoned group, leaves the destinations poisoned; an unpoisoned result clears them (R51, R72). -/
def Tile.runOp (ops : List Nat) (n : Nat) (r : OpRun) (o : TileOp) : OpRun :=
  let badPred := r.tile.badFrom ops o.predicate
  let badAddr := r.tile.badFrom ops o.address
  let r := { r with bad := r.bad || badPred || badAddr }
  let held := badPred || (match o.predicate with | some q => !q.2 | none => false)
  if held then r
  else
    let o := match o.address with | some q => if badAddr then opAtLine o q.2 else o | none => o
    let r := o.srcs.foldl (OpRun.check n) r
    let dsts := groupOf o.dst o.group
    let bad := badAddr || o.srcs.any (r.tile.poisoned ops) || (o.accumulates && dsts.any (r.tile.poisoned ops))
    { r with tile := dsts.zipIdx.foldl (fun x l => x.writeLoc l.1 (o.values l.2) bad) r.tile }

/-- The packets an output emits: one, or the two halves of a pair (R53, R58). -/
def emitOut (tile : Nat) (tag : Byte) (c : OutChan) (pair poison : Bool) (pay : Bool → Line) : List Packet :=
  let one := fun (half : Bool) =>
    ({ tag := tag, channel := c.channel, half := half, pair := pair, dest := c.dst, src := tile, kind := 0,
       poison := poison, egress := c.egress, order := c.order, payload := pay half } : Packet)
  if pair then [one false, one true] else [one false]

/-- An output channel with the credits of a firing of the rule taken (R59). -/
def Rule.charge (r : Rule) (c : OutChan) : OutChan :=
  { c with credits := c.credits - total ((r.outputs.filter fun o => o.1 = c.dst && o.2.1 = c.channel).map outNeed) }

/-- What a firing leaves: the tile, the packets it emits and consumes, and the memory errors it met. -/
structure Fired where
  tile : Tile
  out : List Packet
  used : List Packet
  errs : List HdrErr

/-- A firing of entry `e`: operands consumed, credits taken, operations run, every output emitted, poisoned if an operand
or the value sent is (R58, R59, R72, R73). `n` indexes the free values of the firing. -/
def Tile.fire (x : Tile) (tile n : Nat) (e : PairEnt) (r : Rule) : Fired :=
  let mine := fun (p : Packet) => r.operands.contains p.channel && p.tag = e.tag
  let used := x.queue.filter mine
  let bad := (used.filter (·.poison)).map (·.channel)
  let x := { x with queue := x.queue.filter fun p => !mine p, pairs := x.pairs.erase e,
                    ending := if r.isEnd then x.ending ++ [e.tag] else x.ending }
  let run := (Config.firing n).foldl (Tile.runOp bad n) { tile := x }
  let x := run.tile
  let out := r.outputs.zipIdx.flatMap fun o =>
    match x.outOf o.1 with
    | some c =>
      let poison := !bad.isEmpty || run.bad || (match Config.sendSource n o.2 with | some l => x.poisoned bad l | none => false)
      emitOut tile e.tag c o.1.2.2 poison fun half => Config.payload n (2 * o.2 + (if half then 1 else 0))
    | none => []
  let x := { x with outs := x.outs.map (r.charge) }
  ⟨x.settleOwed.offerAll, out, used, run.errs⟩

/-- A credit starts back to the source of a local channel (R59). -/
def State.creditBack (s : State) (d : DieId) (tile : Nat) (p : Packet) : State :=
  match (s.planOn d).bind fun pl => pl.inRec d tile p.channel with
  | some c =>
    let more := fun (l : List OutChan) => l.map fun o =>
      if o.dst = tile ∧ o.channel = p.channel then { o with fresh := o.fresh + 1 } else o
    if c.kind ≠ 0 then s
    else if c.src < 1024 then s.onTile d c.src fun x => { x with outs := more x.outs }
    else s.onDie d fun y =>
      let ep := NMap.get y.eps (c.src - 1024) {}
      { y with eps := NMap.set y.eps (c.src - 1024) { ep with outs := more ep.outs } }
  | none => s

/-- RULE_FIRE: the ready rule of the smallest tag distance fires (R63); nothing happens where none is ready. -/
def execRuleFire (d : DieId) (tile : Fin 1024) (s : State) : Out :=
  if !d.isCompute then .fault .noSuchUnit
  else
    let x := (s.die d).tile tile.val
    match x.pick with
    | none => .next s
    | some e =>
      match x.rules[e.rule]? with
      | none => .next s
      | some r =>
        let fired := x.fire tile.val s.free e r
        let s := (s.onTile d tile.val fun _ => fired.tile).spend
        let s := (s.forEach fired.used fun s p => s.creditBack d tile.val p).inject d fired.out
        .next (s.forEach fired.errs fun s e => s.memError d 0xE201 0xE202 1 tile.val e)

/-- T0 past every contiguous completed tag (R64). -/
def Tile.advanceT0 : Nat → Tile → Tile
  | 0, x => x
  | fuel + 1, x => if x.done.contains x.t0 then
      Tile.advanceT0 fuel { x with done := x.done.filter (· ≠ x.t0), t0 := x.t0 + 1 }
    else x

/-- ITERATION_COMPLETE: the end rule of a tag has retired; T0 advances past every contiguous completed tag (R64). -/
def execIterationComplete (d : DieId) (tile : Fin 1024) (tag : Byte) (s : State) : Out :=
  if !d.isCompute then .fault .noSuchUnit
  else
    .next (s.onTile d tile.val fun x =>
      if x.ending.contains tag then
        (Tile.advanceT0 8 { x with ending := x.ending.erase tag, iterations := x.iterations.filter (· ≠ tag),
                                   done := x.done ++ [tag] }).offerAll
      else x)

/-- A credit on the wires of a source reaches its counter (R59). -/
def landCredit (dst channel : Nat) (l : List OutChan) : List OutChan :=
  l.map fun o => if o.dst = dst ∧ o.channel = channel ∧ 0 < o.fresh then
    { o with fresh := o.fresh - 1, credits := min o.bound (o.credits + 1) } else o

/-- CREDIT_RETURN: a returned credit reaches its source's counter and serves later firings (R59). -/
def execCreditReturn (d : DieId) (src dst channel : Nat) (s : State) : Out :=
  if !d.isCompute then .fault .noSuchUnit
  else if src < 1024 then .next (s.onTile d src fun x => { x with outs := landCredit dst channel x.outs })
  else
    .next (s.onDie d fun y =>
      let ep := NMap.get y.eps (src - 1024) {}
      { y with eps := NMap.set y.eps (src - 1024) { ep with outs := landCredit dst channel ep.outs } })

/-! ### Memory endpoints (R65, R66) -/

/-- Memory endpoint `k` of a die. -/
def Die.ep (x : Die) (k : Nat) : Endpoint := NMap.get x.eps k {}

/-- Die `x` with endpoint `k` holding `e`. -/
def Die.setEp (x : Die) (k : Nat) (e : Endpoint) : Die := { x with eps := NMap.set x.eps k e }

/-- MEMORY_READ_REQUEST: at most one packet a tick; a request for another home is discarded with a contained error
(R65, R66). -/
def execMemoryReadRequest (d : DieId) (ep : Fin 32) (addr : Nat) (p : Packet) (reply t : Nat) (s : State) : Out :=
  if !d.isCompute then .fault .noSuchUnit
  else
    let s := s.clock t
    let e := (s.die d).ep ep.val
    if e.last = some s.now then .next s
    else
      let s := s.takeArrived d (· == p)
      if homeEndpoint addr ≠ ep.val then .next (s.meshError d 0xE106 3 ep.val)
      else .next (s.onDie d fun x => x.setEp ep.val
        { e with last := some s.now,
                 reqs := e.reqs ++ [{ addr := addr / 64 * 64, tag := p.tag, src := p.src, reply := reply, since := s.now }] })

/-- A poisoned planned write counts in POISON_COUNT of the running launch (R46). -/
def State.countPoison (s : State) (d : DieId) : State :=
  match s.fieldOf d with
  | some f => s.onField f fun x => { x with run := x.run.map fun r => { r with poison := sat32 r.poison } }
  | none => s

/-- MEMORY_WRITE: the line is stored, poisoned if the packet is, and counted and reported as a poison write (R46, R66). -/
def execMemoryWrite (d : DieId) (ep : Fin 32) (addr : Nat) (p : Packet) (t : Nat) (s : State) : Out :=
  if !d.isCompute then .fault .noSuchUnit
  else
    let s := s.clock t
    let e := (s.die d).ep ep.val
    if e.last = some s.now then .next s
    else
      let s := s.takeArrived d (· == p)
      if homeEndpoint addr ≠ ep.val then .next (s.meshError d 0xE106 3 ep.val)
      else
        let line := addr / 64
        let s := s.onDie d fun x =>
          { x.setEp ep.val { e with last := some s.now } with
              mem := Memory.write x.mem (64 * line) (le 64 p.payload.toNat),
              poison := putMark x.poison line p.poison }
        .next (if p.poison then (s.countPoison d).meshError d 0xE601 3 ep.val else s)

/-- MEMORY_READ_RESPONSE: the oldest request's line goes out on its reply channel with its tag, poisoned if the line is
marked, when the channel has a credit (R46, R59, R66). R66 does not say how much a request returns: one 64-byte line, in one packet
(DESIGN CHOICE, log entry 126); a channel the endpoint does not source has no credit to wait for (log entry 125). -/
def execMemoryReadResponse (d : DieId) (ep : Fin 32) (t : Nat) (s : State) : Out :=
  if !d.isCompute then .fault .noSuchUnit
  else
    let s := s.clock t
    let e := (s.die d).ep ep.val
    match e.reqs with
    | [] => .next s
    | q :: rest =>
      let chan := e.outs.find? fun c => c.dst = q.src && c.channel = q.reply
      let blocked : Bool := match chan with | some c => c.credits = 0 | none => false
      if blocked then .next s
      else
        let s := s.hbmRead d (q.addr / 64)
        let pay := BitVec.ofNat 512 (ofLe (Memory.read (s.die d).mem q.addr 64))
        let p : Packet :=
          { tag := q.tag, channel := q.reply, half := false, pair := false, dest := q.src, src := 1024 + ep.val, kind := 0,
            poison := (s.die d).poison.contains (q.addr / 64), egress := 0,
            order := (match chan with | some c => c.order | none => false), payload := pay }
        let outs := e.outs.map fun c =>
          if c.dst = q.src ∧ c.channel = q.reply then { c with credits := c.credits - 1 } else c
        .next ((s.onDie d fun x => x.setEp ep.val { e with reqs := rest, outs := outs }).inject d [p])

/-! ### Ingress (R68, R69) -/

/-- The record of an ingress channel of a port. -/
def Plan.ingressRec (p : Plan) (q : PortId) (k : Packet) : Option ChanRec :=
  (p.blockOf q.die).bind fun b => b.chans.find? fun c =>
    c.kind = 2 && c.port = q.port.val && c.dst = k.dest && c.channel = k.channel

/-- Ingress entries a channel of the port has: its bound, of the credit-bound section (R60). -/
def State.ingressBound (s : State) (q : PortId) (k : Packet) : Nat :=
  match s.planOn q.die with
  | some pl => (match pl.blockOf q.die, pl.ingressRec q k with | some b, some c => pl.boundAt b c | _, _ => 0)
  | none => 0

/-- A packet of a planned channel reaches the far attachment router: it takes an ingress entry, or is discarded with a
contained error and poison at its consumer (R69). A drain marker holds no credit and takes no entry of the channel's (R59, R75). -/
def State.ingressAdd (s : State) (q : PortId) (k : Packet) : State :=
  let same := ((s.port q).planned.rxq.filter fun e => e.packet.kind = 0 && e.packet.dest = k.dest && e.packet.channel = k.channel).length
  if k.kind = 2 ∨ same < s.ingressBound q k then
    s.onPort q fun y => { y with planned := { y.planned with rxq := y.planned.rxq ++ [{ chan := k.channel, packet := k }] } }
  else (s.meshError q.die 0xE104 2 q.port.val).substitute q.die k (aheadOf (s.underway q.die) k)

/-- INGRESS_INJECT: the oldest received packet of a port enters the mesh at its attachment router in its channel's next
reserved cycle; one beyond the channel's entries is discarded (R68, R69). -/
def execIngressInject (p : PortId) (s : State) : Out :=
  if !p.die.isCompute then .fault .noSuchUnit
  else
    match (s.port p).planned.rxq with
    | [] => .next s
    | e :: rest =>
      let s' := s.onPort p fun y => { y with planned := { y.planned with rxq := rest } }
      match (s.planOn p.die).bind fun pl => pl.ingressRec p e.packet with
      | none => .next ((s'.meshError p.die 0xE104 2 p.port.val).substitute p.die e.packet (aheadOf ((s.die p.die).mesh.map (·.packet)) e.packet))
      | some c =>
        let fl : InFlight := { packet := { e.packet with egress := 0, order := c.order }, router := c.attach, cycles := c.cycles }
        .next (s'.onDie p.die fun x => { x with mesh := x.mesh ++ [fl] })

/-! ### Draining (R75, R233) -/

/-- The drained state of R75: queue and pairing table empty, no iteration in flight, every credit returned. -/
def Tile.empty (x : Tile) : Bool :=
  x.queue.isEmpty && x.owed.isEmpty && x.pairs.isEmpty && x.iterations.isEmpty && x.ending.isEmpty
    && x.outs.all fun c => c.credits = c.bound

/-- The drain marker of an output channel (KIND 2). -/
def OutChan.marker (c : OutChan) (src : Nat) : Packet :=
  { tag := 0, channel := c.channel, half := false, pair := false, dest := c.dst, src := src, kind := 2, poison := false,
    egress := c.egress, order := c.order, payload := 0 }

/-- Whether a tile has a marker on every input channel that is not a back channel (R75, R233). -/
def Tile.marked (x : Tile) : Bool := x.ins.all fun c => c.back || x.markers.contains c.channel

/-- The levee of a local port for a drain or configuration packet: the die's own field (Table 11.4). -/
def State.localLevee (s : State) (d : DieId) (tile : Nat) : Option State :=
  if (s.fieldOf d).isNone then some (s.meshError d 0xE107 1 tile) else none

/-- DRAIN_MARKER_ARRIVAL: a marker counts on an input channel that is not a back channel, poisoned or not (R75, R233). -/
def execDrainMarkerArrival (d : DieId) (tile : Fin 1024) (channel : Nat) (s : State) : Out :=
  if !d.isCompute then .fault .noSuchUnit
  else
    let s := s.takeArrived d fun p => p.kind = 2 && p.dest = tile.val && p.channel = channel
    match s.localLevee d tile.val with
    | some s => .next s
    | none => .next (s.onTile d tile.val fun x =>
        if x.ins.any (fun c => c.channel = channel && !c.back) && !x.markers.contains channel then
          { x with markers := x.markers ++ [channel] } else x)

/-- TILE_DRAINED: in a drain wave, a tile with its markers that is drained forwards a marker on every output channel (R75,
R233). -/
def execTileDrained (d : DieId) (tile : Fin 1024) (s : State) : Out :=
  if !d.isCompute then .fault .noSuchUnit
  else
    let x := (s.die d).tile tile.val
    let wave : Bool := match s.fieldOf d with | some f => (s.field f).waving | none => false
    if wave ∧ x.marked ∧ x.empty ∧ !x.markersSent then
      let s := s.onTile d tile.val fun x => { x with drained := true, markersSent := true }
      .next (s.inject d (x.outs.map fun c => c.marker tile.val))
    else .next s

/-! ### Configuration (R234, R235) -/

/-- The plan a switch of the field brings in: the staged plan, or the active one reloaded in place (R229, R239). -/
def Field.incoming (x : Field) : Option Plan :=
  match x.switch with
  | some w => if w.staged then x.staged else x.active
  | none => none

/-- Configuration packets of a block for a tile, by DEST in their mesh headers, from the image (R445). -/
def State.cfgCount (s : State) (x : Field) (p : Plan) (b : Block) (tile : Nat) : Nat :=
  ((List.range b.packets).filter fun i =>
    fieldAt (s.slotBytes x (p.ofs + b.packetOfs + 72 * i) 8) 0 8 / 65536 % 2048 = tile).length

/-- CONFIG_PACKET_ARRIVAL: into the configuration buffer of 64 packets, or waiting in the mesh while it is full and the
tile not drained (R235); a poisoned one spoils the switch (R236). -/
def execConfigPacketArrival (d : DieId) (tile : Fin 1024) (p : Packet) (s : State) : Out :=
  if !d.isCompute then .fault .noSuchUnit
  else
    let s := s.takeArrived d (· == p)
    match s.localLevee d tile.val with
    | some s => .next s
    | none => .next (s.onTile d tile.val fun x =>
        let x := if p.poison then { x with cfgPoisoned := true } else x
        if x.cfg.length < 64 ∨ x.empty then { x with cfg := x.cfg ++ [p] }
        else { x with cfgWaiting := x.cfgWaiting ++ [p] })

/-- Input channels of a tile under a plan, in a partition of the queue by the bounds of the credit-bound section (R60). -/
def Plan.insOf (p : Plan) (d : DieId) (tile : Nat) : List InChan :=
  match p.blockOf d with
  | some b => (b.chans.filter fun c => c.kind ≠ 1 && c.dst = tile).map fun c =>
      { channel := c.channel, bound := p.boundAt b c, back := c.back }
  | none => []

/-- Output channels of a source under a plan, each with the bound of the credit-bound section as its credit (R59). -/
def Plan.outsOf (p : Plan) (d : DieId) (src : Nat) : List OutChan :=
  match p.blockOf d with
  | some b => (b.chans.filter fun c => c.kind ≠ 2 && c.src = src).map fun c =>
      { dst := c.dst, channel := c.channel, bound := p.boundAt b c, credits := p.boundAt b c, order := c.order,
        egress := if c.kind = 1 then c.port + 1 else 0, cycles := c.cycles }
  | none => []

/-- A tile after its switch: rules, channels, bounds and partition of the new plan, T0 0, no poison (R235). Registers and
SRAM keep their values. -/
def Tile.switchTo (x : Tile) (p : Plan) (d : DieId) (tile : Nat) : Tile :=
  { x with configured := true, rules := Config.rulesOf ((x.cfg ++ x.cfgWaiting).map (·.payload)), ins := p.insOf d tile,
           outs := p.outsOf d tile, t0 := 0, done := [], iterations := [], ending := [], poisonV := [], poisonS := [],
           poisonLines := [], markers := [], markersSent := false, drained := false, switched := true, cfg := [],
           cfgWaiting := [] }

/-- TILE_SWITCH: a drained tile that holds its whole configuration changes over (R235). In a tailwater switch the tile has
forwarded its markers. -/
def execTileSwitch (d : DieId) (tile : Fin 1024) (s : State) : Out :=
  if !d.isCompute then .fault .noSuchUnit
  else
    match s.fieldOf d with
    | none => .next s
    | some f =>
      let x := s.field f
      match x.switch, x.incoming.bind fun p => (p.blockOf d).map fun b => (p, b) with
      | some w, some (p, b) =>
        let y := (s.die d).tile tile.val
        let whole := s.cfgCount x p b tile.val ≤ y.cfg.length + y.cfgWaiting.length
        let drained := y.empty && (w.form ≠ .tailwater || y.drained || !y.configured)
        if b.tiles.any (·.tile = tile.val) ∧ whole ∧ drained ∧ !y.switched then
          .next (s.onTile d tile.val fun y => y.switchTo p d tile.val)
        else .next s
      | _, _ => .next s

end Sys2Proof.Machine
end

