-- ==== Sys2Proof/Machine/Side.lean ====
section
/-! DEFINITION. Sys2Proof/Machine/Side.lean: side-flow messages and accounts: headers, classes, credits, requests and their
ends, segmentation, holding and routes (R174-R178, R184, R192-R200). -/

namespace Sys2Proof

namespace Machine

/-- The credited channel of an opcode: 0 MEM_REQ, 1 COH_REQ, 2 INT, 3 DBG_REQ, 4 ALARM (Table 7.4). -/
def creditChan (op : Nat) : Option (Fin 5) :=
  if 0x10 ≤ op ∧ op ≤ 0x13 then some 0
  else if op = 0x20 ∨ op = 0x24 then some 1
  else if op = 0x30 then some 2
  else if op = 0x40 ∨ op = 0x41 then some 3
  else if op = 0x50 ∨ op = 0x51 then some 4
  else none

/-- Responses (R184). -/
def isReply (op : Nat) : Bool := [0x18, 0x19, 0x21, 0x23, 0x48].contains op

end Machine

open Machine

/-- The byte of a die in a message header: address [5:0], tray [7:6] (Table 7.2). -/
def DieId.sideByte (d : DieId) : Nat := d.addr + 64 * d.tray.val

/-- The 16 bytes of a message header (Table 7.2). -/
def Hdr.bytes (h : Hdr) : List Byte :=
  le 1 h.opcode ++ le 1 (h.field % 16 + 16 * (h.space % 8)) ++ le 1 h.dst.sideByte ++ le 1 h.src.sideByte
    ++ le 1 h.dstUnit ++ le 1 h.srcUnit ++ le 2 (h.tag % 4096 + 4096 * h.cstatus) ++ le 2 h.len ++ le 6 h.addr

/-- The class of a message (Table 7.4); CREDIT and CENSUS travel in the class of their channel. -/
def Hdr.cls (h : Hdr) : Nat :=
  if h.opcode = 0x01 ∨ h.opcode = 0x02 then h.addr % 256 + 1
  else if h.opcode < 0x10 then 5
  else if h.opcode < 0x20 then 1
  else if h.opcode < 0x30 then 2
  else if h.opcode < 0x40 then 3
  else if h.opcode < 0x50 then 4
  else 5

/-- Cells a message takes (R192). -/
def Hdr.cells (h : Hdr) : Nat := ceilDiv (16 + h.len) 64

/-- The requester a message names: its destination for responses, else its source (R197, R199). -/
def Hdr.requester (h : Hdr) : DieId := if isReply h.opcode then h.dst else h.src

/-- The account a message uses, if its opcode is credited and its field a field. -/
def Hdr.acct (h : Hdr) : Option AcctId :=
  match creditChan h.opcode with
  | some c => if hf : h.field < 9 then some ⟨h.src, h.dst, ⟨h.field, hf⟩, c⟩ else none
  | none => none

namespace Machine

/-! ### Messages (R174, R178) -/

/-- The header 16 bytes spell; none where they name no die. -/
def hdrOf (bs : List Byte) : Option Hdr :=
  let dst := fieldAt bs 2 1
  let src := fieldAt bs 3 1
  match dieOf (dst / 64) (dst % 64), dieOf (src / 64) (src % 64) with
  | some a, some b =>
    some { opcode := fieldAt bs 0 1, field := fieldAt bs 1 1 % 16, space := fieldAt bs 1 1 / 16 % 8, dst := a, src := b,
           dstUnit := fieldAt bs 4 1, srcUnit := fieldAt bs 5 1, tag := fieldAt bs 6 2 % 4096,
           cstatus := fieldAt bs 6 2 / 4096, len := fieldAt bs 8 2, addr := fieldAt bs 10 6 }
  | _, _ => none

/-- Requests that expect a response (R184). -/
def expectsReply (op : Nat) : Bool := [0x10, 0x12, 0x13, 0x20, 0x40, 0x41].contains op

/-- A message between units of two dies. -/
def mkMsg (op field : Nat) (src dst : DieId) (srcUnit dstUnit tag cst addr : Nat) (data : List Byte) : Msg :=
  { h := { opcode := op, field := field, space := 0, dst := dst, src := src, dstUnit := dstUnit, srcUnit := srcUnit,
           tag := tag, cstatus := cst, len := data.length, addr := addr }, data := data }

/-- A message of the link and account layer, between the memory services of two dies (log entry 32). -/
def mkLayer (op field : Nat) (src dst : DieId) (addr : Nat) (data : List Byte) : Msg :=
  mkMsg op field src dst 0x10 0x10 0 0 addr data

/-- Units of a die (Table 7.3). -/
def unitPresent (d : DieId) (u : Nat) : Bool :=
  if d.slot = 0 then u < 4 || u = 0x08 || u = 0x10 || u = 0x18 || u = 0x1C
  else u < 2 || u = 0x10 || u = 0x18 || u = 0x1C

/-- Queues a message at a die for its first hop. -/
def State.send (s : State) (m : Msg) : State :=
  s.onDie m.h.src fun x => { x with side := { x.side with outbox := x.side.outbox ++ [m] } }

/-- Whether a die of this tray is out of reset; a die of another tray is taken to be. One under TESTMODE takes no part in the tray
(R225, R226). -/
def State.dieUp (s : State) (d : DieId) : Bool :=
  d.tray ≠ s.span.num || (!(s.die d).boot.testMode && ((s.die d).boot.st = .bootRom || (s.die d).boot.st = .firmware))

/-- A message discarded and counted in a die's trouble log: SF_DISCARD, corrected (R176, R179, R200). -/
def State.sfDiscard (s : State) (d : DieId) (field : Nat) : State :=
  s.report d { code := 0xE505, field := if field = 0 then 0xFF else field }

/-! ### Accounts (R192-R194, R203) -/

/-- A key of an account at one of its dies: the other die, field, channel. -/
def acctKey (other : DieId) (field : Fin 9) (chan : Fin 5) : Nat := (other.key * 9 + field.val) * 5 + chan.val

/-- Whether an account is open: F0 between every two dies of the span; a user field's between its dies, and between each of
them and each I/O die (R192). -/
def State.acctOpen (s : State) (a : AcctId) : Bool :=
  s.trays.contains a.src.tray && s.trays.contains a.dst.tray &&
  (match chanField a.field with
   | none => true
   | some f =>
     let m := fun (d : DieId) => (s.field f).dies.contains d
     (s.field f).live && ((m a.src && m a.dst) || (m a.src && !a.dst.isCompute) || (!a.src.isCompute && m a.dst)))

/-- Open MEM_REQ accounts whose sink is an I/O die (R193). -/
def State.memAccounts (s : State) (d : DieId) : Nat :=
  (s.allDies.flatMap fun e => (List.finRange 9).filter fun f => s.acctOpen ⟨e, d, f, 0⟩).length

/-- The initial grant of an account: Table 7.1, MEM_REQ at an I/O die scaled to 1 MiB and never below 5 cells (R193). -/
def State.initialGrant (s : State) (a : AcctId) : Nat :=
  if a.chan = 0 then
    (if a.dst.isCompute then 32 else min 32 (max 5 (16384 / max 1 (s.memAccounts a.dst))))
  else if a.chan = 1 then 8 else 4

/-- Counters of an account are 16-bit where an HX-1 is an end (R203). -/
def acctMod (a : AcctId) : Nat := if a.src.isCompute ∧ a.dst.isCompute then 0x100000000 else 0x10000

/-- Difference of two counters modulo their width. -/
def modSub (m a b : Nat) : Nat := (a + m - b % m) % m

/-- The source end of an account; an account not yet used is at its initial grant under the sink's epoch. -/
def State.acctSrc (s : State) (a : AcctId) : AcctSrc :=
  NMap.get (s.die a.src).side.sources (acctKey a.dst a.field a.chan)
    { grantSeen := s.initialGrant a, epoch := (s.die a.dst).trb.epoch }

/-- The sink end of an account. -/
def State.acctSink (s : State) (a : AcctId) : AcctSink :=
  NMap.get (s.die a.dst).side.sinks (acctKey a.src a.field a.chan)
    { granted := s.initialGrant a, reported := s.initialGrant a }

/-- The state with the source end holding `x`. -/
def State.setAcctSrc (s : State) (a : AcctId) (x : AcctSrc) : State :=
  s.onDie a.src fun y => { y with side := { y.side with sources := NMap.set y.side.sources (acctKey a.dst a.field a.chan) x } }

/-- The state with the sink end holding `x`. -/
def State.setAcctSink (s : State) (a : AcctId) (x : AcctSink) : State :=
  s.onDie a.dst fun y => { y with side := { y.side with sinks := NMap.set y.side.sinks (acctKey a.src a.field a.chan) x } }

/-- A message reaches its sink and is consumed: RECEIVED, and GRANTED for the cells released (R194). -/
def State.arrive (s : State) (h : Hdr) : State :=
  match h.acct with
  | some a =>
    let k := s.acctSink a
    let m := acctMod a
    s.setAcctSink a { k with received := (k.received + h.cells) % m, granted := (k.granted + h.cells) % m,
                             firstUnreported := some (k.firstUnreported.getD s.now) }
  | none => s

/-- An account restarts: counters at 0, grants at the initial grant, under an epoch (R197). -/
def State.resetAcct (s : State) (a : AcctId) (epoch : Byte) : State :=
  (s.setAcctSrc a { grantSeen := s.initialGrant a, epoch := epoch }).setAcctSink a
    { granted := s.initialGrant a, reported := s.initialGrant a }

/-! ### Requests and their timers (R184, R198-R200) -/

/-- Whether a port may sequence side flow: UP, not replaying, not in quarantine, not disabled by force (R163, R171, R172,
R246). -/
def Port.flowing (y : Port) : Bool :=
  y.link.st = .up && !y.side.replaying && y.err.level ≠ .quarantine && !y.link.forced

/-- Whether the timer of a request runs: the first-hop port UP and not replaying, no ROUTE_HOLD standing (R198). -/
def State.timerRuns (s : State) (d : DieId) (q : OutReq) : Bool :=
  (s.die d).side.holds.isEmpty &&
  (match s.nextPort d d q.dst with
   | some p => (s.port ⟨d, p⟩).link.st = .up && !(s.port ⟨d, p⟩).side.replaying
   | none => true)

/-- Brings the running time of every request of a die up to now; called before anything that starts or stops timers. -/
def State.settleTimers (s : State) (d : DieId) : State :=
  let reqs := (s.die d).side.reqs.map fun q =>
    { q with ran := if s.timerRuns d q then q.ran + (s.now - q.lastRun) else q.ran, lastRun := s.now }
  s.onDie d fun x => { x with side := { x.side with reqs := reqs } }

/-- Brings the timers of every die up to now. -/
def State.settleAllTimers (s : State) : State := s.forEach s.allDies State.settleTimers

/-- The outstanding request of a unit and TAG. -/
def Die.req (x : Die) (unit tag : Nat) : Option OutReq := x.side.reqs.find? fun q => q.unit = unit && q.tag = tag

/-- A request ends with a status and data: its TAG is free and its result stands for its unit (R184). -/
def Die.endReq (x : Die) (unit tag status : Nat) (data : List Byte) : Die :=
  { x with side := { x.side with reqs := x.side.reqs.filter fun q => !(q.unit = unit && q.tag = tag),
                                 results := x.side.results ++ [{ unit := unit, tag := tag, status := status, data := data }] } }

/-- A request the source is told is lost: E_SF_LOST, deferred; a timed-out one only frees its TAG (R197, R200). -/
def State.loseReq (s : State) (d : DieId) (unit tag : Nat) : State :=
  match (s.die d).req unit tag with
  | some q =>
    if q.ended.isSome then
      s.onDie d fun x => { x with side := { x.side with reqs := x.side.reqs.filter fun q => !(q.unit = unit && q.tag = tag) } }
    else
      (s.onDie d fun x => x.endReq unit tag eSfLost []).report d
        { code := 0xE504, field := if q.field = 0 then 0xFF else q.field }
  | none => s

/-- Every outstanding request of a die that a condition names is lost. -/
def State.loseReqs (s : State) (d : DieId) (g : OutReq → Bool) : State :=
  s.forEach ((s.die d).side.reqs.filter g) fun s q => s.loseReq d q.unit q.tag

/-- The request status of a completion status (Table 7.7). -/
def requestStatus (cst : Nat) : Nat :=
  if cst = 0 then 0 else if cst = 1 then eSfUnsupported else if cst = 2 then eSfRefused
  else if cst = 3 then eSfPoisoned else if cst = 4 then eSfTarget else cst

/-- A response reaches its requester: the request ends with its status; a late or unknown one is discarded and counted,
and frees the TAG of a request that timed out (R184, R200). A completion in the tick of the expiry is accepted. -/
def State.complete (s : State) (h : Hdr) (data : List Byte) : State :=
  let d := h.dst
  match (s.die d).req h.dstUnit h.tag with
  | some q =>
    if q.ended.isSome ∧ q.ended ≠ some s.now then
      (s.onDie d fun x =>
        { x with side := { x.side with reqs := x.side.reqs.filter fun q => !(q.unit = h.dstUnit && q.tag = h.tag) } }).sfDiscard
        d h.field
    else
      s.onDie d fun x =>
        ({ x with side := { x.side with results := x.side.results.filter fun r =>
            !(q.ended.isSome && r.unit = h.dstUnit && r.tag = h.tag && r.status = eSfTimeout) } }).endReq
          h.dstUnit h.tag (requestStatus h.cstatus) data
  | none => s.sfDiscard d h.field

/-- A response from the die a request reached, to its requester (R184). -/
def State.respond (s : State) (h : Hdr) (op cst : Nat) (data : List Byte) : State :=
  s.send (mkMsg op h.field h.dst h.src h.dstUnit h.srcUnit h.tag cst h.addr data)

/-- The response without data a request draws when nothing is performed. -/
def bareReply (op : Nat) : Nat := if op = 0x20 then 0x21 else if op = 0x40 ∨ op = 0x41 then 0x48 else 0x19

/-- The side-flow opcodes of Table 7.4; the others are reserved (R178). -/
def knownOp (op : Nat) : Bool :=
  [0x01, 0x02, 0x03, 0x04, 0x05, 0x10, 0x11, 0x12, 0x13, 0x18, 0x19, 0x20, 0x21, 0x22, 0x23, 0x24, 0x30, 0x40, 0x41, 0x48, 0x50,
   0x51].contains op

/-- UNSUPPORTED, or a discard for what expects no response (R176, R178). -/
def State.unsupported (s : State) (h : Hdr) : State :=
  if expectsReply h.opcode then s.respond h (bareReply h.opcode) 1 [] else s.sfDiscard h.dst h.field

/-- REFUSED, or a discard of a posted write (R179). -/
def State.refuse (s : State) (h : Hdr) : State :=
  if expectsReply h.opcode then s.respond h (bareReply h.opcode) 2 [] else s.sfDiscard h.dst h.field

/-! ### Holding (R163, R165, R175, R199) -/

/-- Bytes of a message a flit of the port carries: 54 on KL2, 22 on KL1 (R175). -/
def Port.msgBytes (y : Port) : Nat := if y.link.kl2 then 54 else 22

/-- The flits of a message on a port (R175). -/
def segment (n : Nat) (m : Msg) : List Flit :=
  let bs := m.h.bytes ++ m.data
  let k := max 1 (ceilDiv bs.length n)
  (List.range k).map fun i =>
    { cls := m.h.cls, part := i = 0, last := i + 1 = k, field := m.h.field, bytes := slice bs (n * i) n, msg := some m.h }

/-- Flits a field's hold region takes: 64 bytes each (R160). -/
def Port.holdRoom (y : Port) (field : Nat) : Nat := NMap.get y.pond.holds field 0 / 64

/-- The flits that have spilled to the replay region: all unacknowledged ones but the newest 2,048, which stay on chip (R159). -/
def SideTx.spilled (x : SideTx) : List SeqFlit := x.unacked.take (x.unacked.length - 2048)

/-- The unacknowledged flits on chip (R159). -/
def SideTx.onChip (x : SideTx) : List SeqFlit := x.unacked.drop (x.unacked.length - 2048)

/-- Bytes of a replay-region entry, one flit each: 64 on KL2, 32 on KL1 (R159). -/
def Port.replayEntry (y : Port) : Nat := if y.link.kl2 then 64 else 32

/-- Bytes of the replay region in use (R159). -/
def Port.replayUsed (y : Port) : Nat := y.replayEntry * y.side.spilled.length

/-- Whether the pond of a port holds any flit, spilled or waiting (R159, R160). -/
def Port.pondBusy (y : Port) : Bool := !y.side.spilled.isEmpty || !y.side.hold.isEmpty

/-- Flits of a field that wait in its hold region. -/
def Port.held (y : Port) (field : Nat) : Nat := (y.side.hold.filter fun z => z.field = field).length

/-- The messages of flits in the order of their streams, one for each: at its first flit, or at the first flit left of one whose head
is gone. `seen` lists the field and class streams met. -/
def msgsOf : List (Nat × Nat) → List Flit → List Hdr
  | _, [] => []
  | seen, z :: rest =>
    let key := (z.field, z.cls)
    match z.msg with
    | some h => if z.part ∨ !seen.contains key then h :: msgsOf (key :: seen) rest else msgsOf seen rest
    | none => msgsOf seen rest

/-- The messages a port holds, unacknowledged and unsequenced, each by its header. -/
def Port.heldMsgs (y : Port) : List Hdr := msgsOf [] (y.side.unacked.map (·.flit) ++ y.side.hold)

/-- A die takes note of a ROUTE_HOLD or ROUTE_CLEAR of another, or of itself (R198). -/
def State.noteHold (s : State) (d src : DieId) (on : Bool) : State :=
  (s.settleTimers d).onDie d fun x =>
    { x with side := { x.side with holds := (x.side.holds.filter (· ≠ src)) ++ (if on then [src] else []) } }

/-- Sends ROUTE_HOLD or ROUTE_CLEAR from a die to a requester; to a unit of its own it needs no message (R199). -/
def State.tellHold (s : State) (d who : DieId) (on : Bool) : State :=
  if who = d then s.noteHold d d on else s.send (mkLayer (if on then 0x04 else 0x05) 0 d who 0 [])

/-- Sends ROUTE_HOLD from the die of a port to a requester that has none from it yet for this port (R199). -/
def State.routeHold (s : State) (p : PortId) (who : DieId) : State :=
  if (s.port p).side.heldFor.contains who then s
  else
    let first : Bool := (diePorts p.die).all fun q => !(s.port q).side.heldFor.contains who
    let s := s.onPort p fun y => { y with side := { y.side with heldFor := y.side.heldFor ++ [who] } }
    if first then s.tellHold p.die who true else s

/-- ROUTE_HOLD to every requester a port holds messages of (R199). -/
def State.routeHoldAll (s : State) (p : PortId) : State :=
  s.forEach ((s.port p).heldMsgs.map Hdr.requester |>.eraseDups) fun s d => s.routeHold p d

/-- ROUTE_CLEAR to each requester whose messages no port of the die holds any more in such a state: the port flows again, or holds
none of the requester's messages (R199). -/
def State.routeClear (s : State) (p : PortId) : State :=
  let y := s.port p
  let here := if y.flowing then [] else y.heldMsgs.map Hdr.requester
  s.forEach (y.side.heldFor.filter fun who => !here.contains who) fun s who =>
    let s := s.onPort p fun y => { y with side := { y.side with heldFor := y.side.heldFor.erase who } }
    if (diePorts p.die).all fun q => !(s.port q).side.heldFor.contains who then s.tellHold p.die who false else s

/-- LOST_NOTICE for a discarded message, to its requester (R197). -/
def State.lostNotice (s : State) (d : DieId) (h : Hdr) : State :=
  s.send (mkLayer 0x03 h.field d h.requester 0 h.bytes)

/-- Discards the held flits of a port that a condition names, with LOST_NOTICE for each message (R165, R197, R242). -/
def State.discardHeld (s : State) (p : PortId) (g : Flit → Bool) : State :=
  let y := s.port p
  let lost := msgsOf [] (y.side.hold.filter g)
  let s := s.setPort p { y with side := { y.side with hold := y.side.hold.filter fun z => !g z } }
  (s.forEach lost fun s h => s.lostNotice p.die h).routeClear p

/-- Ends the stream of a port (R165): everything it holds is discarded and each message reported, and both numbers restart at 0. A
REPLAY_SYNC of this end that has not left yet goes with them (R164). -/
def State.endStream (s : State) (p : PortId) : State :=
  let lost := (s.port p).heldMsgs
  let s := s.onPort p fun y =>
    { y with side := { y.side with hold := [], unacked := [], next := 0, expected := 0, replayAt := none, replayFrom := none,
                                   replaying := false, rx := [], lastNak := none, ackOwed := false, synced := true,
                                   lc := (y.side.lc.filter fun m => m.type = 0x03).map fun m => { m with body := le 4 0 },
                                   lcWaiting := [] } }
  (s.forEach lost fun s h => s.lostNotice p.die h).routeClear p

/-- Whether a message is a field's own: only a die's own field counts it (R284). -/
def State.ownField (s : State) (d : DieId) (field : Nat) : Bool := field ≠ 0 && s.fieldNumOf d = field

/-- Changes the counters of a die's field. -/
def State.onCnt (s : State) (d : DieId) (g : FieldCnt → FieldCnt) : State := s.onDie d fun x => { x with cnt := g x.cnt }

end Machine
end Sys2Proof
end

