-- ==== Sys2Proof/Machine/SideFlow.lean ====
section
/-! DEFINITION. Sys2Proof/Machine/SideFlow.lean: the side-flow commands: forwarding, credits and census, lost messages,
routes, memory, coherence, interrupts and request timers (R175-R200). -/

namespace Sys2Proof.Machine

/-! ### Forwarding (R175, R177, R192, R194) -/

/-- A message leaves its die's queues. -/
def State.unqueue (s : State) (m : Msg) : State :=
  s.onDie m.h.src fun x =>
    { x with side := { x.side with outbox := x.side.outbox.erase m, alarms := x.side.alarms.erase m } }

/-- Whether a flit belongs to the stream of a message: its field and class (R154). -/
def msgStream (m : Msg) (z : Flit) : Bool := z.field = m.h.field && z.cls = m.h.cls

/-- The flits of a stream up to the first that ends a message, with what follows; none before a whole message has come. -/
def cutMsg : List Flit → Option (List Flit × List Flit)
  | [] => none
  | z :: rest => if z.last then some ([z], rest) else (cutMsg rest).map fun e => (z :: e.1, e.2)

/-- The flits of the first whole message of a stream that is the named one, and the rest of the stream without them; a message of the
same source and destination that came before must go first (R175, R177). `fuel` bounds the messages looked at. -/
def pickMsg (m : Msg) : Nat → List Flit → Option (List Flit × List Flit)
  | 0, _ => none
  | fuel + 1, l =>
    match cutMsg l with
    | none => none
    | some (a, rest) =>
      let h := a.head?.bind (·.msg)
      if h = some m.h ∧ (a.flatMap (·.bytes)).take (16 + m.data.length) = m.h.bytes ++ m.data then some (a, rest)
      else if h.any fun k => k.src = m.h.src && k.dst = m.h.dst then none
      else (pickMsg m fuel rest).map fun e => (e.1, a ++ e.2)

/-- Whether the message stands reassembled, whole and next in its order, at a port (R175, R177). -/
def Port.assembled (y : Port) (m : Msg) : Bool :=
  let l := y.side.rx.filter (msgStream m)
  (pickMsg m l.length l).isSome

/-- The message is taken from the reassembly of the port it came by. -/
def State.unassemble (s : State) (p : PortId) (m : Msg) : State :=
  s.onPort p fun y =>
    let l := y.side.rx.filter (msgStream m)
    match pickMsg m l.length l with
    | some (_, rest) => { y with side := { y.side with rx := (y.side.rx.filter fun z => !msgStream m z) ++ rest } }
    | none => y

/-- Most requests a unit of a die may have outstanding (R184, Table 7.1). -/
def reqLimit (d : DieId) : Nat := if d.isCompute then 4096 else 1024

/-- Puts a message's flits into its field's hold region of a port, with ROUTE_HOLD while the port cannot sequence; none
where the region is full (R160, R163, R199). -/
def State.queueOut (s : State) (p : PortId) (m : Msg) : Option State :=
  let y := s.port p
  let l := segment y.msgBytes m
  if y.holdRoom m.h.field < y.held m.h.field + l.length then none
  else
    let s := s.setPort p { y with side := { y.side with hold := y.side.hold ++ l } }
    some (if y.flowing then s else s.routeHold p m.h.requester)

/-- A message goes one hop on from a die, or stays for its destination's own command; one of a reserved opcode, which has none, ends
there (R176, R178). -/
def State.hop (s : State) (d : DieId) (m : Msg) : Option State :=
  if m.h.dst = d then some (if knownOp m.h.opcode then s else s.unsupported m.h)
  else match s.nextPort d m.h.src m.h.dst with
    | some q => s.queueOut ⟨d, q⟩ m
    | none => some s

/-- A message that meets a full hold region waits where it is, and the meeting is counted for the die's field (R163,
R284). -/
def State.blocked (s : State) (d : DieId) (field : Nat) : State :=
  if s.ownField d field then s.onCnt d fun c => { c with holdFull := sat32 c.holdFull } else s

/-- Where a die's INT_MSG of a field goes: the I/O die its interrupt target table names, or the trouble sink of its tray. The server
writes one and the same table to every die at each change of ownership, so it is held once (R189; log entry 142). -/
def State.intTarget (s : State) (d : DieId) (field : Nat) : DieId :=
  match NMap.get s.targets field none with
  | some n => ⟨s.span.num, n, 0⟩
  | none => if d.tray = s.span.num then s.sink else ⟨d.tray, 0, 0⟩

/-- A message as its source addresses it: an INT_MSG by the target table (R189). -/
def State.addressed (s : State) (d : DieId) (m : Msg) : Msg :=
  if m.h.opcode = 0x30 then { m with h := { m.h with dst := s.intTarget d m.h.field, dstUnit := 0x08 } } else m

/-- Whether an earlier message of the same destination, field, class and credited channel still waits at its source (R177; log entry
143). -/
def State.outOfTurn (s : State) (d : DieId) (m : Msg) : Bool :=
  ((s.die d).side.outbox.takeWhile (· ≠ m)).any fun k =>
    (s.die d).side.outbox.contains m && k.h.dst = m.h.dst && k.h.field = m.h.field && k.h.cls = m.h.cls
      && creditChan k.h.opcode = creditChan m.h.opcode

/-- Whether a unit may not send a message: debug from other than rider cores and host port engines or in a user field, a TAG an HX-1
does not issue (R190, R202). -/
def barred (d : DieId) (h : Hdr) : Bool :=
  ((h.opcode = 0x40 || h.opcode = 0x41) && (h.field ≠ 0 || !(h.srcUnit < 4 || h.srcUnit = 0x08) || !unitPresent d h.srcUnit))
    || (expectsReply h.opcode && reqLimit d ≤ h.tag)

/-- A RELEASE that leaves takes the line from its owner's cache (R185, R186). -/
def State.giveUp (s : State) (d : DieId) (h : Hdr) : State :=
  if h.opcode = 0x24 then
    s.onDie d fun x => { x with side := { x.side with cache := x.side.cache.filter fun c => !(c.home = h.dst && c.line = h.addr / 64) } }
  else s

/-- A message leaves its source: in its turn, its account open and with room, its TAG free; a request expecting a response starts its
timer. What may not be sent never leaves (R177, R184, R189, R190, R192, R194, R198, R202). A RELEASE of a line that is modified and
poisoned waits for INVAL, whose answer can say so (log entry 141). -/
def State.launchMsg (s : State) (d : DieId) (m0 : Msg) : State :=
  let m := s.addressed d m0
  let h := m.h
  let isReq := expectsReply h.opcode
  let busy : Bool := isReq && (((s.die d).req h.srcUnit h.tag).isSome
    || reqLimit d ≤ ((s.die d).side.reqs.filter fun q => q.unit = h.srcUnit).length)
  let stuck : Bool := h.opcode = 0x24 &&
    (s.die d).side.cache.any fun c => c.home = h.dst && c.line = h.addr / 64 && c.dirty && c.bad
  if barred d h ∨ busy ∨ stuck ∨ s.outOfTurn d m0 then s
  else
  let sent := fun (s : State) =>
    let s := if isReq then
        s.onDie d fun x =>
          let q : OutReq := { unit := h.srcUnit, tag := h.tag, dst := h.dst, field := h.field, opcode := h.opcode,
                              sentAt := s.now, lastRun := s.now }
          { x with side := { x.side with reqs := x.side.reqs ++ [q] } }
      else s.giveUp d h
    if s.ownField d h.field then s.onCnt d fun c => { c with sourced := sat32 c.sourced } else s
  match creditChan h.opcode, h.acct with
  | none, _ => (match (s.unqueue m0).hop d m with | some s => sent s | none => s.blocked d h.field)
  | some _, none => (s.unqueue m0).sfDiscard d h.field
  | some _, some a =>
    if !s.acctOpen a then
      (if isReq then (s.unqueue m0).onDie d fun x => x.endReq h.srcUnit h.tag eSfRefused []
       else (s.unqueue m0).sfDiscard d h.field)
    else
      let k := s.acctSrc a
      if modSub (acctMod a) k.grantSeen k.sent < h.cells then s
      else
        match (s.unqueue m0).hop d m with
        | some s => sent (s.setAcctSrc a { k with sent := (k.sent + h.cells) % acctMod a })
        | none => s.blocked d h.field

/-- MESSAGE_FORWARD: a message leaves its source, or one reassembled whole from a port goes on in its turn by the fixed route, segmented
for the next link (R175, R177). The levee of the receiving port passes F0 and existing fields (Table 11.4). -/
def execMessageForward (d : DieId) (m : Msg) (arrival : Option (Fin 5)) (t : Nat) (s : State) : Out :=
  let s := s.clock t
  if !s.dieUp d then .next s
  else
    match arrival with
    | none => if m.h.src = d then .next (s.launchMsg d m) else .next s
    | some q =>
      if !(s.port ⟨d, q⟩).assembled m then .next s
      else
      let live : Bool := m.h.field = 0 || (match fieldOfNum m.h.field with | some f => (s.field f).live | none => false)
      if !live then
        .next ((s.unassemble ⟨d, q⟩ m).report d { code := 0xE307, locKind := 2, location := q.val })
      else
        match (s.unassemble ⟨d, q⟩ m).hop d m with
        | some s => .next s
        | none => .next (s.blocked d m.h.field)

/-! ### Credits and census (R194-R197) -/

/-- The account a CREDIT or CENSUS speaks of: its channel in ADDR[7:0], its source the receiver (R194). -/
def grantAcct (h : Hdr) : Option AcctId :=
  if hc : h.addr % 256 < 5 ∧ h.field < 9 then some ⟨h.dst, h.src, ⟨h.field, hc.2⟩, ⟨h.addr % 256, hc.1⟩⟩ else none

/-- A message of the link and account layer at its destination: none for a unit the die lacks, which discards and counts it (R176). -/
def State.layer (s : State) (h : Hdr) (g : State → State) : State :=
  if !s.dieUp h.dst then s else if unitPresent h.dst h.dstUnit then g s else s.sfDiscard h.dst h.field

/-- CREDIT: GRANT_SEEN takes the sink's GRANTED (R194, R203). -/
def execCredit (h : Hdr) (data : List Byte) (s : State) : Out :=
  .next (s.layer h fun s =>
    match grantAcct h with
    | some a => s.setAcctSrc a { s.acctSrc a with grantSeen := fieldAt data 0 4 % acctMod a }
    | none => s)

/-- ADDR of a CREDIT or CENSUS: channel code and the sink's epoch (R194). -/
def State.grantAddr (s : State) (a : AcctId) : Nat := a.chan.val + 256 * (s.die a.dst).trb.epoch.toNat

/-- CREDIT_SEND_DUE: the sink reports its GRANTED when a quarter of the grant has been released or 4,096 ticks after the
first unreported release (R194). -/
def execCreditSendDue (a : AcctId) (t : Nat) (s : State) : Out :=
  let s := s.clock t
  let k := s.acctSink a
  let released := modSub (acctMod a) k.granted k.reported
  let old : Bool := match k.firstUnreported with | some t0 => t0 + 4096 ≤ s.now | none => false
  if s.dieUp a.dst ∧ s.acctOpen a ∧ 0 < released ∧ (ceilDiv (s.initialGrant a) 4 ≤ released ∨ old) then
    let s := s.setAcctSink a { k with reported := k.granted, firstUnreported := none }
    .next (s.send (mkLayer 0x01 a.field.val a.dst a.src (s.grantAddr a) (le 4 k.granted)))
  else .next s

/-- A source checks a census in the order of R196. -/
def State.checkCensus (s : State) (a : AcctId) (epoch : Byte) (granted received : Nat) : State :=
  let k := s.acctSrc a
  if k.epoch ≠ epoch then
    (s.resetAcct a epoch).loseReqs a.src fun q => q.dst = a.dst
  else
    let m := acctMod a
    let err : Err := { code := 0xE501, field := a.field.val }
    let s := if k.grantSeen ≠ granted % m then (s.setAcctSrc a { k with grantSeen := granted % m }).report a.src err else s
    let diff := modSub m k.sent received
    if m / 2 ≤ diff then (s.setAcctSrc a { s.acctSrc a with sent := received % m }).report a.src err
    else if s.initialGrant a < diff then s.report a.src { err with code := 0xE502 }
    else s

/-- CENSUS: the source checks the sink's GRANTED and RECEIVED (R196). -/
def execCensus (h : Hdr) (data : List Byte) (t : Nat) (s : State) : Out :=
  .next ((s.clock t).layer h fun s =>
    match grantAcct h with
    | some a => s.checkCensus a (BitVec.ofNat 8 (h.addr / 256)) (fieldAt data 0 4) (fieldAt data 4 4)
    | none => s)

/-- CENSUS_DUE: the sink of an open account sends a CENSUS; an account within one die is checked without a message
(R195). -/
def execCensusDue (a : AcctId) (s : State) : Out :=
  let k := s.acctSink a
  if !s.dieUp a.dst ∨ !s.acctOpen a then .next s
  else if a.src = a.dst then .next (s.checkCensus a (s.die a.dst).trb.epoch k.granted k.received)
  else
    .next (s.send (mkLayer 0x02 a.field.val a.dst a.src (s.grantAddr a) (le 4 k.granted ++ le 4 k.received)))

/-- LOST_NOTICE: the requester takes a credited message's cells back and ends the request it names with E_SF_LOST
(R197). -/
def execLostNotice (h : Hdr) (data : List Byte) (t : Nat) (s : State) : Out :=
  .next ((s.clock t).layer h fun s =>
    match hdrOf data with
    | none => s
    | some l =>
      if l.requester ≠ h.dst then s
      else
        let s := match l.acct with
          | some a =>
            let k := s.acctSrc a
            s.setAcctSrc a { k with sent := modSub (acctMod a) k.sent l.cells }
          | none => s
        if expectsReply l.opcode then s.loseReq h.dst l.srcUnit l.tag
        else if isReply l.opcode then s.loseReq h.dst l.dstUnit l.tag
        else s)

/-! ### Routes (R198, R199) -/

/-- ROUTE_HOLD pauses the requester's completion timers (R198). -/
def execRouteHold (h : Hdr) (t : Nat) (s : State) : Out := .next ((s.clock t).layer h fun s => s.noteHold h.dst h.src true)

/-- ROUTE_CLEAR: the timers run again once every die that sent ROUTE_HOLD has cleared (R198, R199). -/
def execRouteClear (h : Hdr) (t : Nat) (s : State) : Out := .next ((s.clock t).layer h fun s => s.noteHold h.dst h.src false)

/-- SF_TIMER_EXPIRY: a request whose running time has reached the timer ends with E_SF_TIMEOUT, deferred; its TAG stays
allocated (R198, R200). -/
def execSfTimerExpiry (d : DieId) (unit tag : Nat) (t : Nat) (s : State) : Out :=
  let s := (s.clock t).settleTimers d
  match (s.die d).req unit tag with
  | some q =>
    if q.ended.isNone ∧ s.sfTimerMs * ms ≤ q.ran then
      .next ((s.onDie d fun x =>
        { x with side := { x.side with
            reqs := x.side.reqs.map fun r => if r.unit = unit ∧ r.tag = tag then { r with ended := some s.now } else r,
            results := x.side.results ++ [{ unit := unit, tag := tag, status := eSfTimeout }] } }).report d
        { code := 0xE503, field := if q.field = 0 then 0xFF else q.field })
    else .next s
  | none => .next s

/-- SF_CEILING_EXPIRY: a request ends 10 s after it was sent, whatever its route (R198, R200). -/
def execSfCeilingExpiry (d : DieId) (unit tag : Nat) (t : Nat) (s : State) : Out :=
  let s := (s.clock t).settleTimers d
  match (s.die d).req unit tag with
  | some q =>
    if q.ended.isNone ∧ q.sentAt + 10 * sec ≤ s.now then
      .next ((s.onDie d fun x =>
        { x with side := { x.side with
            reqs := x.side.reqs.map fun r => if r.unit = unit ∧ r.tag = tag then { r with ended := some s.now } else r,
            results := x.side.results ++ [{ unit := unit, tag := tag, status := eSfTimeout }] } }).report d
        { code := 0xE503, field := if q.field = 0 then 0xFF else q.field })
    else .next s
  | none => .next s

/-! ### Memory (R178-R182) -/

/-- How the target takes a memory request: at a die's own memory, at the host, refused by the levee (counted), or out of
range. -/
inductive MemPlace where
  | die
  | host
  | levee
  | range
deriving DecidableEq, Repr

/-- Whether the unit can serve memory requests: 0x10, or the host port engine of an HX-1 for space 3 (Table 7.5). -/
def memUnit (h : Hdr) : Bool := if h.space = 3 then !h.dst.isCompute && h.dstUnit = 0x08 else h.dstUnit = 0x10

/-- Whether the range of a field's window meets a loaded plan's image on a die (R231). -/
def Field.imageOn (x : Field) (d : DieId) (a len : Nat) : Bool :=
  x.plans.any fun p =>
    let part := x.imagePart (x.dies.findIdx (· = d)) p.ofs p.len
    a < part.1 + part.2 && part.1 < a + len

/-- The levee and range checks of a request of `len` bytes (R179, R240, Table 7.5, Table 11.4). -/
def State.memPlace (s : State) (h : Hdr) (len : Nat) (write : Bool) : MemPlace :=
  if h.space = 0 then
    match fieldOfNum h.field with
    | some f =>
      let x := s.field f
      if !h.dst.isCompute ∨ !x.live ∨ !x.dies.contains h.dst then .levee
      else if x.sideClosed ∧ !x.dies.contains h.src then .levee
      else if x.w < h.addr + len then .levee
      else if write ∧ x.imageOn h.dst h.addr len then .levee
      else .die
    | none => .levee
  else if h.space = 1 then
    (if !h.dst.isCompute ∨ h.field ≠ 0 ∨ 4 ≤ h.srcUnit then .levee
     else if 48 * 0x40000000 < h.addr + len then .range else .die)
  else if h.space = 2 then
    (if h.dst.isCompute ∨ h.field ≠ 0 then .levee else if 0x1000000 < h.addr + len then .range else .die)
  else if h.space = 3 then
    (match if hf : h.field < 9 then some (⟨h.field, hf⟩ : Fin 9) else none with
     | some n =>
       if n = 0 then (if h.srcUnit < 4 then .host else .levee)
       else if NMap.get s.targets n.val none = some h.dst.pkg then .host else .levee
     | none => .levee)
  else .levee

/-- A levee refusal: recorded as corrected, counted for the die's field, and answered (R179, R284, Table 11.4). -/
def State.leveeRefuse (s : State) (h : Hdr) : State :=
  let s := s.report h.dst { code := 0xE307, field := if h.field = 0 then 0xFF else h.field }
  (s.onCnt h.dst fun c => { c with refusals := sat32 c.refusals }).refuse h

/-- Whether `len` bytes at an address stay within 256 bytes (R180). -/
def within256 (a len : Nat) : Bool := a / 256 = (a + len - 1) / 256

/-- Whether any line of a range is poisoned (R46, R180). -/
def Die.poisonedAt (x : Die) (a len : Nat) : Bool :=
  (List.range ((a + len - 1) / 64 + 1 - a / 64)).any fun i => x.poison.contains (a / 64 + i)

/-- The lines of a range of a die's memory are read under their error checks (Table 16.4). -/
def State.readCheck (s : State) (d : DieId) (a len : Nat) : State :=
  s.forEach (List.range ((a + len - 1) / 64 + 1 - a / 64)) fun s i => s.hbmRead d (a / 64 + i)

/-- MEM_RD (R179, R180). -/
def execMemRd (h : Hdr) (t : Nat) (s : State) : Out :=
  let s := s.clock t
  if !s.dieUp h.dst then .next s
  else
    let s := s.arrive h
    if !unitPresent h.dst h.dstUnit ∨ !memUnit h ∨ h.len = 0 ∨ 256 < h.len then .next (s.unsupported h)
    else
      match s.memPlace h h.len false with
      | .levee => .next (s.leveeRefuse h)
      | .range => .next (s.refuse h)
      | .host =>
        if !within256 h.addr h.len then .next (s.refuse h)
        else
          let data := (List.range h.len).map (Config.hostByte s.free)
          .next (((s.emit (.hostRead h.dst.pkg h.addr h.len)).spend).respond h 0x18 0 data)
      | .die =>
        if !within256 h.addr h.len then .next (s.refuse h)
        else
          let s := s.readCheck h.dst h.addr h.len
          let x := s.die h.dst
          .next (s.respond h 0x18 (if x.poisonedAt h.addr h.len then 3 else 0) (Memory.read x.mem h.addr h.len))

/-- A write as both write requests perform it; none where it is refused, with the state that records why (R46, R181). -/
def State.memWrite (s : State) (h : Hdr) (data : List Byte) : State × Bool :=
  if !unitPresent h.dst h.dstUnit ∨ !memUnit h ∨ data.length = 0 ∨ 256 < data.length then (s.unsupported h, false)
  else
    match s.memPlace h data.length true with
    | .levee => (s.leveeRefuse h, false)
    | .range => (s.refuse h, false)
    | .host =>
      if !within256 h.addr data.length then (s.refuse h, false)
      else (s.emit (.hostWrite h.dst.pkg h.addr data), true)
    | .die =>
      if !within256 h.addr data.length then (s.refuse h, false)
      else (s.onDie h.dst fun x => x.sideWrite h.addr data, true)

/-- MEM_WR: posted; refused ones are discarded and counted (R179-R181). -/
def execMemWr (h : Hdr) (data : List Byte) (t : Nat) (s : State) : Out :=
  let s := s.clock t
  if !s.dieUp h.dst then .next s else .next ((s.arrive h).memWrite h data).1

/-- MEM_WR_NP: answered by MEM_CPL_ND once the write is visible (R181). -/
def execMemWrNp (h : Hdr) (data : List Byte) (t : Nat) (s : State) : Out :=
  let s := s.clock t
  if !s.dieUp h.dst then .next s
  else
    let r := (s.arrive h).memWrite h data
    .next (if r.2 then r.1.respond h 0x19 0 [] else r.1)

/-- Operand size and number of operands of an atomic subop (Table 7.6). -/
def atomicShape (sub : Nat) : Option (Nat × Nat) :=
  if sub = 1 ∨ sub = 3 ∨ sub = 8 then some (4, 1)
  else if sub = 2 ∨ sub = 4 ∨ sub = 9 then some (8, 1)
  else if sub = 5 then some (4, 2)
  else if sub = 6 then some (8, 2)
  else if sub = 7 then some (16, 2)
  else none

/-- The magnitude of a finite binary32 in units of 2^-149. -/
def f32Mag (x : Nat) : Nat :=
  let e := x / 0x800000 % 256
  let m := x % 0x800000
  if e = 0 then m else (m + 0x800000) * 2 ^ (e - 1)

/-- The binary32 nearest to a magnitude in units of 2^-149, ties to even, with its sign bit. -/
def f32Round (neg : Bool) (n : Nat) : Nat :=
  let sign := if neg then 0x80000000 else 0
  if n < 0x1000000 then sign + n
  else
    let k := Nat.log2 n - 23
    let q := n / 2 ^ k
    let r := n % 2 ^ k
    let up : Bool := 2 ^ k < 2 * r || (2 * r = 2 ^ k && q % 2 = 1)
    let bits := k * 0x800000 + q + (if up then 1 else 0)
    if 0x7F800000 ≤ bits then sign + 0x7F800000 else sign + bits

/-- IEEE 754 binary32 addition as R182 states it. -/
def f32Add (a b : Nat) : Nat :=
  let nan := fun (x : Nat) => x / 0x800000 % 256 = 255 && x % 0x800000 ≠ 0
  let inf := fun (x : Nat) => x % 0x80000000 = 0x7F800000
  let quiet := fun (x : Nat) => Nat.lor x 0x400000
  if nan a then quiet a
  else if nan b then quiet b
  else if inf a then (if inf b ∧ a ≠ b then 0x7FC00000 else a)
  else if inf b then b
  else
    let na := decide (0x80000000 ≤ a)
    let nb := decide (0x80000000 ≤ b)
    let sum : Int := (if na then -(f32Mag a : Int) else f32Mag a) + (if nb then -(f32Mag b : Int) else f32Mag b)
    if sum = 0 then (if na ∧ nb then 0x80000000 else 0) else f32Round (sum < 0) sum.natAbs

/-- The new value an atomic stores (Table 7.6); `size` is the operand size. -/
def atomicNew (sub size old a b : Nat) : Nat :=
  if sub ≤ 2 then (old + a) % 2 ^ (8 * size)
  else if sub ≤ 4 then a
  else if sub ≤ 7 then (if old = a then b else old)
  else if sub = 8 then f32Add old a
  else max old a

/-- MEM_ATOMIC: performed indivisibly; the old value returns; nothing on a poisoned line (R179, R182, R202). -/
def execMemAtomic (h : Hdr) (data : List Byte) (t : Nat) (s : State) : Out :=
  let s := s.clock t
  if !s.dieUp h.dst then .next s
  else
    let s := s.arrive h
    let sub := fieldAt data 0 1
    match atomicShape sub with
    | none => .next (s.unsupported h)
    | some (size, n) =>
      let wrong : Bool := !unitPresent h.dst h.dstUnit || !memUnit h || data.length ≠ 8 + size * n
        || (!h.dst.isCompute && 7 ≤ sub)
      if wrong then .next (s.unsupported h)
      else
        match s.memPlace h size true with
        | .levee => .next (s.leveeRefuse h)
        | .range => .next (s.refuse h)
        | .host =>
          if h.addr % size ≠ 0 then .next (s.refuse h)
          else
            let old := (List.range size).map (Config.hostByte s.free)
            .next (((s.emit (.hostAtomic h.dst.pkg h.addr data)).spend).respond h 0x18 0 old)
        | .die =>
          if h.addr % size ≠ 0 then .next (s.refuse h)
          else
            let s := s.readCheck h.dst h.addr size
            let x := s.die h.dst
            let old := Memory.read x.mem h.addr size
            if x.poisonedAt h.addr size then .next (s.respond h 0x18 3 old)
            else
              let new := atomicNew sub size (ofLe old) (fieldAt data 8 size) (fieldAt data (8 + size) size)
              .next ((s.onDie h.dst fun x => { x with mem := Memory.write x.mem h.addr (le size new) }).respond h 0x18 0 old)

/-- MEM_CPL ends a request with its data (R184). -/
def execMemCpl (h : Hdr) (data : List Byte) (t : Nat) (s : State) : Out :=
  let s := s.clock t
  if s.dieUp h.dst then .next (s.complete h data) else .next s

/-- MEM_CPL_ND ends a request without data (R184). -/
def execMemCplNd (h : Hdr) (t : Nat) (s : State) : Out :=
  let s := s.clock t
  if s.dieUp h.dst then .next (s.complete h []) else .next s

/-! ### Coherence (R185-R188) -/

/-- The directory entry of a line. -/
def Die.dirLine (x : Die) (line : Nat) : Option DirLine := x.side.dir.find? fun e => e.line = line

/-- The directory with a line's entry changed. -/
def Die.onDir (x : Die) (line : Nat) (g : DirLine → DirLine) : Die :=
  { x with side := { x.side with dir := x.side.dir.map fun e => if e.line = line then g e else e } }

/-- The directory without a line: the line is HOME. -/
def Die.dropLine (x : Die) (line : Nat) : Die :=
  { x with side := { x.side with dir := x.side.dir.filter fun e => e.line ≠ line } }

/-- OWN_GRANT to an agent's request, with the line's data or a status (R186-R188); a poisoned line is granted as POISONED (log entry
141). -/
def State.ownGrant (s : State) (home agent : DieId) (tag line field cst : Nat) : State :=
  let s := if cst = 0 then s.hbmRead home line else s
  let data := if cst = 0 then Memory.read (s.die home).mem (64 * line) 64 else []
  let cst := if cst = 0 ∧ (s.die home).poison.contains line then 3 else cst
  s.send (mkMsg 0x21 field home agent 0x10 0x08 tag cst (64 * line) data)

/-- INVAL to the owner of a line (R186). -/
def State.sendInval (s : State) (home owner : DieId) (line field : Nat) : State :=
  (s.onDie home fun x => x.onDir line fun e => { e with inval := true }).send
    (mkMsg 0x22 field home owner 0x10 0x08 0 0 (64 * line) [])

/-- A launch of a field has its entry taken: homes answer IN_LAUNCH until it completes (R188). -/
def Field.inLaunch (x : Field) : Bool := x.run.isSome

/-- OWN_REQ: grants a HOME line, recalls an OWNED one, or answers DIR_FULL or IN_LAUNCH; UNSUPPORTED at an HX-1, and to a source that
is no host port engine and so no owner agent (R185-R188, R202; log entry 141). -/
def execOwnReq (h : Hdr) (t : Nat) (s : State) : Out :=
  let s := s.clock t
  if !s.dieUp h.dst then .next s
  else
    let s := s.arrive h
    let line := h.addr / 64
    if !h.dst.isCompute ∨ h.dstUnit ≠ 0x10 ∨ h.src.isCompute ∨ h.srcUnit ≠ 0x08 then .next (s.unsupported h)
    else
      match s.memPlace h 64 false, fieldOfNum h.field with
      | .die, some f =>
        if h.space ≠ 0 ∨ (s.field f).h < h.addr + 64 then .next (s.leveeRefuse h)
        else if (s.field f).inLaunch then .next (s.respond h 0x21 6 [])
        else
          match (s.die h.dst).dirLine line with
          | some e =>
            let s := s.onDie h.dst fun x => x.onDir line fun e => { e with waiting := e.waiting ++ [(h.src, h.tag)] }
            (match e.owner with
             | some o => if e.inval then .next s else .next (s.sendInval h.dst o line h.field)
             | none => .next s)
          | none =>
            if 8192 ≤ (s.die h.dst).side.dir.length then .next (s.respond h 0x21 5 [])
            else
              let s := s.onDie h.dst fun x =>
                { x with side := { x.side with dir := x.side.dir ++ [{ line := line, owner := some h.src }] } }
              .next (s.ownGrant h.dst h.src h.tag line h.field 0)
      | _, _ => .next (s.leveeRefuse h)

/-- Lines a line cache holds: 2 MiB (R185). -/
def cacheLines : Nat := 32768

/-- An agent whose cache is full gives its oldest line up by RELEASE, with the data if it modified it (R185, R186; log entry 141). -/
def State.evict (s : State) (d : DieId) : State :=
  if (s.die d).side.cache.length < cacheLines then s
  else
    match (s.die d).side.cache.filter fun c => !(c.dirty && c.bad) with
    | c :: _ =>
      let field := match s.fieldOf c.home with | some f => fnum f | none => 0
      (s.onDie d fun x => { x with side := { x.side with cache := x.side.cache.erase c } }).send
        (mkMsg 0x24 field d c.home 0x08 0x10 0 0 (64 * c.line) (if c.dirty then c.data else []))
    | [] => s

/-- OWN_GRANT: the agent holds the line, or serves its access uncached (R186-R188). A late one is discarded (R200). -/
def execOwnGrant (h : Hdr) (data : List Byte) (t : Nat) (s : State) : Out :=
  let s := s.clock t
  if !s.dieUp h.dst then .next s
  else
    let known : Bool := match (s.die h.dst).req h.dstUnit h.tag with
      | some q => q.ended.isNone || q.ended = some s.now
      | none => false
    let s := s.complete h data
    if known ∧ (h.cstatus = 0 ∨ h.cstatus = 3) ∧ data.length = 64 then
      let c : CacheLine := { home := h.src, line := h.addr / 64, data := data, bad := h.cstatus = 3 }
      let s := s.evict h.dst
      .next (s.onDie h.dst fun x => { x with side := { x.side with cache := x.side.cache ++ [c] } })
    else .next s

/-- The line an agent's cache holds of a home. -/
def Die.cached (x : Die) (home : DieId) (line : Nat) : Option CacheLine :=
  x.side.cache.find? fun c => c.home = home && c.line = line

/-- INVAL: the owner gives the line up and answers INVAL_ACK, with data if it modified it (R186), as POISONED if the line holds poison
(log entry 141). A die without a host port engine discards it (R176). -/
def execInval (h : Hdr) (s : State) : Out :=
  let d := h.dst
  if !s.dieUp d then .next s
  else if h.dstUnit ≠ 0x08 ∨ d.isCompute then .next (s.sfDiscard d h.field)
  else
    match (s.die d).cached h.src (h.addr / 64) with
    | some c =>
      let s := s.onDie d fun x => { x with side := { x.side with cache := x.side.cache.erase c } }
      .next (s.respond h 0x23 (if c.dirty ∧ c.bad then 3 else 0) (if c.dirty then c.data else []))
    | none => .next (s.respond h 0x23 0 [])

/-- Data of an owned line comes back to its home: the write clears the line's mark, or keeps it where the line still holds poison; into
the image of a loaded plan it is discarded and counted (R46, R186, R231). -/
def State.writeBack (s : State) (home : DieId) (line field : Nat) (data : List Byte) (bad : Bool) : State :=
  let image : Bool := match s.fieldOf home with | some f => (s.field f).imageOn home (64 * line) 64 | none => false
  if data = [] then s
  else if image then
    (s.report home { code := 0xE307, field := if field = 0 then 0xFF else field }).onCnt home fun c =>
      { c with refusals := sat32 c.refusals }
  else if bad then s.onDie home fun x => { x with mem := Memory.write x.mem (64 * line) data }
  else s.onDie home fun x => x.sideWrite (64 * line) data

/-- The line is given up at its home: data written back, and the next waiting request granted, or refused during a launch
(R186, R188). -/
def State.lineBack (s : State) (home : DieId) (line field : Nat) (data : List Byte) (bad : Bool) : State :=
  let s := s.writeBack home line field data bad
  match (s.die home).dirLine line with
  | none => s
  | some e =>
    let inLaunch : Bool := match s.fieldOf home with | some f => (s.field f).inLaunch | none => false
    if inLaunch then
      s.forEach e.waiting (fun s w => s.ownGrant home w.1 w.2 line field 6) |>.onDie home fun x => x.dropLine line
    else
      match e.waiting with
      | [] => s.onDie home fun x => x.dropLine line
      | w :: rest =>
        let s := s.onDie home fun x => x.onDir line fun _ => { line := line, owner := some w.1, waiting := rest }
        let s := s.ownGrant home w.1 w.2 line field 0
        if rest = [] then s else s.sendInval home w.1 line field

/-- INVAL_ACK at the home; one that follows a RELEASE taken in its place does nothing (R186). -/
def execInvalAck (h : Hdr) (data : List Byte) (s : State) : Out :=
  if !s.dieUp h.dst then .next s
  else if !unitPresent h.dst h.dstUnit then .next (s.sfDiscard h.dst h.field)
  else
    match (s.die h.dst).dirLine (h.addr / 64) with
    | some e =>
      if e.inval ∧ e.owner = some h.src then .next (s.lineBack h.dst (h.addr / 64) h.field data (h.cstatus = 3)) else .next s
    | none => .next s

/-- RELEASE: the owner gives the line up; the home takes it as the INVAL_ACK of a crossing INVAL (R186). -/
def execRelease (h : Hdr) (data : List Byte) (t : Nat) (s : State) : Out :=
  let s := s.clock t
  if !s.dieUp h.dst then .next s
  else
    let s := s.arrive h
    if !h.dst.isCompute ∨ h.dstUnit ≠ 0x10 then .next (s.unsupported h)
    else
      match (s.die h.dst).dirLine (h.addr / 64) with
      | some e => if e.owner = some h.src then .next (s.lineBack h.dst (h.addr / 64) h.field data false) else .next s
      | none => .next s

/-! ### Interrupts (R189) -/

/-- Whether a vector is one INT_MSG of a field may name: its own four, 0-31 for firmware (Table 10.5a). -/
def vectorOk (field v : Nat) : Bool := if field = 0 then v < 32 else 32 + 4 * (field - 1) ≤ v && v < 36 + 4 * (field - 1)

/-- INT_MSG: delivered as MSI-X by the I/O die that serves the field's owner; else the trouble sink records it
undelivered; a vector outside its field is discarded and counted (R189, Table 10.5a). -/
def execIntMsg (h : Hdr) (data : List Byte) (t : Nat) (s : State) : Out :=
  let s := s.clock t
  if !s.dieUp h.dst then .next s
  else
    let _ := data
    let s := s.arrive h
    if h.dstUnit ≠ 0x08 ∨ h.dst.isCompute ∨ 8 < h.field then .next (s.unsupported h)
    else if !vectorOk h.field (h.addr % 64) then .next (s.sfDiscard h.dst h.field)
    else
      let target := NMap.get s.targets h.field none
      if target = some h.dst.pkg ∧ h.dst.tray = s.span.num then
        .next (s.raise h.dst.pkg (h.addr % 64))
      else .next (s.undelivered h.field h.src.addr (h.addr % 64))

end Sys2Proof.Machine
end

