-- ==== Sys2Proof/Machine/Flow.lean ====
section
/-! DEFINITION. Sys2Proof/Machine/Flow.lean: what the sequencer, switches, drains and flushes of a field share: completion of
ring entries, drain waves, flushes, activation, steps and boundaries (R29-R48, R71, R94, R229-R244, R389). -/

namespace Sys2Proof.Machine

/-! ### The lead die's tally -/

/-- 100 us, the lead of a named boundary (R94, R95). -/
def leadTime : Nat := 100 * us

/-- The calibration window and its spacing (R32). -/
def calWindow : Nat := 16000
def calSpan : Nat := 250000000

/-! ### Ring entries (R39-R45) -/

/-- Completion statuses (Table 2.8). -/
def lsDone : Nat := 1
def lsPoisoned : Nat := 2
def lsChecksum : Nat := 3
def lsCancelled : Nat := 4
def lsRejected : Nat := 5
def lsFaulted : Nat := 6

/-- The 64 bytes of ring entry `i`. -/
def Field.entryBytes (x : Field) (i : Nat) : List Byte := Memory.read x.ring (64 * (i % 64)) 64

/-- The device completes the entry at the consumer index: the fields at 0x28-0x3F, then VALID cleared, then the interrupt
if IRQ was set (R44). An idle interval begins where the ring is empty then (R32). -/
def State.completeEntry (s : State) (f : Fin 8) (status reached poison csum clean : Nat) : State :=
  let x := s.field f
  let i := x.cons.toNat % 64
  let e := x.entryBytes i
  let irq := (fieldAt e 2 2) / 4 % 2 = 1
  let done := le 2 status ++ le 2 (min csum 0xFFFF) ++ le 4 reached ++ le 4 clean ++ le 4 poison ++ le 8 (s.leadTally f)
  let ring := Memory.write (Memory.write x.ring (64 * i + 0x28) done) (64 * i + 2) (le 2 (fieldAt e 2 2 / 2 * 2))
  let idle := if x.cons + 1 = x.prod then s.leadTally f else x.idleSince
  let s := s.setField f { x with ring := ring, cons := x.cons + 1, lastReached := reached, idleSince := idle,
                                 cancels := x.cancels.filter (· ≠ i) }
  if irq then s.notify (fscope f) (9 + f.val) else s

/-- Completes an entry that runs no step. -/
def State.completeBare (s : State) (f : Fin 8) (status : Nat) : State := s.completeEntry f status 0 0 0 0xFFFFFFFF

/-- The work status of a launch that ran its range (R44). -/
def Running.workStatus (r : Running) : Nat := if 0 < r.csum then lsChecksum else if 0 < r.poison then lsPoisoned else lsDone

/-- Completes the running launch. -/
def State.completeRun (s : State) (f : Fin 8) (r : Running) (status : Nat) : State :=
  (s.completeEntry f status r.reached r.poison r.csum r.clean).onField f fun x => { x with run := none }

/-- A hold region that waits for a boundary of its field changes (R16). -/
def Pond.settle (x : Pond) (f : Nat) : Pond :=
  match x.dueHolds.find? fun e => e.1 = f with
  | some e =>
    let due := NMap.erase x.dueHolds f
    { x with holds := NMap.set x.holds f e.2, dueHolds := due, size := if due.isEmpty then x.dueSize.getD x.size else x.size,
             dueSize := if due.isEmpty then none else x.dueSize }
  | none => x

/-- Changes of hold regions that a loaded plan of a field uses take effect at its boundary (R16, R160). -/
def State.settlePonds (s : State) (f : Fin 8) : State :=
  s.forEach (s.allPorts.filter fun p => (s.port p).pond.dueHolds.any fun e => e.1 = fnum f) fun s p =>
    s.onPort p fun y => { y with pond := y.pond.settle (fnum f) }

/-- Completes every launch in flight, the running one with its step reached and those behind it with 0, in ring order
(R45, R243, R389); entries not yet taken as well. -/
def State.completeAll (s : State) (f : Fin 8) (status : Nat) : State :=
  let x := s.field f
  let s := match x.run with
    | some r => s.completeRun f r status
    | none => s
  let s := ((List.range (s.field f).inFlight).foldl (fun s _ => s.completeBare f status) s).settlePonds f
  s.onField f fun x => { x with taken := x.prod, ended := none, cancels := [], recalls := [] }

/-! ### Drain wave (R233, R241) -/

/-- Compute dies of a field whose tiles run a plan. -/
def Field.memberDies (x : Field) : List DieId := x.dies

/-- Every tile of a die changed by `g`. -/
def Die.onTiles (x : Die) (g : Nat → Tile → Tile) : Die := { x with tiles := x.tiles.map fun e => (e.1, g e.1 e.2) }

/-- A drain wave begins on a field: markers of an earlier one forgotten, every memory endpoint emits a marker on each
channel it sources; tiles follow by TILE_DRAINED (R75, R233). -/
def State.startWave (s : State) (f : Fin 8) : State :=
  s.forEach (s.field f).dies fun s d =>
    let s := s.onDie d fun x =>
      { x.onTiles (fun _ t => { t with markers := [], markersSent := false, drained := false }) with passed := [] }
    s.inject d ((s.die d).eps.flatMap fun e => e.2.outs.map fun c => c.marker (1024 + e.1))

/-- Draining starts (R241). -/
def State.startDrain (s : State) (f : Fin 8) (why : Why) : State :=
  (s.onField f fun x => { x with drain := some (why, s.now) }).startWave f

/-- Whether a die of a field is drained: tiles, endpoints, egress and ingress entries, mesh (R75, R241). -/
def State.dieDrained (s : State) (d : DieId) : Bool :=
  let x := s.die d
  x.tiles.all (fun e => e.2.empty) && x.eps.all (fun e => e.2.reqs.isEmpty)
    && x.mesh.all (fun m => m.packet.kind ≠ 0)
    && (planPorts d).all fun p => (s.port p).planned.egress.isEmpty && (s.port p).planned.rxq.isEmpty

/-- Whether a field is drained (R241): every die, and no non-posted side request its dies source outstanding. -/
def State.fieldDrained (s : State) (f : Fin 8) : Bool :=
  (s.field f).dies.all fun d => s.dieDrained d
    && (s.die d).side.reqs.all fun q => q.field ≠ fnum f || q.ended.isSome

/-! ### Flush (R242) -/

/-- A tile after a flush: queues, buffers, pairing, iterations and poison marks cleared, credits reloaded; its
configuration stays. -/
def Tile.flush (x : Tile) : Tile :=
  { x with queue := [], owed := [], pairs := [], iterations := [], ending := [], done := [], cfg := [], cfgWaiting := [],
           cfgPoisoned := false, poisonV := [], poisonS := [], poisonLines := [], markers := [], markersSent := false,
           drained := false, switched := false, outs := x.outs.map fun c => { c with credits := c.bound, fresh := 0 } }

/-- A tile reset to unconfigured with its SRAM cleared (R238, R279). -/
def Tile.reset : Tile := {}

/-- The dynamic state of a die's tiles, mesh, endpoints and attachment entries cleared (R242). Side packets stay. -/
def State.flushDie (s : State) (d : DieId) : State :=
  let s := s.onDie d fun x =>
    { x.onTiles (fun _ t => t.flush) with
        mesh := x.mesh.filter fun m => m.packet.kind = 5
        eps := x.eps.map fun e =>
          (e.1, { e.2 with reqs := [], outs := e.2.outs.map fun c => { c with credits := c.bound, fresh := 0 } }) }
  s.forEach (planPorts d) fun s p => s.onPort p fun y =>
    { y with planned := { y.planned with egress := [], first := [], rxq := [], waiting := [] } }

/-- A flush of a field on every die: dynamic state; its hold regions on every port, with LOST_NOTICE; the requests its dies
source end with E_SF_LOST (R242). A tile flush (`whole` false) is the dynamic state alone. -/
def State.flushField (s : State) (f : Fin 8) (whole : Bool) : State :=
  let dies := (s.field f).dies
  let s := s.forEach dies State.flushDie
  if whole then
    let s := s.forEach s.allPorts fun s p =>
      if (s.port p).side.hold.any fun z => z.field = fnum f then s.discardHeld p fun z => z.field = fnum f else s
    s.forEach dies fun s d => s.loseReqs d fun q => q.field = fnum f
  else s

/-! ### Activation (R229-R238) -/

/-- Most configuration packets of a die for tailwater or still-water (Table 9.2). -/
def Plan.fastFits (p : Plan) : Bool := p.blocks.all fun b => b.packets ≤ 65536

/-- Whether every tile of a block on a die has switched to the incoming plan. -/
def State.blockSwitched (s : State) (p : Plan) (d : DieId) : Bool :=
  match p.blockOf d with
  | some b => b.tiles.all fun r => ((s.die d).tile r.tile).switched
  | none => true

/-- Whether a die met a poisoned configuration packet (R236). -/
def State.cfgSpoiled (s : State) (d : DieId) : Bool := (s.die d).tiles.any fun e => e.2.cfgPoisoned

/-- Configuration packet `i` of a block as it stands in the plan image: KIND 1, X first, to a tile of its die (R234, R445); it leaves
at memory endpoint i mod 32 (DESIGN CHOICE, log entry 138). -/
def State.cfgPacket (s : State) (x : Field) (p : Plan) (b : Block) (i : Nat) : Packet :=
  let bs := s.slotBytes x (p.ofs + b.packetOfs + 72 * i) 72
  { packetOf (fieldAt bs 0 8) (bs.drop 8) with kind := 1, src := 1024 + i % 32, egress := 0, order := false }

/-- The memory endpoints of a die stream the incoming plan's block from the image into the mesh (R231, R234, R237, R238). -/
def State.streamBlock (s : State) (f : Fin 8) (d : DieId) : State :=
  let x := s.field f
  match x.incoming with
  | some p =>
    (match p.blockOf d with
     | some b => s.inject d ((List.range b.packets).map (s.cfgPacket x p b))
     | none => s)
  | none => s

/-- A switch begins and configuration streams into the dies of the field; in a reload every tile is reset to unconfigured and its SRAM
cleared first, and what an unfinished switch left in the mesh is gone (R234, R237, R238). -/
def State.startSwitch (s : State) (f : Fin 8) (form : Form) (staged : Bool) : State :=
  let s := s.onField f fun x => { x with switch := some { form := form, since := s.now, staged := staged }, reloadDue := none }
  s.forEach (s.field f).dies fun s d =>
    let s := s.onDie d fun x =>
      let x := x.onTiles fun _ t => if form = .reload then Tile.reset else { t with switched := false }
      if form = .reload then { x with mesh := x.mesh.filter fun m => m.packet.kind ≠ 1 && m.packet.kind ≠ 2 } else x
    s.streamBlock f d

/-- The incoming plan is active: the previous one is unloaded, tiles the new plan does not configure are unconfigured,
endpoints load the channels they source with full credit (R229, R230, R235). -/
def State.finishSwitch (s : State) (f : Fin 8) : State :=
  let x := s.field f
  match x.switch, x.incoming with
  | some w, some p =>
    let s := s.forEach x.dies fun s d =>
      let own : List Nat := match p.blockOf d with | some b => b.tiles.map (fun r => r.tile) | none => []
      s.onDie d fun y =>
        let y := y.onTiles fun n t => if own.contains n then { t with switched := false, cfgPoisoned := false } else Tile.reset
        (List.range 32).foldl (fun y k =>
          let outs := p.outsOf d (1024 + k)
          if outs.isEmpty ∧ (y.ep k).outs.isEmpty then y else y.setEp k { y.ep k with outs := outs }) y
    s.onField f fun x =>
      { x with switch := none, reloadDue := none, active := some p, staged := if w.staged then none else x.staged,
               lastSet := none, prevSet := none }
  | _, _ => s.onField f fun x => { x with switch := none }

/-- Headgates closed for a reload, and the field drained first (R238); a field that is flushed or idle and empty drains at
once. -/
def State.startReload (s : State) (f : Fin 8) (staged : Bool) : State :=
  (s.onField f fun x => { x.shut with switch := none }).startDrain f (.reload staged)

/-- The three headgates open again. -/
def Field.reopen (x : Field) : Field := { x with ringClosed := false, stepClosed := false, stepClosing := false, sideClosed := false }

/-- A reload that the device owes a field starts once its flush is done, no launch holds it, and every die of it on this tray runs
(R239; log entry 148). -/
def State.reloadNow (s : State) (f : Fin 8) : State :=
  let x := s.field f
  let ready : Bool := x.live && x.st = .enabled && x.run.isNone && x.switch.isNone && x.drain.isNone && x.flush.isNone && !x.frozen
    && x.dies.all fun d => d.tray ≠ s.span.num || s.runs d
  match x.reloadDue with
  | some staged => if ready ∧ (if staged then x.staged else x.active).isSome then s.startReload f staged else s
  | none => s

/-- The reload an unfinished switch of a field leaves owed: of the staged plan, or of the active one in place (R236, R239). -/
def Field.switchOwed (x : Field) : Option Bool :=
  match x.switch with
  | some w => some w.staged
  | none =>
    match x.drain with
    | some (.reload staged, _) => some staged
    | _ =>
      match x.run with
      | some r => if r.kind = .switch then some (x.reloadDue.getD x.staged.isSome) else x.reloadDue
      | none => x.reloadDue

/-! ### Taking an entry (R42, R43) -/

/-- Whether a checkpoint step lies at a place of an entry range. -/
def Plan.checkpointAt (p : Plan) (e : EntryPt) (n : Nat) : Bool :=
  e.first ≤ n && n ≤ e.last && (match p.steps[n]? with | some st => st.checkpoint | none => false)

/-- The launch an entry starts under a plan, or none where R42 rejects it. An ARG_OFFSET that is not 64-byte aligned, which Table 2.7
asks of the host and R42's list does not name, is rejected as well (DESIGN CHOICE, log entry 119). -/
def Field.accept (x : Field) (p : Plan) (i : Nat) : Option Running :=
  let e := x.entryBytes i
  let flags := fieldAt e 2 2
  let resume : Bool := flags / 8 % 2 = 1
  let sum : Bool := flags / 2 % 2 = 1
  let start := fieldAt e 0x1C 4
  match p.entries[fieldAt e 4 1]? with
  | none => none
  | some n =>
    let argOfs := fieldAt e 0x10 8
    let argLen := fieldAt e 0x18 4
    let ok : Bool := flags < 16 && zeroAt e 5 3 && fieldAt e 8 8 = p.id.toNat && n.argMin ≤ argLen
      && argOfs + argLen ≤ x.w && argOfs % 64 = 0
      && (if resume then p.checkpointAt n start else start = 0) && (!sum || !p.csums.isEmpty)
    if ok then
      some { idx := i % 64, entry := n, step := if resume then start else n.first, start := 0, boundary := 0,
             checksum := sum }
    else none

/-! ### Steps (R29, R32, R71, R303) -/

/-- The length of step `n` of the active plan at the rung in force (R29). -/
def Field.stepLen (x : Field) (n : Nat) : Nat :=
  match x.active with
  | some p => (match p.steps[n]? with | some st => st.lens.getD x.rung 0 | none => 0)
  | none => 0

/-- Whether step `n` of the active plan is a calibration step. -/
def Field.isCal (x : Field) (n : Nat) : Bool :=
  match x.active with
  | some p => (match p.steps[n]? with | some st => st.calibration | none => false)
  | none => false

/-- Whether a calibration step is inserted before step `n` at a boundary (R32); never before a step that is itself a calibration
step, whose start ends the run R32 bounds (DESIGN CHOICE, log entry 120). -/
def Field.calDue (x : Field) (n b : Nat) : Bool := !x.calOff && !x.isCal n && x.lastCal + calSpan < b + x.stepLen n

/-- Length of a throttle fallow step after a step of length `l` (R303). -/
def throttleLen (l duty : Nat) : Nat := max calWindow (ceilDiv (l * duty) (100 - duty))

/-- Whether the plan gives a channel positions at an egress port in a slot set. -/
def Plan.hasPositions (p : Plan) (q : PortId) (set : Nat) (k : Packet) : Bool :=
  match p.blockOf q.die with
  | some b => b.poss.any fun x => x.set = set && x.port = q.port.val &&
      (match b.chans[x.chan]? with | some c => c.kind = 1 && c.dst = k.dest && c.channel = k.channel && c.src = k.src | none => false)
  | none => false

/-- Egress packets that the coming step's slot set gives no slots are discarded, each a step overrun with poison at its
consumer (R71). -/
def State.dropOverrun (s : State) (f : Fin 8) (p : Plan) (set : Option Nat) : State :=
  s.forEach ((s.field f).dies.flatMap planPorts) fun s q =>
    let eg := (s.port q).planned.egress
    let gone := eg.filter fun e => e.packet.kind = 0 && !(match set with | some n => p.hasPositions q n e.packet | none => false)
    if gone.isEmpty then s
    else
      let s := s.onPort q fun y => { y with planned := { y.planned with egress := eg.filter fun e => !gone.contains e } }
      s.forEach gone fun s e => (s.meshError q.die 0xE105 2 q.port.val).substituteFrom q.die e.packet []

/-- The same at an inserted step, fallow, which gives no channel slots (R32, R71, R303). -/
def State.dropInserted (s : State) (f : Fin 8) : State :=
  match (s.field f).active with
  | some p => s.dropOverrun f p none
  | none => s

/-- The slot set in force until a boundary stands for the flits sent before it (R152). -/
def State.keepSet (s : State) (f : Fin 8) (b : Nat) : State := s.onField f fun x => { x with prevSet := x.setNow, prevEnd := b }

/-- Step `r.step` of the plan begins at a boundary (R29, R71). -/
def State.beginStep (s : State) (f : Fin 8) (r : Running) (b : Nat) : State :=
  let x := s.field f
  let s := match x.active with
    | some p => (match p.steps[r.step]? with | some st => s.dropOverrun f p st.slotSet | none => s)
    | none => s
  s.onField f fun x =>
    { x with lastSet := match x.active.bind fun p => p.steps[r.step]?.bind (·.slotSet) with | some n => some n | none => x.lastSet,
             run := some { r with start := b, boundary := b + x.stepLen r.step, kind := .ordinary, started := true,
                                  reached := r.step } }

/-- What follows at a boundary for a running launch: an inserted calibration step where one is due, else the step (R32). -/
def State.nextStep (s : State) (f : Fin 8) (r : Running) (b : Nat) : State :=
  if (s.field f).calDue r.step b then
    (s.dropInserted f).onField f fun x =>
      { x with run := some { r with start := b, boundary := b + calWindow, kind := .calibration, started := true } }
  else s.beginStep f r b

/-- A throttle fallow step after an ordinary one, for the duty in force; else the next step (R303). -/
def State.afterStep (s : State) (f : Fin 8) (r : Running) (b len : Nat) : State :=
  let x := s.field f
  if 0 < x.duty then
    (s.dropInserted f).onField f fun x =>
      { x with run := some { r with start := b, boundary := b + throttleLen len x.duty, kind := .throttle, started := true } }
  else s.nextStep f r b

/-- The accepted launch becomes the running one; its first boundary is named later unless it is exact (R41, R94). -/
def State.startLaunch (s : State) (f : Fin 8) (r : Running) (exactAt : Option Nat) : State :=
  match exactAt with
  | some b =>
    if (s.field f).recalls.isEmpty then s.nextStep f r b
    else s.onField f fun x => { x with run := some r }
  | none => s.onField f fun x => { x with run := some r }

/-- Homes of a field that hold OWNED lines in its windows, each recalled by INVAL (R188). -/
def State.recallHomes (s : State) (f : Fin 8) : State :=
  let homes := (s.field f).dies.filter fun d => (s.die d).side.dir.any fun e => e.owner.isSome
  let s := s.onField f fun x => { x with recalls := homes }
  s.forEach homes fun s d =>
    s.forEach (s.die d).side.dir fun s e =>
      match e.owner with
      | some o => if e.inval then s else s.sendInval d o e.line (fnum f)
      | none => s

/-- The entry at the taken index is checked under R42 against the active plan and starts, or completes REJECTED. -/
def State.checkEntry (s : State) (f : Fin 8) (i : Nat) (exactAt : Option Nat) : State :=
  let x := s.field f
  match x.active with
  | none => (s.completeBare f lsRejected).onField f fun x => { x with run := none, recalls := [] }
  | some p =>
    match x.accept p i with
    | none => (s.completeBare f lsRejected).onField f fun x => { x with run := none, recalls := [] }
    | some r => s.startLaunch f r exactAt

/-! ### Boundaries -/

/-- The committed change of a field applies at a boundary (R95, R97); a withdrawn or uncommitted one does not. -/
def State.applyChange (s : State) (f : Fin 8) (b : Nat) : State :=
  let x := s.field f
  match x.change with
  | some c =>
    if c.committed ∧ c.boundary ≤ b ∧ x.dies.all c.applied.contains = true then
      match c.kind with
      | .rung r => s.onField f fun x => { x with rung := r, change := none }
      | .fallow d => s.onField f fun x => { x with duty := d, change := none }
      | .resume => s
    else s
  | none => s

/-- The step gate closes: a launch stopped by a disable or destroy completes CANCELLED at the boundary, and the drain
starts (R240, R241, R243). -/
def State.closeGate (s : State) (f : Fin 8) (why : Why) : State :=
  let s := match (s.field f).run with
    | some r => s.completeRun f r lsCancelled
    | none => s
  (s.onField f fun x => { x with stepClosed := true, stepClosing := false }).startDrain f why

/-- Why a closing step gate closes: a destroy or a disable, by the state of the field (R243, R290). -/
def Field.closeWhy (x : Field) : Why := if x.scrub = some .destroy then .destroy else .disable

/-- CLEAN_CKPT of a ring entry in flight (R47). -/
def Field.noteCheckpoint (x : Field) (r : Running) (step : Nat) : Field :=
  { x with ring := Memory.write x.ring (64 * (r.idx % 64) + 0x30) (le 4 step) }

/-- The work of a step that ends at a boundary: STEP_REACHED, the checkpoint, whose step number goes to the entry's CLEAN_CKPT at
that boundary, the checksum points (R39, R47, R48). Boundary k is the start of step k, so that STEP_REACHED is k + 1 once step k
has ended (DESIGN CHOICE, log entry 121). -/
def State.endStep (s : State) (f : Fin 8) (r : Running) : State × Running :=
  let x := s.field f
  match x.active with
  | none => (s, r)
  | some p =>
    let ckpt : Bool := (match p.steps[r.step]? with | some st => st.checkpoint | none => false) && r.poison = 0
    let clean := if ckpt then r.step else r.clean
    let s := if ckpt then s.onField f fun x => x.noteCheckpoint r r.step else s
    let points := if r.checksum then (p.csums.filter fun c => c.step = r.step) else []
    let bad := (points.zipIdx.filter fun c => Config.csumMismatch s.free c.2).map (·.1)
    let s := if points.isEmpty then s else s.spend
    let s := s.forEach bad fun s c =>
      match dieOf c.tray c.die with
      | some d => s.report d { code := 0xE602, field := fnum f, locKind := 1, location := c.tile }
      | none => s
    (s, { r with reached := r.step + 1, clean := clean, csum := min 0xFFFF (r.csum + bad.length) })

/-- A launch ends at a boundary. -/
def State.endLaunch (s : State) (f : Fin 8) (r : Running) (b status : Nat) : State :=
  let s := s.completeRun f r status
  s.onField f fun x =>
    { x with ended := if x.taken = x.prod then none else some (b, status ≤ lsChecksum), idleSince := b }

/-- The first step boundary at or after a tally with the step to come there, from boundary `b` with step `n` to come, under the
lengths and insertions in force; the tally itself past the end of the launch (R166). -/
def Field.walk (x : Field) (r : Running) (target : Nat) : Nat → Nat → Nat → Nat → Nat × Nat
  | 0, b, n, _ => (max b target, n)
  | fuel + 1, b, n, cal =>
    if target ≤ b then (b, n)
    else if r.entry.last < n then (target, n)
    else
      let due := !x.calOff && !x.isCal n && cal + calSpan < b + x.stepLen n
      let b1 := if due then b + calWindow else b
      if target ≤ b1 then (b1, n)
      else
        let b2 := b1 + x.stepLen n
        if target ≤ b2 then (b2, n + 1)
        else if r.entry.last = n then (target, n + 1)
        else
          let throttled : Bool := decide (0 < x.duty)
          let b3 := if throttled then b2 + throttleLen (x.stepLen n) x.duty else b2
          let cal := if throttled then b3 else if x.isCal n then b2 else if due then b1 else cal
          x.walk r target fuel b3 (n + 1) cal

/-- The first boundary at or after a tally for a field whose launch stands before step `n` at boundary `b`. -/
def Field.walkFrom (x : Field) (r : Option Running) (target b n : Nat) : Nat × Nat :=
  match r with
  | some r => x.walk r target (r.entry.last + 2 - n) b n x.lastCal
  | none => (target, 0)

/-- The first step boundary of the field at or after a tally; with no step running, the tally. -/
def Field.boundaryFrom (x : Field) (target : Nat) : Nat × Nat :=
  match x.run with
  | some r =>
    if r.started then x.walkFrom (some r) target r.boundary (if r.kind = .ordinary then r.step + 1 else r.step)
    else (target, r.step)
  | none => (target, 0)

/-- The sluice boundary of a field for a detection tally: the first boundary at or after D + 65,536 (R166). -/
def Field.sluiceBoundary (x : Field) (d : Nat) : Nat := (x.boundaryFrom (d + 65536)).1

/-- The earliest sluice boundary a die of the field holds (R166). -/
def Field.sluiceAt (x : Field) : Option Nat :=
  x.sluices.foldl (fun best e => match best with | some n => some (min n e.2) | none => some e.2) none

/-- A die holds a sluice boundary: the earlier of two (R166). -/
def Field.holdSluice (x : Field) (d : DieId) (b : Nat) : Field :=
  { x with sluices := (x.sluices.filter fun e => e.1 ≠ d)
      ++ [(d, match x.sluices.find? fun e => e.1 = d with | some e => min e.2 b | none => b)] }

/-- Whether the field's sluice closes at a boundary (R104, R166). -/
def Field.freezes (x : Field) (b : Nat) : Bool := match x.sluiceAt with | some n => n ≤ b | none => false

/-- Where a die freezes, of a field whose sequencer stops at boundary `b` before the launch `r` goes on: there, or at the later
boundary it holds; none where no alarm has reached it yet (R166). -/
def Field.freezesDie (x : Field) (r : Option Running) (b : Nat) (d : DieId) : Option (DieId × Nat × Nat) :=
  match x.sluices.find? fun e => e.1 = d with
  | some e =>
    if e.2 ≤ b then some (d, b, match r with | some r => r.reached | none => 0)
    else some (d, x.walkFrom r e.2 b (match r with | some r => r.step | none => 0))
  | none => none

/-- The field freezes at a boundary: no further step starts, the sluice is closed (R167). A die that holds a later boundary, or none,
freezes later, and the field is split (R166, R168; log entry 137). -/
def State.freezeField (s : State) (f : Fin 8) (b : Nat) (r : Option Running) : State :=
  s.onField f fun x =>
    let at_ := x.dies.filterMap (x.freezesDie r b)
    { x with frozen := true, frozenAt := some b, sluices := [], dieFrozen := at_,
             split := x.split || at_.length ≠ x.dies.length || at_.any (fun e => e.2.1 ≠ b) }

/-- A cancelled running launch stops at a boundary: CANCELLED, then drain and tile flush; the next launch no sooner than
100 us later (R244). -/
def State.stopCancelled (s : State) (f : Fin 8) (r : Running) (b : Nat) : State :=
  let s := s.completeRun f r lsCancelled
  (s.onField f fun x => { x with ended := none, idleSince := b, notBefore := b + leadTime, stepClosed := true }).startDrain f .cancel

/-- A launch of a split field with STEP_REACHED at the lowest boundary that every die of the field passed (R168). -/
def Field.lowest (x : Field) (r : Running) : Running :=
  { r with reached := x.dieFrozen.foldl (fun n e => min n e.2.2) r.reached }

/-- The running launch reaches its boundary `b`: the step that ends, freeze before any other change, the end of the range,
a cancel, a closing gate, then the next step (R29, R44, R97, R104, R167, R244). -/
def State.passBoundary (s : State) (f : Fin 8) (r : Running) (b : Nat) : State :=
  let x := s.field f
  let len := b - r.start
  let ordinary := r.kind = .ordinary
  let s := (s.keepSet f b).settlePonds f
  let s := if !ordinary ∨ x.isCal r.step then s.onField f fun x => { x with lastCal := b } else s
  let (s, r) := if ordinary then s.endStep f r else (s, r)
  let finished := ordinary && r.step = r.entry.last
  let r := { r with step := if ordinary then r.step + 1 else r.step, started := false }
  let frozen := x.freezes b
  let s := if frozen then s.freezeField f b (if finished then none else some r) else s.applyChange f b
  if finished then
    let s := s.endLaunch f r b r.workStatus
    if x.stepClosing then s.closeGate f x.closeWhy else s
  else
    let s := s.onField f fun x => { x with run := some r }
    if x.stepClosing then s.closeGate f x.closeWhy
    else if frozen then s
    else if r.cancel then s.stopCancelled f r b
    else if ordinary then s.afterStep f r b len
    else s.beginStep f r b

/-! ### The sluice (R104, R166) -/

/-- The dies a port of this die joins by links that are up. -/
def State.upMates (s : State) (d : DieId) : List DieId :=
  (diePorts d).filterMap fun p => if (s.port p).link.st = .up then (s.port p).link.mate.map (·.die) else none

/-- The dies that paths of up links of at most `fuel` hops join to those of a list (R166). -/
def State.upReach (s : State) : Nat → List DieId → List DieId
  | 0, l => l
  | fuel + 1, l =>
    let more := (l ++ l.flatMap s.upMates).eraseDups
    if more.length = l.length then l else s.upReach fuel more

/-- Whether a path of up links joins two dies, as far as this tray knows its links: another tray is joined whole by a link to it (R166;
log entry 137). -/
def State.joins (s : State) (l : List DieId) (e : DieId) : Bool :=
  l.contains e || (e.tray ≠ s.span.num && l.any fun d => d.tray ≠ s.span.num)

/-- A die that detects loss of pinning, or enters FAULT, holds the boundary B and sends SLUICE to every die of a field, with a chain
copy (R104, R166, R191, R406). The device delivers it within 50 us, before B, to every die a path of up links joins, and those hold B
with it; another holds it when its SLUICE arrives. -/
def State.sluice (s : State) (d : DieId) (f : Fin 8) (port : Nat) : State :=
  let x := s.field f
  let b := x.sluiceBoundary (s.tallyOf d)
  let data := le 1 (fnum f) ++ le 1 port ++ le 6 0 ++ le 8 b
  let s := s.onDie d fun y =>
    let y := (x.dies.filter (· ≠ d)).foldl (fun y e => y.queueAlarm d (mkMsg 0x51 (fnum f) d e 0 0x1C 0 0 0 data)) y
    { y with trb := y.trb.copy { opcode := 0x51, field := fnum f, port := port, boundary := b } }
  if x.frozen then s
  else
    let near := s.upReach 40 [d]
    s.onField f fun x => (x.dies.filter fun e => s.joins near e).foldl (fun x e => x.holdSluice e b) x

end Sys2Proof.Machine
end

