-- ==== Sys2Proof/Machine/Pin.lean ====
section
/-! DEFINITION. Sys2Proof/Machine/Pin.lean: the link ledger's entries and epoch, stale plans, and the loss of pinning (R90-R93,
R102, R104, R106). -/

namespace Sys2Proof.Machine

/-- Whether a link stands PIN_LOST at this end or its peer: marked so by either, or either end's die in FAULT (R102). -/
def State.pinLost (s : State) (p : PortId) : Bool :=
  (s.linkEnds p).any fun q => (s.port q).pin.lost || (s.die q.die).tally.st = .fault

/-- STATE of a ledger entry (Table 4.5) at a port of this tray. A link PIN_LOST and quarantined at once shows PIN_LOST (log entry
34). -/
def State.ownState (s : State) (p : PortId) : Nat :=
  let y := s.port p
  if y.link.st = .dry then 3
  else if y.link.st ≠ .up then 0
  else if s.pinLost p then 2
  else if y.err.level = .quarantine then 4
  else 1

/-- STATE of a ledger entry. At another tray's port it is that of this tray's end of the link; of a link this tray has no end of it
is what that tray reported, a free value (log entry 46). -/
def State.ledgerState (s : State) (p : PortId) : Nat :=
  if p.die.tray = s.span.num then s.ownState p
  else match (s.port p).link.peer with
    | some q => if q.die.tray = s.span.num then s.ownState q else (Config.peerState s.now p.key).val
    | none => (Config.peerState s.now p.key).val

/-- A plan with its stale mark set where its ledger section names a port (R106). -/
def Plan.staleOn (x : Plan) (p : PortId) : Plan :=
  if x.ledger.any fun e => e.portId = some p then { x with stale := true } else x

/-- Every loaded plan that names a port becomes stale (R106). -/
def State.stalePlans (s : State) (p : PortId) : State :=
  s.forEach allFields fun s f =>
    if (s.field f).loaded then
      s.onField f fun x => { x with active := x.active.map fun pl => pl.staleOn p, staged := x.staged.map fun pl => pl.staleOn p }
    else s

/-- Publishes the peer and pinned latency of a port: a change sets CHANGED, moves LEDGER_EPOCH and makes the plans that name
the port stale (R91, R92, R106). -/
def State.publish (s : State) (p : PortId) (peer : Option PortId) (pinned : Nat) : State :=
  let y := (s.port p).link
  if y.peer = peer ∧ y.pinned = pinned then s.onLink p fun l => { l with inLedger := true }
  else
    let at_ := (s.die s.server).tally.value
    let s := s.onLink p fun l => { l with peer := peer, pinned := pinned, changed := at_, inLedger := true }
    (s.setLedgerEpoch ((s.ledgerEpoch + 1) % 0x100000000)).stalePlans p

/-- Whether a link between two compute dies of the span is a wrap (R93). -/
def State.isWrap (s : State) (p q : PortId) : Bool :=
  let g := gridOf s.span.shape
  let a := s.spanXY p.die
  let b := s.spanXY q.die
  p.die.isCompute && q.die.isCompute &&
  ((p.port = 0 && q.port = 2 && a.1 = b.1 && a.2 = 0 && b.2 + 1 = g.2)
    || (p.port = 2 && q.port = 0 && a.1 = b.1 && b.2 = 0 && a.2 + 1 = g.2)
    || (p.port = 3 && q.port = 1 && a.2 = b.2 && a.1 = 0 && b.1 + 1 = g.1)
    || (p.port = 1 && q.port = 3 && a.2 = b.2 && b.1 = 0 && a.1 + 1 = g.1))

/-- Whether the peer over an external cable lies on a tray outside the span (R385). -/
def State.foreignPeer (s : State) (p : PortId) : Bool :=
  (cageOf p).isSome && (match (s.port p).link.heard with | some h => !s.span.members.contains h.serial | none => false)

/-- The peer of a port as the ledger names it: the tray's wiring; for an external cable, what the peer stated in CONFIG, under
its tray's name in the span, or the tray number the peer stated where its tray is outside the span (R91, R385; log entry 35). -/
def State.ledgerPeer (s : State) (p : PortId) : Option PortId :=
  if (cageOf p).isNone then wired p
  else match (s.port p).link.heard with
    | some h =>
      let n := s.span.members.findIdx (· = h.serial)
      if hn : n < 4 ∧ n < s.span.members.length then some ⟨⟨⟨n, hn.1⟩, h.id.die.pkg, h.id.die.slot⟩, h.id.port⟩ else some h.id
    | none => none

/-- Publishes a port as its last training left it. -/
def State.publishPort (s : State) (p : PortId) : State :=
  let q := s.ledgerPeer p
  let y := (s.port p).link
  let s := s.publish p q (if q.isSome then pinnedOf p y.kl2 y.cable else 0)
  let foreign := s.foreignPeer p
  s.onLink p fun l =>
    { l with foreign := foreign,
             wrap := (cageOf p).isSome && !foreign && (match q with | some q => s.isWrap p q | none => false) }

/-! ### Loss of pinning (R102, R104, R166) -/

/-- Pinning of a link is lost at this end: each field with planned slots on it has PIN_LOST recorded and its sluice named. A
die that has not been AGREED since its reset has none to lose (R102, R104, R166). -/
def State.losePin (s : State) (p : PortId) : State :=
  if !(s.die p.die).tally.wasAgreed then s
  else s.forEach (s.fieldsOn p) fun s f =>
    (s.report p.die { code := 0xE401, field := fnum f, locKind := 2, location := p.port.val }).sluice p.die f p.port.val

/-- An end marks its link PIN_LOST (R86, R90). -/
def State.markPinLost (s : State) (p : PortId) : State :=
  if (s.port p).pin.lost ∨ !(s.die p.die).tally.wasAgreed then s
  else (s.onPort p fun y => { y with pin := { y.pin with lost := true, good := 0, errStrikes := 0, pinStrikes := 0 } }).losePin p

end Sys2Proof.Machine
end

