-- ==== Sys2Proof/Machine/Tally.lean ====
section
/-! DEFINITION. Sys2Proof/Machine/Tally.lean: the clock of account: marks, the tally tree, slewing, FAULT and HOLDOVER, the span
reference leader and the reference input (R77-R86, R90, R98-R103, R374). Errors and offsets are in 1/128 tick. -/

namespace Sys2Proof.Machine

/-- 8,192 ticks without a parent mark (R83, R101). -/
def silence : Nat := 8192
/-- The part of HOLDOVER with shallower parents only (R101). -/
def holdShallow : Nat := 163840
/-- HOLDOVER without a parent before leadership is treated as vacant (R101). -/
def holdVacant : Nat := 172032
/-- HOLDOVER while leadership is vacant (R101). -/
def vacantMax : Nat := 12 * ms
/-- The claim window of leadership (R98). -/
def leaderWindow : Nat := 10 * ms

/-! ### Marks (R81, R82) -/

/-- The state code a mark carries and the depth: 0xFF unless AGREED (Table 4.2, Table 4.3). -/
def Tally.shownDepth (y : Tally) : Nat := if y.st = .agreed then y.depth else 0xFF

/-- LEADER as a die sends it: 0 while it treats leadership as vacant (R101). -/
def Tally.shownLeader (y : Tally) : Dword := if y.vacantSince.isSome then 0 else y.leader

/-- The mark a die sends on a port (Table 4.2). -/
def State.markOf (s : State) (p : PortId) : Mark :=
  let y := (s.die p.die).tally
  { tally := y.value, leader := y.shownLeader, epoch := y.epoch, pinned := (s.port p).link.pinned, rootOfs := y.rootOfs,
    depth := y.shownDepth, state := y.st.code }

/-- The 24 bytes of a mark body (Table 4.2). -/
def markBytes (m : Mark) : List Byte :=
  le 8 m.tally.toNat ++ le 8 m.leader.toNat ++ le 2 m.epoch.toNat ++ le 2 m.pinned ++ le 2 (BitVec.ofInt 16 m.rootOfs).toNat
    ++ le 1 m.depth ++ le 1 m.state

/-- Link-control requests that expect an answer: DRY_REQ and CFG_RD (R161, R205). -/
def lcExpects (type : Nat) : Bool := type = 0x04 || type = 0x10

/-- Queues a link-control flit on a port; a request that expects an answer waits for it (R161). -/
def State.sendLc (s : State) (p : PortId) (m : LcMsg) : State :=
  s.onPort p fun y =>
    { y with side := { y.side with lc := y.side.lc ++ [m],
                                   lcWaiting := if lcExpects m.type then y.side.lcWaiting ++ [m] else y.side.lcWaiting } }

/-- A request is answered: it is repeated no more (R161). -/
def State.lcAnswered (s : State) (p : PortId) (type : Nat) : State :=
  s.onPort p fun y => { y with side := { y.side with lcWaiting := y.side.lcWaiting.filter fun m => m.type ≠ type } }

/-- TALLY_MARK_SEND: an end of a link in UP sends a mark (R81). -/
def execTallyMarkSend (p : PortId) (t : Nat) (s : State) : Out :=
  let s := s.clock t
  if (s.port p).link.st ≠ .up ∨ !s.dieUp p.die then .next s
  else
    .next ((s.sendLc p { type := 0x01, body := markBytes (s.markOf p) }).onPort p fun y =>
      { y with pin := { y.pin with lastSent := s.now } })

/-! ### Choosing a parent (R83, R101) -/

/-- Ports in the order a die prefers them at equal depth (R83). -/
def parentOrder (d : DieId) : List (Fin 5) := if d.isCompute then [4, 0, 3, 1, 2] else [0, 1, 2, 3]

/-- Whether a seen mark passes the test of R83: recent, AGREED, of the newest epoch, on a link in UP not marked PIN_LOST. A
link to a tray outside the span is never a tally parent (R385). -/
def State.markGood (s : State) (d : DieId) (q : Fin 5) (x : Seen) : Bool :=
  !(s.port ⟨d, q⟩).link.foreign &&
  s.now < x.when_ + silence && x.mark.state = 1 && (s.die d).tally.epoch.toNat ≤ x.mark.epoch.toNat
    && (s.port ⟨d, q⟩).link.st = .up && !(s.port ⟨d, q⟩).pin.lost

/-- The best admitted neighbour: smallest DEPTH under a limit, then the port order (R83). -/
def State.bestParent (s : State) (d : DieId) (limit : Nat) : Option (Fin 5 × Seen) :=
  let y := (s.die d).tally
  (parentOrder d).foldl (fun best q =>
    match NMap.get (y.seen.map fun e => (e.1, some e.2)) q.val none with
    | some x =>
      if s.markGood d q x ∧ x.mark.depth < limit then
        (match best with
         | some b => if x.mark.depth < b.2.mark.depth then some (q, x) else best
         | none => some (q, x))
      else best
    | none => best) none

/-- The DEPTH a parent must lie below: a die that holds a DEPTH takes only a shallower one, until the first part of HOLDOVER
ends (R83, R101). -/
def Tally.limit (y : Tally) : Nat := if y.st = .unsynced ∨ (y.st = .holdover ∧ y.deeperOk = true) then 0xFF else y.depth

/-- Whether every field with a loaded plan on a die is frozen or between launches (R103). -/
def State.mayStep (s : State) (d : DieId) : Bool :=
  allFields.all fun f =>
    let x := s.field f
    !(x.live && x.loaded && x.dies.contains d) || x.frozen || x.run.isNone

/-- Changes the tally of a die. -/
def State.onTally (s : State) (d : DieId) (g : Tally → Tally) : State := s.onDie d fun x => { x with tally := g x.tally }

/-- A die enters FAULT: TALLY_FAULT for its field; pinning of its links is lost; the sluice of every field concerned is named
(R85, R101, R102, R104, R166). The port byte of the field's own alarm is 0xFF, for no rule states it (log entry 36). -/
def State.enterFault (s : State) (d : DieId) : State :=
  let was := (s.die d).tally.st
  if was = .fault then s
  else
    let s := s.onTally d fun y => { y with st := .fault, strikes := 0, vacantSince := none, deeperOk := false }
    let own := s.fieldOf d
    let s := match own with
      | some f => (s.report d { code := 0xE402, field := fnum f }).sluice d f 0xFF
      | none => s.report d { code := 0xE402 }
    s.forEach (diePorts d) fun s p => s.losePin p

/-- A die enters HOLDOVER: it keeps counting and its DEPTH (R101). -/
def State.enterHoldover (s : State) (d : DieId) : State :=
  let now := s.now
  s.onTally d fun y =>
    { y with st := .holdover, parent := none, holdSince := now, deeperOk := false, vacantSince := none, strikes := 0 }

/-- A tally that steps to a value: the marks seen move with it. -/
def Tally.stepTo (y : Tally) (v : Dword) (rootOfs : Int) : Tally :=
  let by_ : Int := ((v.toNat : Int) - y.value.toNat) * 128
  { y with value := v, phase := 0, counting := true, err := 0, rootOfs := rootOfs,
           seen := y.seen.map fun e => (e.1, { e.2 with err := e.2.err + by_ }) }

/-- AGREED once the root offset is at most 0.75 tick (R85). -/
def Tally.agree (y : Tally) : Tally :=
  if y.rootOfs.natAbs ≤ 96 then { y with st := .agreed, wasAgreed := true, deeperOk := false, vacantSince := none } else y

/-- A die takes a parent by its last mark: DEPTH, root offset, then the limits of R85; a die at more than 20 stays UNSYNCED
(R83-R85, R100). An UNSYNCED die steps once to the parent's value and then slews (R80, R84, R374); a die in FAULT re-acquires under
R103. An AGREED die bears one mark above 0.75 tick; a die in HOLDOVER that takes a parent stays there through such a mark, with the
DEPTH it held (R85, R100; log entry 128). -/
def State.takeParent (s : State) (d : DieId) (q : Fin 5) (x : Seen) : State :=
  let y := (s.die d).tally
  let depth := x.mark.depth + 1
  if 20 < depth then (if y.st = .unsynced then s else s.enterHoldover d)
  else
    let ofs := x.err + x.mark.rootOfs
    let y1 := { y with parent := some q, depth := depth, err := x.err, rootOfs := ofs, lastMark := x.when_, strikes := 0,
                       epoch := x.mark.epoch, leader := x.mark.leader }
    if y.st = .unsynced then
      (if y.stepped then s.onTally d fun _ => y1.agree
       else
         let v := x.mark.tally + BitVec.ofNat 64 ((s.port ⟨d, q⟩).link.pinned + (s.now - x.when_))
         s.onTally d fun _ => ({ y1 with stepped := true }.stepTo v x.mark.rootOfs).agree)
    else if y.st = .fault then
      (if !s.mayStep d then s.onTally d fun _ => { y1 with counting := y.counting }
       else if 0 < x.err then s.onTally d fun _ => { y1 with counting := false }
       else
         let v := y.value + BitVec.ofNat 64 ((-x.err).toNat / 128)
         s.onTally d fun _ => (y1.stepTo v x.mark.rootOfs).agree)
    else if 256 < x.err.natAbs ∨ 108 < ofs.natAbs then (s.onTally d fun _ => y1).enterFault d
    else if 96 < ofs.natAbs then
      (if 1 ≤ y.strikes then (s.onTally d fun _ => y1).enterFault d
       else s.onTally d fun _ => { y1 with strikes := 1, depth := if y.st = .agreed then depth else y.depth })
    else s.onTally d fun _ => y1.agree

/-- The present parent fails: the best admitted neighbour shallower than the die is taken at once, else HOLDOVER (R83,
R101). A die in FAULT or UNSYNCED only loses its parent. -/
def State.parentFails (s : State) (d : DieId) : State :=
  let y := (s.die d).tally
  let s := s.onTally d fun y => { y with parent := none }
  if y.st = .agreed then
    (match s.bestParent d y.depth with
     | some b => s.takeParent d b.1 b.2
     | none => s.enterHoldover d)
  else s

/-- A link leaves UP (down, Dry, disabled): its marks count no more, and a die whose parent it was changes parent (R83). -/
def State.linkLeaves (s : State) (p : PortId) : State :=
  let s := s.onTally p.die fun y => { y with seen := NMap.erase y.seen p.port.val }
  if (s.die p.die).tally.parent = some p.port then s.parentFails p.die else s

/-- Whether a die is the tally root (04). -/
def State.isRoot (s : State) (d : DieId) : Bool := s.leader.root = some d

/-! ### The reference input (R77, R78) -/

/-- Whether the tray at the other end of a cage's link is locked to the leader: the die there is AGREED under its LEADER, by its last
mark, or it is the port's own parent (R77). -/
def State.lockedPeer (s : State) (p : PortId) : Bool :=
  (s.die p.die).tally.seen.any fun e => e.1 = p.port.val && e.2.mark.state = 1 && e.2.mark.leader = s.leader.serial

/-- Cages of external ports in UP toward trays locked to the leader whose recovered clock has not failed: the tally path first, then
ascending (R77, R78). -/
def State.clockPaths (s : State) : List Nat :=
  let open_ := (List.finRange 16).filter fun c =>
    let p := cagePort s.span.num c
    (s.port p).link.st = .up && !(s.port p).link.refFailed && s.lockedPeer p
      && (match (s.port p).link.mate with | some q => q.die.tray ≠ s.span.num | none => false)
  let path := open_.filter fun c => (s.die (cagePort s.span.num c).die).tally.parent = some (cagePort s.span.num c).port
  let best := path.foldl (fun b c =>
    match b with
    | none => some c
    | some a =>
      if (s.die (cagePort s.span.num c).die).tally.depth < (s.die (cagePort s.span.num a).die).tally.depth then some c
      else some a) (none : Option (Fin 16))
  (best.toList ++ open_.filter fun c => some c ≠ best).map fun c => c.val + 1

/-- The Watermaster writes the cleaner's inputs: the local oscillator on a lone tray and on the leader, else the recovered
clocks; with none the cleaner is in holdover (R77, R78; log entry 129). -/
def State.setCleaner (s : State) : State :=
  if s.leader.lead then s.putCleaner { s.cleaner with input := 0, standby := [], configured := true }
  else
    match s.clockPaths with
    | [] => s.putCleaner { s.cleaner with standby := [], holdover := true, configured := true }
    | c :: rest => (s.putCleaner { s.cleaner with input := c, standby := rest, holdover := false, configured := true })

/-! ### Receiving a mark -/

/-- The checks of a mark that concern the link itself: unequal PINNED on two consecutive marks; |e| above 2 ticks on two
consecutive marks of the die's own LEADER (R385) from a neighbour that is not the parent; 16 good marks in each direction end a PIN_LOST marking (R86, R90,
R102). -/
def State.checkPin (s : State) (p : PortId) (m : Mark) (e : Int) : State :=
  let y := s.port p
  let isParent := (s.die p.die).tally.parent = some p.port
  let unequal := m.pinned ≠ y.link.pinned
  let far : Bool := 256 < e.natAbs && m.leader = (s.die p.die).tally.leader
  let pinStrikes := if unequal then y.pin.pinStrikes + 1 else 0
  let errStrikes := if far ∧ !isParent then y.pin.errStrikes + 1 else 0
  let good := if unequal ∨ far then 0 else y.pin.good + 1
  let s := s.setPort p { y with pin := { y.pin with pinStrikes := pinStrikes, errStrikes := errStrikes, good := good } }
  if 2 ≤ pinStrikes ∨ 2 ≤ errStrikes then s.markPinLost p
  else
    let ends := s.linkEnds p
    let mine := ends.filter fun q => q.die.tray = s.span.num
    if mine.all (fun q => 16 ≤ (s.port q).pin.good ∧ (s.die q.die).tally.st = .agreed) ∧ m.state = 1 then
      s.forEach (mine.filter fun q => (s.port q).pin.lost) fun s q =>
        s.onPort q fun y => { y with pin := { y.pin with lost := false } }
    else s

/-- Leadership is treated as vacant by a die; its tray claims where it may, and a living leader answers its own tray's claim
(R98, R101). -/
def State.treatVacant (s : State) (d : DieId) : State :=
  let now := s.now
  let s := s.onTally d fun y => { y with vacantSince := some now, oldEpoch := y.epoch }
  if !s.cleaner.oscillatorOk then s
  else
    let s := s.emit (.claim s.serial)
    if s.leader.lead then s.emit (.leaderAnswer s.serial s.leader.epoch)
    else
      s.setLeader { s.leader with vacant := true, standing := none, windowFrom := some (s.leader.windowFrom.getD s.now),
                                  claims := if s.leader.claims.contains s.serial then s.leader.claims
                                            else s.leader.claims ++ [s.serial] }

/-! ### Two living leaderships (R99, R101) -/

/-- Whether a mark is of another living leadership: AGREED under another LEADER, at a die that is AGREED itself, from a neighbour
that is not its parent (R101). -/
def State.rivalMark (s : State) (p : PortId) (m : Mark) : Bool :=
  let y := (s.die p.die).tally
  m.state = 1 && m.leader ≠ 0 && y.leader ≠ 0 && m.leader ≠ y.leader && y.st = .agreed && y.parent ≠ some p.port

/-- This tray withdraws from its leadership for the older one that stands: its dies enter FAULT, hold no DEPTH in the standing tree and
re-acquire from it (R99, R101; log entry 130). -/
def State.withdraw (s : State) (m : Mark) : State :=
  let s := s.setLeader { s.leader with serial := m.leader, epoch := m.epoch, lead := false, root := none, vacant := false,
                                       windowFrom := none, claims := [] }
  s.forEach s.ownDies fun s d =>
    let y := (s.die d).tally
    if y.leader = m.leader ∨ y.st = .unsynced then s
    else (s.enterFault d).onTally d fun y => { y with leader := m.leader, epoch := m.epoch, depth := 0xFF, parent := none }

/-- TALLY_MARK: a mark is delivered on a port `frac`/128 into the die's tick (R82-R86, R90, R98, R101, R103). -/
def execTallyMark (p : PortId) (m : Mark) (frac : Fin 128) (t : Nat) (s : State) : Out :=
  let s := s.clock t
  let d := p.die
  if (s.port p).link.st ≠ .up ∨ !s.dieUp d then .next s
  else
    let y := (s.die d).tally
    let e : Int := ((y.value.toNat : Int) * 128 + frac.val) - ((m.tally.toNat : Int) + (s.port p).link.pinned) * 128
    let x : Seen := { mark := m, err := e, when_ := s.now }
    let foreign := (s.port p).link.foreign
    let rival := !foreign && s.rivalMark p m
    if rival ∧ y.epoch.toNat ≤ m.epoch.toNat then .next (s.checkPin p m e)
    else
    let s := if rival then s.withdraw m else s
    let s := if foreign then s else s.onTally d fun y =>
      { y with seen := NMap.set y.seen p.port.val x,
               epoch := if y.epoch.toNat < m.epoch.toNat then m.epoch else y.epoch }
    let s := s.checkPin p m e
    if s.isRoot d ∨ foreign then .next s
    else
      let y := (s.die d).tally
      let s := if y.st = .holdover ∧ m.leader = 0 ∧ m.epoch = y.epoch ∧ y.vacantSince.isNone then s.treatVacant d else s
      let s :=
        if y.parent = some p.port then
          (if s.markGood d p.port x then
            (match s.bestParent d y.limit with
             | some b => if b.2.mark.depth + 2 ≤ m.depth then s.takeParent d b.1 b.2 else s.takeParent d p.port x
             | none => s.takeParent d p.port x)
           else s.parentFails d)
        else
          match y.parent, s.bestParent d y.limit with
          | none, some b =>
            if y.vacantSince.isSome ∧ !s.leader.lead ∧ b.2.mark.epoch.toNat ≤ y.oldEpoch.toNat
                ∧ s.leader.standing ≠ some b.2.mark.epoch then s else s.takeParent d b.1 b.2
          | some q, some b =>
            (match NMap.get (y.seen.map fun e => (e.1, some e.2)) q.val none with
             | some z => if b.2.mark.depth + 2 ≤ z.mark.depth then s.takeParent d b.1 b.2 else s
             | none => s)
          | _, none => s
      if s.leader.lead then .next s else .next s.setCleaner

/-- SLEW_STEP: one step of 1/128 tick toward the parent, at most every 512 ticks, while |e| exceeds 1/128 tick (R84). -/
def execSlewStep (d : DieId) (t : Nat) (s : State) : Out :=
  let s := s.clock t
  let y := (s.die d).tally
  let now := s.now
  if y.err.natAbs ≤ 1 ∨ y.parent.isNone ∨ now < y.lastSlew + 512 ∨ !y.counting then .next s
  else
    let one : Int := if 0 < y.err then 1 else -1
    .next (s.onTally d fun y => { y with phase := y.phase - one, err := y.err - one, rootOfs := y.rootOfs - one, lastSlew := now })

/-! ### Silence and HOLDOVER (R101) -/

/-- PARENT_SILENCE: no parent mark for 8,192 ticks on a link still UP: HOLDOVER (R83, R101). -/
def execParentSilence (d : DieId) (t : Nat) (s : State) : Out :=
  let s := s.clock t
  let y := (s.die d).tally
  if y.st = .agreed ∧ y.parent.isSome ∧ y.lastMark + silence ≤ s.now ∧ !s.isRoot d then .next (s.enterHoldover d) else .next s

/-- HOLDOVER_DESCENDANT_END: the limit to shallower parents ends after 163,840 ticks (R101). -/
def execHoldoverDescendantEnd (d : DieId) (t : Nat) (s : State) : Out :=
  let s := s.clock t
  let y := (s.die d).tally
  if y.st = .holdover ∧ y.parent.isNone ∧ !y.deeperOk ∧ y.holdSince + holdShallow ≤ s.now then
    let s := s.onTally d fun y => { y with deeperOk := true }
    match s.bestParent d 0xFF with
    | some b => .next (s.takeParent d b.1 b.2)
    | none => .next s
  else .next s

/-- HOLDOVER_VACANT: 172,032 ticks without a parent: leadership is treated as vacant (R101). -/
def execHoldoverVacant (d : DieId) (t : Nat) (s : State) : Out :=
  let s := s.clock t
  let y := (s.die d).tally
  if y.st = .holdover ∧ y.parent.isNone ∧ y.vacantSince.isNone ∧ y.holdSince + holdVacant ≤ s.now then .next (s.treatVacant d) else .next s

/-- HOLDOVER_FAULT: 12 ms after leadership was treated as vacant, a die without a parent enters FAULT (R101). -/
def execHoldoverFault (d : DieId) (t : Nat) (s : State) : Out :=
  let s := s.clock t
  let y := (s.die d).tally
  match y.vacantSince with
  | some n => if y.st = .holdover ∧ y.parent.isNone ∧ n + vacantMax ≤ s.now then .next (s.enterFault d) else .next s
  | none => .next s

/-! ### The leader and the root (R98-R100, R374) -/

/-- The die R374 makes the root: the X of the lowest placed package in state 2 whose die runs. -/
def State.pickRoot (s : State) : Option DieId :=
  (allPkgs.find? fun n => (s.pkg n).placed && (s.pkg n).st = .on && s.dieUp ⟨s.span.num, n, 0⟩).map fun n => ⟨s.span.num, n, 0⟩

/-- A die becomes the root: it keeps its tally, starts an epoch and raises LEADER_CHANGE; the serving instance moves with it
(R98, R100, R258, R374). -/
def State.makeRoot (s : State) (d : DieId) (epoch : Half) : State :=
  let s := s.onTally d fun y =>
    { y with st := .agreed, wasAgreed := true, counting := true, parent := none, depth := 0, rootOfs := 0, err := 0,
             epoch := epoch, leader := s.serial, vacantSince := none, strikes := 0 }
  let s := s.setLeader { s.leader with root := some d, epoch := epoch, lead := true, vacant := false }
  let s := s.report d { code := 0xE404 }
  if s.serving = some d.pkg then s else s.moveServing (some d.pkg)

/-- The newest EPOCH this tray knows: its leader's and its dies' (R83, R98). -/
def State.newestEpoch (s : State) : Half :=
  s.ownDies.foldl (fun e d => if e.toNat < (s.die d).tally.epoch.toNat then (s.die d).tally.epoch else e) s.leader.epoch

/-- The root die is lost while its tray leads: the next one is chosen in the same way and starts a new epoch; a root that still runs is
an other die to it and enters HOLDOVER (R100, R101, R374). -/
def State.rootLost (s : State) (d : DieId) : State :=
  if !s.isRoot d ∨ !s.leader.lead then s
  else
    let s := s.setLeader { s.leader with root := none }
    let s := if s.dieUp d then s.enterHoldover d else s
    match s.pickRoot with
    | some r => s.makeRoot r (s.newestEpoch + 1)
    | none => if s.serving.isSome then s.moveServing none else s

/-- Whether the tray may claim: its oscillator is healthy and a die of it that runs is not in FAULT (R98). -/
def State.mayClaim (s : State) : Bool :=
  s.cleaner.oscillatorOk && s.ownDies.any fun d => s.dieUp d && (s.die d).tally.st ≠ .fault

/-- A list of claims with one more. -/
def addClaim (l : List Dword) (serial : Dword) : List Dword := if l.contains serial then l else l ++ [serial]

/-- A claim is taken into the window of 10 ms, which the first claim seen opens; a tray for which leadership is vacant claims as well
(R98). -/
def State.takeClaim (s : State) (serial : Dword) : State :=
  let own : Bool := s.leader.vacant && s.mayClaim && !s.leader.claims.contains s.serial && serial ≠ s.serial
  let l := addClaim s.leader.claims serial
  let s := s.setLeader { s.leader with windowFrom := some (s.leader.windowFrom.getD s.now),
                                       claims := if own then addClaim l s.serial else l }
  if own then s.emit (.claim s.serial) else s

/-- The tray whose leadership holds: where it is another than before, the span's serving instance moves to it (R258). -/
def State.followLeader (s : State) (serial : Dword) : State :=
  let moved : Bool := s.leader.serial ≠ serial
  let s := s.setLeader { s.leader with serial := serial }
  if moved then s.moveServing s.serving else s

/-- A living leader's answer: this tray, which leads not, withdraws its claim and follows that leader under its EPOCH (R101). -/
def State.takeAnswer (s : State) (serial : Dword) (epoch : Half) : State :=
  let rest := s.leader.claims.filter (· ≠ s.serial)
  let s := s.followLeader serial
  s.setLeader { s.leader with epoch := epoch, vacant := false, standing := some epoch, claims := rest,
                              windowFrom := if rest.isEmpty then none else s.leader.windowFrom }

/-- LEADER_CLAIM: a claim reaches this tray, or, with `answer`, a living leader's answer with its serial and EPOCH (log entry 131). A
living leader answers a claim and takes part in no election; another tray takes the claim into the window, and withdraws its own on an
answer (R98, R99, R101). -/
def execLeaderClaim (c : Claim) (t : Nat) (s : State) : Out :=
  let s := s.clock t
  match c.answer with
  | some e => if s.leader.lead then .next s else .next (s.takeAnswer c.serial e)
  | none =>
    if s.leader.lead then
      .next ((s.setLeader { s.leader with answered := s.leader.answered ++ [c.serial] }).emit
        (.leaderAnswer s.serial s.leader.epoch))
    else .next (s.takeClaim c.serial)

/-- The lowest serial of a list of claims (R98). -/
def lowest (l : List Dword) : Option Dword :=
  l.foldl (fun b c => match b with | none => some c | some a => if c.toNat < a.toNat then some c else some a) none

/-- Formation ends with the election: SPAN_FORM is answered (R98, Table 10.6). -/
def State.endForm (s : State) : State :=
  match s.span.forming with
  | none => s
  | some w =>
    let s := s.setSpan { s.span with forming := none }
    if w.opcode = 0 then s else s.finishTray 0 (le 1 s.span.num.val ++ le 1 s.trays.length ++ le 2 0)

/-- LEADER_CLAIM_WINDOW_CLOSE: the lowest serial wins; the winner starts an epoch with its root, every other claimant withdraws
and locks its cleaner to the leader; dies of other trays enter UNSYNCED at span formation (R77, R98). -/
def execLeaderClaimWindowClose (t : Nat) (s : State) : Out :=
  let s := s.clock t
  match s.leader.windowFrom with
  | some from_ =>
    if s.now < from_ + leaderWindow then .next s
    else
      let forming := s.span.forming.isSome
      let claims := s.leader.claims
      let s := s.setLeader { s.leader with windowFrom := none, claims := [], answered := [] }
      if s.leader.lead then .next s.endForm
      else
      match lowest claims with
      | none => .next s.endForm
      | some w =>
        if w = s.serial then
          let s := s.followLeader w
          let s := s.setLeader { s.leader with lead := true, vacant := false }
          match s.pickRoot with
          | some r => .next ((s.makeRoot r (s.newestEpoch + 1)).setCleaner.endForm)
          | none => .next s.setCleaner.endForm
        else
          let s := s.followLeader w
          let s := s.setLeader { s.leader with lead := false, vacant := false, root := none }
          let s := if forming then
              s.forEach s.ownDies fun s d => s.onTally d fun y => { y with st := .unsynced, stepped := false, parent := none, depth := 0xFF }
            else s
          .next s.setCleaner.endForm
  | none => .next s

/-- REFERENCE_INPUT_FAIL: the cleaner enters holdover and switches to its next healthy input, if one is left; the leader that
loses its local oscillator loses leadership (R78, R99, R100). Its root then has no root above it and enters HOLDOVER (log
entry 37). -/
def execReferenceInputFail (t : Nat) (s : State) : Out :=
  let s := s.clock t
  let c := s.cleaner
  let own : Bool := c.input = 0
  let input := c.input
  let c := match c.standby with
    | n :: rest => { c with input := n, standby := rest, holdover := false }
    | [] => { c with holdover := true }
  let s := s.putCleaner { c with oscillatorOk := c.oscillatorOk && !own }
  let s := if own then s
    else s.onLink (cagePort s.span.num (Fin.ofNat 16 (input - 1))) fun l => { l with refFailed := true }
  if own ∧ s.leader.lead then
    match s.leader.root with
    | some r => .next ((s.setLeader { s.leader with root := none, lead := false, vacant := true }).enterHoldover r)
    | none => .next (s.setLeader { s.leader with lead := false, vacant := true })
  else .next s

/-- ROOT_TALLY_START: the root's tally starts at 0; the serving instance is on the same die (R374). -/
def execRootTallyStart (t : Nat) (s : State) : Out :=
  let s := s.clock t
  if !s.leader.lead ∨ s.leader.root.isSome then .next s
  else
    match s.pickRoot with
    | some r =>
      let s := s.onTally r fun y =>
        { y with value := 0, phase := 0, counting := true, st := .agreed, wasAgreed := true, parent := none, depth := 0,
                 rootOfs := 0, err := 0, epoch := s.leader.epoch, leader := s.serial }
      let s := s.setLeader { s.leader with root := some r }
      .next (if s.serving = some r.pkg then s else s.moveServing (some r.pkg))
    | none => .next s

end Sys2Proof.Machine
end

