-- ==== Sys2Proof/Machine/Link.lean ====
section
/-! DEFINITION. Sys2Proof/Machine/Link.lean: what training, lane repair, Dry and the loss of a link share: repair maps, soft
retirements, timers, attempts, going down and coming UP (R111, R114-R128, R162-R165, R246). -/

namespace Sys2Proof.Machine

/-! ### Repair maps (R111, R125-R128, R215, R216) -/

/-- The retired lanes of a repair map entry with their sources (Table 5.5). -/
def mapLanes (m : Half) : List (Nat × Nat) :=
  let v := m.toNat
  (if v % 32 = 31 then [] else [(v % 32, v / 1024 % 4)]) ++ (if v / 32 % 32 = 31 then [] else [(v / 32 % 32, v / 4096 % 4)])

/-- The repair map entry of at most two retired lanes, the lower in RET_A (Table 5.5). -/
def mapEntry (l : List (Nat × Nat)) : Half :=
  match l with
  | [] => 0x03FF
  | [a] => BitVec.ofNat 16 (a.1 + 32 * 31 + 1024 * a.2)
  | a :: b :: _ =>
    let x := if a.1 < b.1 then a else b
    let y := if a.1 < b.1 then b else a
    BitVec.ofNat 16 (x.1 + 32 * y.1 + 1024 * x.2 + 4096 * y.2)

/-- The union of retired lanes: a lane named twice keeps its first source. -/
def unionLanes (a b : List (Nat × Nat)) : List (Nat × Nat) := a ++ b.filter fun x => !(a.any fun y => y.1 = x.1)

/-- The orientation code of a die: 0 for an X; the carrier's straps under TESTMODE, else ORIENT of its placement registers; on another
tray the code R212 gives its slot (R211, R212, R225, Table 18.9). -/
def State.orientOf (s : State) (d : DieId) : Nat :=
  let b := (s.die d).boot
  if d.slot = 0 then 0
  else if d.tray ≠ s.span.num then (d.slot.val + 1) % 4
  else if b.testMode then b.orientStrap % 8 else b.plcCtrl.toNat % 8

/-- The adapter of a port: 0 Bridge, 1 Furrow, 2 Culvert; 3 for an edge with none. In the carrier the one ADAPTER selects, in a tray
the one EDGE_USE enables (R213, R222, R225, Table 18.9). -/
def State.adapter (s : State) (p : PortId) : Nat :=
  let b := (s.die p.die).boot
  if profileOf p = 0 then 0
  else if p.die.tray ≠ s.span.num then profileOf p
  else if b.testMode then (if (s.port p).tst.ctrl.getLsbD 13 then 2 else 1)
  else
    let u := b.plcCtrl.toNat / 64 / 4 ^ edgeOf (b.plcCtrl.toNat % 8) p.port.val % 4
    if u = 1 ∨ u = 2 then u else 3

/-- Bundles, data lanes and spare lanes of a port's adapter (Tables 1.4, 5.2): in the carrier those of the adapter under test. -/
def State.shape (s : State) (p : PortId) : Nat × Nat × Nat :=
  if !s.inCarrier p.die ∨ profileOf p = 0 then (bundlesOf p, dataLanes p, spareLanes p)
  else if s.adapter p = 2 then (2, 7, 1) else (8, 16, 2)

/-- The profile a port trains in: its place's, in the carrier its adapter's (R225, R226). -/
def State.trainProfile (s : State) (p : PortId) : Nat := if s.inCarrier p.die then s.adapter p else profileOf p

/-- The fuse record entry of a port's bundle and direction: by physical edge on an HC-2, by root port on an HX-1; no lane
where the record is bad (R126, R215, R216). -/
def State.fuseMap (s : State) (p : PortId) (k : Nat) : Half :=
  let b := (s.die p.die).boot
  let e := if p.die.slot = 0 then p.port.val else if p.port = 4 then 4 else edgeOf (s.orientOf p.die) p.port.val
  let full : Bool := if s.inCarrier p.die then s.adapter p ≠ 2 else 2 * bundlesOf p ≤ 16
  if b.fuseGood ∧ full ∧ k < 16 then NMap.get b.fuse (16 * e + k) 0x03FF else 0x03FF

/-- The working repair map entry of a bundle and direction, 2 x bundle + direction (KLC_LANEMAP, R125). -/
def State.laneMap (s : State) (p : PortId) (k : Nat) : Half := NMap.get (s.port p).lanes.maps k (s.fuseMap p k)

/-- The UID of the other end: the die the wiring joins, or what CONFIG stated over a cable. -/
def State.peerUid (s : State) (p : PortId) : Option Dword :=
  match wired p with
  | some q => some (s.die q.die).ident.uid
  | none => (s.port p).link.heard.map fun h => h.uid

/-- The cable of an external port: vendor part and serial (R122). -/
def State.cableOf (s : State) (p : PortId) : Option (Nat × Nat) :=
  if (cageOf p).isSome then (s.port p).link.cable.map fun m => (m.part, m.serial) else none

/-- The key of a port's soft retirements (R122, R127). -/
def State.softKey (s : State) (p : PortId) : SoftKey :=
  { uid := (s.die p.die).ident.uid, port := p.port.val, peerUid := (s.peerUid p).getD 0, cable := s.cableOf p }

/-- Soft retirements the Watermaster holds under a port's key; those of another die, peer or cable do not apply (R122, R127,
R128). -/
def State.softHeld (s : State) (p : PortId) : List SoftRet :=
  if s.inCarrier p.die then [] else s.wm.soft.filter fun x => x.key = s.softKey p

/-- The soft retirements of a bundle and direction that the port's present training starts from (R127). -/
def State.softLanes (s : State) (p : PortId) (k : Nat) : List (Nat × Nat) :=
  ((s.port p).lanes.soft.filter fun x => x.map = k).map fun x => (x.lane, x.src)

/-- A soft retirement enters the Watermaster's records and is reported as LANE_RETIRED (R127, R128, R131). -/
def State.retire (s : State) (p : PortId) (k lane src : Nat) : State :=
  let x : SoftRet := { key := s.softKey p, map := k, lane := lane, src := src }
  let s := if s.inCarrier p.die || s.wm.soft.any fun y => y.key = x.key && y.map = k && y.lane = lane then s
    else s.onWm fun w => { w with soft := w.soft ++ [x] }
  s.report p.die { code := 0xE301, locKind := 2, location := p.port.val }

/-- Standby lanes of a bundle and direction under the working map (R111). -/
def State.standby (s : State) (p : PortId) (k : Nat) : Nat := spareLanes p - (mapLanes (s.laneMap p k)).length

/-- The physical lanes that carry data under a map: the first not retired, in ascending order (R111). -/
def dataOf (p : PortId) (m : Half) : List Nat :=
  ((List.range (dataLanes p + spareLanes p)).filter fun l => !((mapLanes m).any fun e => e.1 = l)).take (dataLanes p)

/-- The trend baseline restarts empty (R415). -/
def Errors.restartTrend (x : Errors) : Errors := { x with upWindows := 0, baseFail := 0, baseCorr := 0 }

/-- Sets the working map of a bundle and direction; a change has the leader owe a new equalisation record and restarts the trend
baseline (R124, R125, R415). -/
def State.setMap (s : State) (p : PortId) (k : Nat) (m : Half) : State :=
  if s.laneMap p k = m then s
  else s.onPort p fun y =>
    { y with lanes := { y.lanes with maps := NMap.set y.lanes.maps k m }, link := { y.link with eqOwed := y.link.leader || y.link.eqOwed },
             err := y.err.restartTrend }

/-! ### Training states (R114, R115) -/

/-- Timer of a training state in ticks: Bridge and Furrow, or Culvert (Table 5.3). -/
def stateTimer (st : TrSt) (profile : Nat) : Option Nat :=
  let culvert : Bool := profile = 2
  match st with
  | .clock => some (if culvert then 2 * ms else 50 * us)
  | .repair => some (if culvert then 10 * ms else 200 * us)
  | .align => some (if culvert then 200 * us else 20 * us)
  | .config => some (if culvert then 100 * us else 20 * us)
  | .pin => some (if culvert then 100 * us else 20 * us)
  | _ => none

/-- Warm and cold equalisation bounds (Table 5.1). -/
def warmTimer (profile : Nat) : Nat := if profile = 0 then 300 * us else if profile = 1 then 500 * us else 50 * ms
def coldTimer (profile : Nat) : Nat := if profile = 0 then sec else if profile = 1 then 2 * sec else 25 * sec

/-- A port enters a training state; its timer runs from now (R114). -/
def State.enterTr (s : State) (p : PortId) (st : TrSt) : State :=
  let now := s.now
  let profile := s.trainProfile p
  s.onLink p fun l => { l with st := st, timerFrom := now, timer := stateTimer st profile }

/-- Whether a port may train: enabled by the start-up order, neither disabled nor under test (R115, R223, R245). -/
def Port.mayTrain (y : Port) : Bool :=
  y.link.enabled && !y.link.disabled && !y.link.forced && y.tst.ctrl.toNat % 8 = 0

/-- Whether a port may train to itself: in the carrier, in MODE 4 while no pattern runs (R226; log entry 144). -/
def State.trainsAlone (s : State) (p : PortId) : Bool :=
  s.inCarrier p.die && (s.port p).tst.ctrl.toNat % 8 = 4 && !(s.port p).tst.ctrl.getLsbD 8

/-- The logical port of the other end, for a tie of UIDs on a loopback. -/
def State.peerPort (s : State) (p : PortId) : Option Nat :=
  match wired p with
  | some q => some q.port.val
  | none => (s.port p).link.heard.map fun h => h.id.port.val

/-- Whether this end has the lower UID; equal UIDs compare by port number (R120). -/
def State.lowerEnd (s : State) (p : PortId) : Bool :=
  match s.peerUid p with
  | some u =>
    let mine := (s.die p.die).ident.uid.toNat
    mine < u.toNat || (mine = u.toNat && p.port.val < (s.peerPort p).getD 5)
  | none => true

/-- Whether this end leads: the I/O end on Bridge, else the lower UID, changed by a role swap; in the carrier the port's own
transmitter (R120, R121, R226). -/
def State.leads (s : State) (p : PortId) : Bool :=
  if s.inCarrier p.die then true
  else if profileOf p = 0 then p.die.slot = 0 else s.lowerEnd p != (s.port p).link.swapped

/-- Whether the placement registers of a port's die let its links enable: VALID of PLC_CTRL, which an HX-1 has not and a test
carrier ignores (R225, Table 18.9). -/
def State.linksAllowed (s : State) (p : PortId) : Bool :=
  let b := (s.die p.die).boot
  !p.die.isCompute || b.plcCtrl.getLsbD 5 || b.testMode

/-- A port in DOWN begins to train, if it may, in the carrier to itself: DETECT, Bridge in KL1 form (R114, R116, R226). -/
def State.startTraining (s : State) (p : PortId) : State :=
  let y := s.port p
  let lead := s.leads p
  let alone := s.trainsAlone p
  if (y.mayTrain ∧ s.linksAllowed p) ∨ alone then
    (s.enterTr p .detect).onLink p fun l =>
      { l with backoffFrom := none, fetching := false, cold := false, refFailed := false, cageOff := false, kl2 := profileOf p ≠ 0, leader := lead }
  else s.onLink p fun l => { l with st := .down, backoffFrom := none, timer := none }

/-- Statuses a repeat cannot mend (R115). -/
def finalStatus (status : Nat) : Bool := [eLinkRepair, eLinkGen, eLinkPeer, eLinkMedia].contains status

/-- A training attempt fails: back-off in DOWN, or FAILED after the third in a row and at once for a final status (R115). -/
def State.failAttempt (s : State) (p : PortId) (status : Nat) : State :=
  let n := (s.port p).link.attempts + 1
  let last := finalStatus status || 3 ≤ n
  let now := s.now
  let s := s.onLink p fun l =>
    { l with st := if last then .failed else .down, attempts := min 3 n, last := status, timer := none, fetching := false,
             backoffFrom := if last then none else some now }
  if last then s.report p.die { code := 0xE305, locKind := 2, location := p.port.val, info := status } else s

/-- Work of a training state that completes after its timer fails the attempt; in the same instant it still completes
(R114). -/
def State.trainWork (s : State) (p : PortId) (st : TrSt) (work : State → State) : State :=
  let l := (s.port p).link
  if l.st ≠ st ∨ !(s.dieUp p.die || s.inCarrier p.die) then s
  else if (match l.timer with | some n => decide (l.timerFrom + n < s.now) | none => false) then s.failAttempt p eLinkTimeout
  else work s

/-! ### Counters (R169) -/

/-- Adds `n` to counter `i` of a port, saturating, with its bit of KLC_CNTSAT (R169). -/
def Errors.bump (x : Errors) (i n : Nat) : Errors :=
  let v := satAdd 0xFFFFFFFF (NMap.get x.cnt i 0) n
  { x with cnt := NMap.set x.cnt i v, sat := if v = 0xFFFFFFFF then setBit x.sat i else x.sat }

/-- Adds to a counter of a port: 0 CORR, 1 FAIL, 2 POISON, 3 POS, 4 REPLAY, 5 RETX, 6 NAK, 7 ACKERR, 8 LCLOST, 9 DOWN. -/
def State.bump (s : State) (p : PortId) (i n : Nat) : State := s.onPort p fun y => { y with err := y.err.bump i n }

/-! ### Going down and coming UP (R162-R164) -/

/-- What leaving UP stops: replay, substitutions, link-control answers, flits half reassembled wait for their replay; timers of
requests pause and ROUTE_HOLD goes out; the tally loses the link (R83, R163, R198, R199). -/
def State.leaveUp (s : State) (p : PortId) : State :=
  let s := s.settleAllTimers
  let s := s.onPort p fun y =>
    { y with side := { y.side with replaying := false, replayAt := none, replayFrom := none, synced := false, lc := [], lcWaiting := [] },
             lanes := { y.lanes with rx := none, tx := none, fails := [] }, planned := { y.planned with cw := [] }, dry := { y.dry with phase := .none_, requester := false, wakeAfter := false } }
  s.routeHoldAll p

/-- A link event: the link layer signals a change between UP, REPLAYING, QUARANTINE and DOWN, and vector 27 goes to the tray owner from
ready on (R172, R252, Table 10.5a; log entry 150). -/
def State.linkEvent (s : State) : State := if s.isReady then s.notify 0 27 else s

/-- A port in UP goes down (R162): DOWN counted and reported, pinning lost, and training begins at once. -/
def State.portDown (s : State) (p : PortId) (status : Nat) : State :=
  let s := s.leaveUp p
  let s := s.onLink p fun l => { l with st := .down, last := if status = 0 then l.last else status, attempts := 0, timer := none }
  let s := s.bump p 9 1
  let s := s.report p.die { code := 0xE304, locKind := 2, location := p.port.val, info := status }
  let s := (s.linkLeaves p).losePin p
  (s.startTraining p).linkEvent

/-- A port is taken down by a command, a disable or a test: DOWN with transmitters idle (R223, R245). -/
def State.portIdle (s : State) (p : PortId) : State :=
  let up := (s.port p).link.st = .up ∨ (s.port p).link.st = .dry
  let s := if up then s.leaveUp p else s
  let s := s.onLink p fun l => { l with st := .down, timer := none, backoffFrom := none, attempts := 0, fetching := false }
  if up then ((s.linkLeaves p).losePin p).linkEvent else s

/-- A plan load that woke links completes once each of them is UP (R137). -/
def State.settleWaking (s : State) (p : PortId) : State :=
  s.forEach allFields fun s f =>
    let x := s.field f
    if x.waking.contains p then
      let rest := x.waking.filter (· ≠ p)
      let s := s.onField f fun x => { x with waking := rest }
      (match x.holder, x.staged, rest with
       | some w, some pl, [] => if w.opcode = 0x0401 then s.finishField f 0 (le 8 pl.id.toNat) else s
       | _, _, _ => s)
    else s

/-- A port comes UP: pinned, published, any PIN_LOST marking and quarantine ended, REPLAY_SYNC before any side flit (R91,
R102, R164, Table 6.8). -/
def State.comeUp (s : State) (p : PortId) : State :=
  let s := s.settleAllTimers
  let s := s.onLink p fun l =>
    { l with st := .up, attempts := 0, last := 0, timer := none, backoffFrom := none, gen := if l.kl2 then 2 else 1,
             profile := profileOf p }
  let s := s.onPort p fun y =>
    { y with pin := { lastSent := y.pin.lastSent },
             err := { y.err with level := if y.err.level = .quarantine then .normal else y.err.level, below := 0, watchRun := 0 },
             side := { y.side with synced := false }, dry := { y.dry with busyAt := s.now } }
  let s := s.publishPort p
  let s := (s.settleWaking p).linkEvent
  let x := (s.port p).side
  s.sendLc p { type := 0x03, body := le 2 x.expected.toNat ++ le 2 x.next.toNat }

/-! ### Forced disables (R246) -/

/-- Ports disabled by force that no loaded plan holds any more go DOWN (R246). -/
def State.settleForced (s : State) : State :=
  s.forEach s.ownDies fun s d => s.forEach (diePorts d) fun s p =>
    let l := (s.port p).link
    if l.forced ∧ !s.planned p then
      (s.onLink p fun l => { l with forced := false, disabled := true, forcedAt := none, liftedAt := none }).portIdle p
    else s

end Sys2Proof.Machine
end

