-- ==== Sys2Proof/Machine/Sequencer.lean ====
section
/-! DEFINITION. Sys2Proof/Machine/Sequencer.lean: the field sequencer's commands: boundaries, launches, field-wide changes,
the sluice, switches, drains and flushes (R29-R48, R94-R97, R104, R166-R168, R188, R229-R244, R389). -/

namespace Sys2Proof.Machine

/-! ### The sluice alarm (R166) -/

/-- A die of a frozen field freezes at a boundary, the earlier of two (R166). -/
def Field.freezeDie (x : Field) (d : DieId) (at_ : Nat × Nat) : Field :=
  match x.dieFrozen.find? fun e => e.1 = d with
  | some e => if at_.1 < e.2.1 then { x with dieFrozen := (x.dieFrozen.filter fun e => e.1 ≠ d) ++ [(d, at_)] } else x
  | none => { x with dieFrozen := x.dieFrozen ++ [(d, at_)] }

/-- An alarm takes effect at a die: it freezes at the earlier boundary it has not yet passed. One that comes after its boundary, or
to a field that froze before it came, makes the die freeze at its next boundary and record the field as split (R166). -/
def State.sluiceAct (s : State) (d : DieId) (f : Fin 8) (b : Nat) : State :=
  let x := s.field f
  let now := s.leadTally f
  if !x.live ∨ !x.dies.contains d then s
  else if x.frozen then
    (if x.dieFrozen.any fun e => e.1 = d && e.2.1 ≤ now then s
     else
      let n := match x.run with | some r => r.step | none => 0
      (s.onField f fun x => { x.freezeDie d (x.walkFrom x.run (max b now) (x.frozenAt.getD now) n) with split := true }).report d
        { code := 0xE403, field := fnum f })
  else if b < now then
    (s.onField f fun x => { x.holdSluice d (x.boundaryFrom now).1 with split := true }).report d
      { code := 0xE403, field := fnum f }
  else s.onField f fun x => x.holdSluice d b

/-- SLUICE: a die of the field receives the alarm (R166, R168). -/
def execSluice (d : DieId) (f : Fin 8) (port : Nat) (boundary : Nat) (from_ : DieId) (t : Nat) (s : State) : Out :=
  let s := s.clock t
  let s := s.arrive { opcode := 0x51, field := fnum f, space := 0, dst := d, src := from_, dstUnit := 0x1C, srcUnit := 0,
                      tag := 0, cstatus := 0, len := 16, addr := 0 }
  let k : ActedKey := { die := from_.key, code := 0x51 + 256 * fnum f + 65536 * port, tally := boundary }
  if s.actedOn d k then .next s else .next ((s.noteActed d k).sluiceAct d f boundary)

/-! ### Field-wide changes (R95-R97, R296, R299) -/

/-- V(r) in millivolts (Table 12.3). -/
def rungMv (r : Nat) : Nat := [650, 680, 710, 740, 770, 800, 850, 900].getD r 900

/-- The target voltage of a die for a rung: V(r) + T (R297). -/
def State.targetMv (s : State) (d : DieId) (r : Nat) : Nat :=
  ((rungMv r : Int) + Config.trim (s.die d).ident.coef).toNat

/-- A Steward's voltage command to a die's regulator: held while it lies more than 10 mV below the target of the rung in
force (R298, R299). -/
def State.commandMv (s : State) (d : DieId) (mv rung : Nat) : State :=
  if mv + 10 < s.targetMv d rung then s.onDie d fun x => { x with pow := { x.pow with heldTarget := some mv } }
  else if (s.die d).pow.target = mv then s
  else s.onDie d fun x => { x with pow := { x.pow with target := mv, settled := false, heldTarget := none } }

/-- The rail after a rung took effect: a command that was held goes out first, no lower than the rung's target, then that target
(R299). -/
def State.settleMv (s : State) (d : DieId) (rung : Nat) : State :=
  let t := s.targetMv d rung
  let s := match (s.die d).pow.heldTarget with
    | some h => s.commandMv d (max h t) rung
    | none => s
  s.commandMv d t rung

/-- The lead die names a change at least 100 us ahead (R95). -/
def State.nameChange (s : State) (f : Fin 8) (k : ChangeKind) : State :=
  let b := s.leadTally f + leadTime + Config.leadExtra s.free
  (s.onField f fun x => { x with change := some { kind := k, boundary := b } }).spend

/-- The lowest limit of a field: ceiling, thermal limits of its dies, cap limits (R296). -/
def State.wantedRung (s : State) (f : Fin 8) : Nat :=
  let x := s.field f
  let thermal := x.dies.map fun d => (s.die d).pow.limit
  (thermal ++ x.caps.map fun c => c.2.level.toNat).foldl min (min 7 x.ceiling)

/-- The fallow duty asked of a field: the largest of its dies' and its caps'; a cap's fallow steps follow once rung 0 is in force
(R303, R308, R309). -/
def State.wantedDuty (s : State) (f : Fin 8) : Nat :=
  let x := s.field f
  let caps := if x.rung = 0 then x.caps.map fun c => 25 * (-c.2.level).toNat else []
  (caps ++ x.dies.map fun d => (s.die d).pow.duty).foldl max 0

/-- An abandoned rung-up returns each rail to the target of the rung in force (R300). -/
def State.abandonChange (s : State) (f : Fin 8) : State :=
  let x := s.field f
  match x.change with
  | some c =>
    let s := s.onField f fun x => { x with change := none }
    (match c.kind with
     | .rung _ => s.forEach x.dies fun s d => s.commandMv d (s.targetMv d x.rung) x.rung
     | _ => s)
  | none => s

/-- The lead die applies a change of the lowest limit, or of the duty, as a field-wide change; a change on its way that no
longer fits is replaced before its commit (R95, R296, R300). -/
def State.reviewLimits (s : State) (f : Fin 8) : State :=
  let x := s.field f
  if !x.live ∨ x.frozen then s
  else
    let rung := s.wantedRung f
    let duty := s.wantedDuty f
    let want : Option ChangeKind :=
      if rung ≠ x.rung then some (.rung rung) else if duty ≠ x.duty then some (.fallow duty) else none
    match x.change, want with
    | some c, w =>
      if c.committed ∨ w = some c.kind ∨ c.kind = .resume then s
      else
        let s := s.abandonChange f
        (match w with | some k => s.nameChange f k | none => s)
    | none, some k => s.nameChange f k
    | none, none => s

/-- STEWARD_LIMIT: limits and fallow requests reach the lead die (R296, R300, R303). -/
def execStewardLimit (f : Fin 8) (t : Nat) (s : State) : Out := .next ((s.clock t).reviewLimits f)

/-- Whether a die can confirm a change: for a higher rung its rail has settled at the target; a die in FAULT confirms no
resume (R299, 04). -/
def State.canConfirm (s : State) (f : Fin 8) (d : DieId) (k : ChangeKind) : Bool :=
  match k with
  | .rung r => r ≤ (s.field f).rung || ((s.die d).pow.settled && (s.die d).pow.target = s.targetMv d r)
  | .resume => (s.die d).tally.st ≠ .fault
  | .fallow _ => true

/-- FIELD_CHANGE_NOTICE: a die learns of a change; for a higher rung its Steward commands the new target (R95, R297,
R299). -/
def execFieldChangeNotice (f : Fin 8) (d : DieId) (t : Nat) (s : State) : Out :=
  let s := s.clock t
  let x := s.field f
  match x.change with
  | some c =>
    if !x.dies.contains d ∨ c.noticed.contains d then .next s
    else
      let s := s.onField f fun x => { x with change := some { c with noticed := c.noticed ++ [d] } }
      (match c.kind with
       | .rung r => if x.rung < r then .next (s.commandMv d (s.targetMv d r) x.rung) else .next s
       | _ => .next s)
  | none => .next s

/-- FIELD_CHANGE_CONFIRM: the lead die receives a confirmation that the die could give, by 20 us before the boundary (R95, R299). -/
def execFieldChangeConfirm (f : Fin 8) (d : DieId) (t : Nat) (s : State) : Out :=
  let s := s.clock t
  match (s.field f).change with
  | some c =>
    if c.noticed.contains d ∧ !c.confirmed.contains d ∧ !c.committed ∧ s.leadTally f + 20 * us ≤ c.boundary ∧ s.canConfirm f d c.kind then
      .next (s.onField f fun x => { x with change := some { c with confirmed := c.confirmed ++ [d] } })
    else .next s
  | none => .next s

/-- COMMIT_DEADLINE: from 20 us before the boundary until the boundary the lead die commits what every die confirmed in time, else the
change moves (R95). -/
def execCommitDeadline (f : Fin 8) (t : Nat) (s : State) : Out :=
  let s := s.clock t
  let x := s.field f
  match x.change with
  | some c =>
    if c.committed ∨ s.leadTally f + 20 * us < c.boundary then .next s
    else if x.dies.all c.confirmed.contains ∧ s.leadTally f < c.boundary then
      .next (s.onField f fun x => { x with change := some { c with committed := true } })
    else .next (s.nameChange f c.kind)
  | none => .next s

/-- FIELD_CHANGE_COMMIT: a die receives the commit; a change applies where every die holds it (R95; log entry 33). -/
def execFieldChangeCommit (f : Fin 8) (d : DieId) (t : Nat) (s : State) : Out :=
  let s := s.clock t
  let x := s.field f
  match x.change with
  | some c =>
    if c.committed ∧ x.dies.contains d ∧ !c.applied.contains d then
      .next (s.onField f fun x => { x with change := some { c with applied := c.applied ++ [d] } })
    else .next s
  | none => .next s

/-- A die's thermal limit and duty after a qualifying boundary: one rung below the rung in force at the rung-drop level; at the
fallow level the duty rises by 25 % once the last one is in force, up to 75 % (R302, R303). -/
def Power.atBoundary (p : Power) (rung duty : Nat) : Power :=
  let entered := fun (k : Nat) => p.levels.any fun e => k ≤ e.1
  let p := if entered 1 ∨ p.lost then { p with limit := min p.limit (rung - 1) } else p
  if (entered 2 ∨ p.lost) ∧ p.duty ≤ duty then { p with duty := min 75 (p.duty + 25) } else p

/-- The response to a cap is in force at the first qualifying boundary; one that comes more than 10 ms after the cap is reported
as CAP_LATE by the Steward (R309). -/
def State.capBoundary (s : State) (f : Fin 8) : State :=
  allPkgs.foldl (fun s n =>
    let key := 4 * s.span.num.val + n.val
    let c := NMap.get (s.field f).caps key {}
    match c.arrived with
    | some a =>
      if s.now < a + leadTime then s
      else
        let s := s.onField f fun x => { x with caps := NMap.set x.caps key { c with arrived := none } }
        if a + 10 * ms < s.now then s.report ⟨s.span.num, n, 0⟩ { code := 0xE702, field := fnum f } else s
    | none => s) s

/-- After a boundary: rails follow a lower rung, held targets go out, limits move on, a further change is named, and FIELD_RUNG
completes once the rung in force is the lowest limit (R16, R299, R302, R303, R309). -/
def State.afterChange (s : State) (f : Fin 8) (old : Field) : State :=
  let x := s.field f
  let s := if x.rung = old.rung then s
    else s.forEach x.dies fun s d => s.settleMv d x.rung
  let s := s.capBoundary f
  let s := if old.change.isSome ∧ x.change.isNone then s.reviewLimits f else s
  let s := s.forEach x.dies fun s d => s.onDie d fun y => { y with pow := y.pow.atBoundary x.rung x.duty }
  match x.holder with
  | some w => if w.opcode = 0x0603 ∧ x.rung = s.wantedRung f then s.finishField f 0 (le 1 x.rung ++ le 3 0) else s
  | none => s

/-! ### Step boundaries -/

/-- The sluice opens: the frozen step starts at the resume tally and the frozen interval counts as a calibration window
when it is long enough (R32, R105). -/
def State.unfreeze (s : State) (f : Fin 8) (b : Nat) : State :=
  s.onField f fun x =>
    { x with frozen := false, split := false, frozenAt := none, dieFrozen := [], change := none,
             lastCal := if x.frozenAt.getD b + calWindow ≤ b then b else x.lastCal }

/-- The earliest tally the lead die may name for a launch's first boundary (R94, R237, R244). -/
def Field.earliest (x : Field) (r : Running) : Nat := max (NMap.get x.rang r.idx 0 + leadTime) x.notBefore

/-- A launch whose first boundary the lead die names at `b` (R94, R104, R244). -/
def State.firstBoundary (s : State) (f : Fin 8) (r : Running) (b : Nat) : State :=
  let x := s.field f
  let frozen := x.freezes b
  let s := (s.keepSet f b).settlePonds f
  let s := if frozen then s.freezeField f b (some r) else s.applyChange f b
  if x.stepClosing then s.closeGate f x.closeWhy
  else if frozen then s
  else if r.cancel then s.completeRun f r lsCancelled
  else s.nextStep f r b

/-- The active plan is stale: its launches complete only by cancel (R106). -/
def Field.staleActive (x : Field) : Bool := x.active.any (·.stale)

/-- STEP_BOUNDARY: the lead die's tally reaches a boundary of the field (R29, R32, R94, R97, R104, R105). -/
def execStepBoundary (f : Fin 8) (t : Nat) (s : State) : Out :=
  let s := s.clock t
  let x := s.field f
  let now := s.leadTally f
  if !x.live ∨ x.flush.isSome then .next s
  else if x.frozen then
    match x.change with
    | some c =>
      if c.kind = .resume ∧ c.committed ∧ c.boundary ≤ now ∧ x.dies.all c.applied.contains = true then
        let s := (s.keepSet f c.boundary).unfreeze f c.boundary
        match x.run with
        | some r =>
          if r.kind = .switch then .next (s.checkEntry f r.idx (some c.boundary)) else .next (s.nextStep f r c.boundary)
        | none => .next s
      else .next s
    | none => .next s
  else
    match x.run with
    | none =>
      let s := s.settlePonds f
      let s := if x.freezes now then s.freezeField f now none else s.applyChange f now
      let s := if x.stepClosing then s.closeGate f x.closeWhy else s
      .next (s.afterChange f x)
    | some r =>
      if r.kind = .switch then .next s
      else if r.started then
        (if r.boundary ≤ now then .next ((s.passBoundary f r r.boundary).afterChange f x) else .next s)
      else if x.recalls.isEmpty ∧ x.drain.isNone ∧ x.switch.isNone ∧ (!x.staleActive ∨ r.cancel) ∧ x.earliest r ≤ now then
        .next ((s.firstBoundary f r now).afterChange f x)
      else .next s

/-! ### Taking a launch (R41, R42, R229) -/

/-- Whether the sequencer may take an entry now (R41, R240, R391). -/
def Field.mayTake (x : Field) : Bool :=
  x.live && x.taken ≠ x.prod && x.run.isNone && !x.ringClosed && !x.intakeHeld && !x.frozen && x.drain.isNone
    && x.flush.isNone && x.switch.isNone && x.st = .enabled

/-- A launch waiting for its switch. -/
def switchRun (i start boundary : Nat) (started : Bool) : Running :=
  { idx := i, entry := ⟨0, 0, 0⟩, step := 0, start := start, boundary := boundary, kind := .switch, started := started }

/-- The staged plan comes in with the entry that names it (R229): tailwater, still-water or reload, the first whose
conditions hold. A switch step is fallow: what waits for slots then is a step overrun (R71, R232). -/
def State.activate (s : State) (f : Fin 8) (i : Nat) : State :=
  let x := s.field f
  let fits : Bool := match x.staged with | some p => p.fastFits | none => false
  match x.ended with
  | some (b, true) =>
    if fits ∧ x.active.isSome ∧ x.reloadDue.isNone then
      let s := ((s.dropInserted f).startSwitch f .tailwater true).startWave f
      s.onField f fun x => { x with run := some (switchRun i b (b + 8192) true), ended := none }
    else (s.onField f fun x => { x with run := some (switchRun i 0 0 false), ended := none }).startReload f true
  | _ =>
    if fits ∧ x.dies.all s.dieDrained = true then
      (s.onField f fun x => { x with run := some (switchRun i 0 0 false), ended := none }).startSwitch f .still true
    else (s.onField f fun x => { x with run := some (switchRun i 0 0 false), ended := none }).startReload f true

/-- LAUNCH_TAKE: the next ring entry is taken: CANCELLED on a disabled field or by an earlier cancel; a switch where it
names the staged plan, or the reload that is due; else checked under R42 and started, at the previous launch's end where it is known
(R41, R94, R188, R229, R243, R244). An entry that is rejected leaves that end to the next one (R42; DEDUCED, log entry 158). One that
names the active plan while it is stale is not taken: it completes by cancel alone (R106). -/
def execLaunchTake (f : Fin 8) (t : Nat) (s : State) : Out :=
  let s := s.clock t
  let x := s.field f
  let i := x.taken.toNat % 64
  if x.live ∧ x.st = .disabled ∧ x.taken ≠ x.prod ∧ x.run.isNone then
    .next ((s.onField f fun x => { x with taken := x.taken + 1 }).completeBare f lsCancelled)
  else if !x.mayTake then .next s
  else
    let s0 := s
    let s := s.onField f fun x => { x with taken := x.taken + 1 }
    if x.cancels.contains i then .next (s.completeBare f lsCancelled)
    else
      let id := fieldAt (x.entryBytes i) 8 8
      let s := s.recallHomes f
      if x.staged.any fun p => p.id.toNat = id && !p.stale then .next (s.activate f i)
      else match x.reloadDue with
      | some staged =>
        .next ((s.onField f fun x => { x with run := some (switchRun i 0 0 false), ended := none }).startReload f staged)
      | none =>
        if x.active.any fun p => p.id.toNat = id && p.stale then .next s0
        else
          let s := (s.onField f fun x => { x with ended := none }).checkEntry f i (x.ended.map (·.1))
          .next (if (s.field f).run.isNone then s.onField f fun y => { y with ended := x.ended } else s)

/-- HOME_RECALL_DONE: a home of the field has no OWNED line left in its window (R188). -/
def execHomeRecallDone (f : Fin 8) (d : DieId) (t : Nat) (s : State) : Out :=
  let s := s.clock t
  if (s.die d).side.dir.any fun e => e.owner.isSome then .next s
  else .next (s.onField f fun x => { x with recalls := x.recalls.filter (· ≠ d) })

/-! ### Switches (R232-R239) -/

/-- A switch of the field ends well: the plan is active and the gates open; the waiting launch is checked, at `exactAt` where
its first boundary is known, or the waiting command completes (R229, R237, R238, R239). -/
def State.switched (s : State) (f : Fin 8) (exactAt : Option Nat) : State :=
  let x := s.field f
  let form := match x.switch with | some w => w.form | none => .still
  let s := ((s.finishSwitch f).onField f Field.reopen).settleForced
  let s := match x.run with
    | some r =>
      if x.frozen ∨ r.kind ≠ .switch then s
      else if r.cancel then s.completeRun f r lsCancelled
      else s.checkEntry f r.idx exactAt
    | none => s
  match x.holder with
  | some w =>
    if w.opcode = 0x0403 then s.finishField f 0 (le 1 (if form = .reload then 2 else 1) ++ le 3 0)
    else if w.opcode = 0x0404 then s.finishField f 0 []
    else if w.opcode = 0x0407 ∧ x.frozen then
      let s := s.nameChange f .resume
      s.finishField f 0 (le 8 (match (s.field f).change with | some c => c.boundary | none => 0))
    else s
  | none => s

/-- A die that has not switched or met poisoned configuration raises its error (R236). -/
def State.raiseLate (s : State) (f : Fin 8) (d : DieId) : State :=
  s.report d { code := if s.cfgSpoiled d then 0xE604 else 0xE603, field := fnum f }

/-- SWITCH_STEP_END: the tailwater step ends on a die; when it has ended on every die the field freezes, closes, reloads or
starts the new launch there (R232, R236, 09). -/
def execSwitchStepEnd (f : Fin 8) (d : DieId) (t : Nat) (s : State) : Out :=
  let s := s.clock t
  let x := s.field f
  match x.switch, x.run, x.incoming with
  | some w, some r, some p =>
    if w.form ≠ .tailwater ∨ !x.dies.contains d ∨ w.done.contains d ∨ s.leadTally f < r.boundary ∨ x.flush.isSome then .next s
    else
      let bad := !s.blockSwitched p d || s.cfgSpoiled d
      let w := { w with done := w.done ++ [d] }
      let s := s.onField f fun x => { x with switch := some w, reloadDue := if bad then some true else x.reloadDue }
      let s := if bad then s.raiseLate f d else s
      if !x.dies.all w.done.contains then .next s
      else
        let b := r.boundary
        let y := s.field f
        if x.stepClosing then .next ((s.onField f fun x => { x with switch := none }).closeGate f x.closeWhy)
        else if x.freezes b then
          .next ((s.freezeField f b none).onField f fun x =>
            { x with run := some { r with started := false }, switch := none, reloadDue := some true })
        else if y.reloadDue.isSome then
          .next ((s.onField f fun x => { x with run := some { r with started := false } }).startReload f true)
        else .next (s.switched f (some b))
  | _, _, _ => .next s

/-- DIE_SWITCH_REPORT: the lead die receives a die's report of its still-water switch or reload; a still-water die that is
late or spoiled sends the field to reload (R236-R238). -/
def execDieSwitchReport (f : Fin 8) (d : DieId) (t : Nat) (s : State) : Out :=
  let s := s.clock t
  let x := s.field f
  match x.switch, x.incoming with
  | some w, some p =>
    if w.form = .tailwater ∨ !x.dies.contains d ∨ w.reported.contains d ∨ x.flush.isSome then .next s
    else if s.blockSwitched p d ∧ !(s.cfgSpoiled d ∧ w.form = .still) then
      let w := { w with reported := w.reported ++ [d] }
      let s := s.onField f fun x => { x with switch := some w }
      if x.dies.all w.reported.contains then .next (s.switched f none) else .next s
    else if w.form = .still ∧ (s.cfgSpoiled d ∨ w.since + 8192 ≤ s.now) then
      .next ((s.raiseLate f d).startReload f w.staged)
    else .next s
  | _, _ => .next s

/-- A command that waits for a switch which fails completes with a status no rule states (log entry 28). -/
def State.failSwitchCommand (s : State) (f : Fin 8) : State :=
  match (s.field f).holder with
  | some w =>
    if w.opcode = 0x0403 ∨ w.opcode = 0x0404 ∨ w.opcode = 0x0407 then
      (s.spend).finishField f (Config.failStatus s.free).toNat []
    else s
  | none => s

/-- RELOAD_DEADLINE: a die that has not reported 5 ms after the drain raises RELOAD_FAIL; launches complete FAULTED with 0
and the field has no active plan (R238). -/
def execReloadDeadline (f : Fin 8) (d : DieId) (t : Nat) (s : State) : Out :=
  let s := s.clock t
  let x := s.field f
  match x.switch with
  | some w =>
    if w.form ≠ .reload ∨ !x.dies.contains d ∨ w.reported.contains d ∨ s.now < w.since + 5 * ms then .next s
    else
      let s := s.report d { code := 0xE605, field := fnum f }
      let s := (s.completeAll f lsFaulted).onField f fun x => { x.reopen with switch := none, active := none, lastSet := none }
      .next (s.settleForced.failSwitchCommand f)
  | none => .next s

/-! ### Drain and flush (R241-R244, R389) -/

/-- What follows a finished drain, or its limit: the flush, or the reload of a drained field (R238, R241, R243, R244). -/
def State.afterDrain (s : State) (f : Fin 8) (why : Why) (forced : Bool) : State :=
  let s := s.onField f fun x => { x with drain := none }
  match why with
  | .reload staged => if forced then s.onField f fun x => { x with flush := some (why, s.now) } else s.startSwitch f .reload staged
  | _ => s.onField f fun x => { x with flush := some (why, s.now) }

/-- FIELD_DRAINED: every tile, entry and sourced request of the field is drained (R241). -/
def execFieldDrained (f : Fin 8) (t : Nat) (s : State) : Out :=
  let s := s.clock t
  match (s.field f).drain with
  | some (why, _) =>
    if (s.field f).flush.isNone ∧ s.fieldDrained f then .next (s.afterDrain f why false) else .next s
  | none => .next s

/-- DRAIN_LIMIT: 100 us after the step gate closed, a field not drained is flushed and DRAIN_FORCED recorded (R241). -/
def execDrainLimit (f : Fin 8) (t : Nat) (s : State) : Out :=
  let s := s.clock t
  let x := s.field f
  match x.drain with
  | some (why, since) =>
    if x.flush.isSome ∨ s.now < since + leadTime ∨ s.fieldDrained f then .next s
    else
      let s := match x.lead with
        | some d => s.report d { code := 0xE606, field := fnum f }
        | none => s
      .next (s.afterDrain f why true)
  | none => .next s

/-- Both loaded plans of a field are unloaded. -/
def State.unloadAll (s : State) (f : Fin 8) : State :=
  (s.onField f fun x => { x with active := none, staged := none, switch := none, reloadDue := none, lastSet := none }).settleForced

/-- A disable ends (R243): launches CANCELLED, plans unloaded, the field DISABLED, the command answered. -/
def State.finishDisable (s : State) (f : Fin 8) : State :=
  let s := (s.completeAll f lsCancelled).unloadAll f
  let s := s.onField f fun x =>
    { x with st := .disabled, flush := none, drain := none, stepClosing := false, stepClosed := true, ringClosed := true,
             sideClosed := true, frozen := false, split := false, frozenAt := none, sluices := [], dieFrozen := [],
             change := none }
  s.finishField f 0 []

/-- Destruction of a field that is disabled (R290): its owner's claim ends, told by vector 26 unless it destroys the field itself
(R268), its accounts close, its hold regions are freed, its windows and tiles are scrubbed. -/
def State.startDestroy (s : State) (f : Fin 8) : State :=
  let s := (s.completeAll f lsCancelled).unloadAll f
  let o := s.scope (fscope f)
  let own : Bool := match (s.field f).holder with | some w => w.req.rid = o.rid && w.req.port = o.src | none => false
  let s := s.endClaim (fscope f) (!own)
  let gone := fun (k : Nat) => k / 5 % 9 = fnum f
  let s := s.forEach s.allDies fun s d => s.onDie d fun x =>
    if x.side.sources.any (fun e => gone e.1) || x.side.sinks.any (fun e => gone e.1) then
      { x with side := { x.side with sources := x.side.sources.filter fun e => !gone e.1,
                                     sinks := x.side.sinks.filter fun e => !gone e.1 } }
    else x
  let s := s.forEach s.allPorts fun s p => s.onPort p fun y =>
    { y with pond := { y.pond with holds := NMap.erase y.pond.holds (fnum f), dueHolds := NMap.erase y.pond.dueHolds (fnum f) } }
  s.onField f fun x =>
    { x with st := .changing, flush := none, drain := none, scrub := some .destroy,
             scrubs := x.dies.map fun d => { die := d, ofs := 0, len := x.w, tiles := true } }

/-- FLUSH_COMPLETE: the flush has completed on every die, and what started it goes on; after containment the device reloads a field
that is owed it (R238, R239, R242-R244, R290, R389). -/
def execFlushComplete (f : Fin 8) (t : Nat) (s : State) : Out :=
  let s := s.clock t
  let x := s.field f
  match x.flush with
  | none => .next s
  | some (why, _) =>
    let s := s.flushField f (why ≠ .cancel)
    match why with
    | .disable => .next (s.finishDisable f)
    | .destroy => .next (s.startDestroy f)
    | .resize => .next (s.onField f fun x => { x with flush := none })
    | .cancel =>
      if x.st = .disabling then .next ((s.onField f fun x => { x with flush := none }).closeGate f x.closeWhy)
      else
        .next (s.onField f fun x => { x.reopen with flush := none, frozen := false, split := false, frozenAt := none,
                                                    dieFrozen := [] })
    | .reload staged =>
      let s := s.onField f fun x => { x with flush := none }
      if x.st = .disabling then .next (s.closeGate f x.closeWhy) else .next (s.startSwitch f .reload staged)
    | .contain =>
      let owed := x.switchOwed
      let s := s.completeAll f lsFaulted
      let s := s.onField f fun x => { x with flush := none, drain := none, reloadDue := owed, switch := none }
      if x.st = .disabling then (if x.scrub = some .destroy then .next (s.startDestroy f) else .next (s.finishDisable f))
      else
        let s := s.failSwitchCommand f
        .next (if x.st = .disabled then s else (s.onField f fun x => x.reopen).reloadNow f)

end Sys2Proof.Machine
end

