-- ==== Sys2Proof/Machine/Fields.lean ====
section
/-! DEFINITION. Sys2Proof/Machine/Fields.lean: the field commands 0x0301-0x0306 and SCRUB_COMPLETE (R273-R290, R243). -/

namespace Sys2Proof

/-- Whether a die mask sets a bit of an I/O-die address or of [31:20], which are reserved (R274). -/
def maskReserved (m : Nat) : Bool := m.testBit 0 || m.testBit 5 || m.testBit 10 || m.testBit 15 || 0x100000 ≤ m

/-- The compute dies the masks name, in ascending order of tray, then address (R278). -/
def FieldBody.dies (b : FieldBody) : List DieId :=
  (List.range 4).flatMap fun t => (List.range 20).filterMap fun k =>
    if (b.masks.getD t 0).testBit k then (dieOf t (0x10 + k)).filter (·.isCompute) else none

/-- The hold share in bytes; 0 selects 1.5 MiB (R281). -/
def FieldBody.share (b : FieldBody) : Nat := if b.hold = 0 then 0x180000 else b.hold

/-- The request with the reserved bits of its masks counted as reserved bytes (R274, R261). -/
def FieldBody.reserve (b : FieldBody) (r : MReq) : MReq :=
  if b.masks.any maskReserved then { r with rsvd := r.rsvd ||| 1 } else r

namespace Machine

/-! ### Checks (R286, R288) -/

/-- The granularity of W and H, 64 MiB, and the largest W, 46 GiB (Table 11.1). -/
def hbmUnit : Nat := 0x4000000
def windowMax : Nat := 0xB80000000

/-- The range check of R286: field number, an empty mask, trays outside the span, W, H and the hold share. -/
def State.fieldRange (s : State) (b : FieldBody) : Bool :=
  (fieldOfNum b.field).isSome && b.masks.any (· ≠ 0)
    && (List.range 4).all (fun t => decide (t < s.trays.length) || b.masks.getD t 0 = 0)
    && hbmUnit ≤ b.w && b.w ≤ windowMax && b.w % hbmUnit = 0 && b.h ≤ b.w && b.h % hbmUnit = 0
    && (b.hold = 0 || (0x10000 ≤ b.hold && b.hold % 0x10000 = 0))

/-- Whether two dies are neighbours in the span's grid. -/
def State.neighbours (s : State) (a b : DieId) : Bool :=
  let p := s.spanXY a
  let q := s.spanXY b
  (p.1 = q.1 && (p.2 + 1 = q.2 || q.2 + 1 = p.2)) || (p.2 = q.2 && (p.1 + 1 = q.1 || q.1 + 1 = p.1))

/-- A join of two dies with a ledger entry with a peer (R276). Joins between two dies of other trays are taken as their wiring
and the span's cables lay them (log entry 41). -/
def State.join (s : State) (a b : DieId) : Bool :=
  let at_ := fun (x y : DieId) => (diePorts x).any fun p =>
    (s.port p).link.inLedger && (match (s.port p).link.mate with | some q => q.die = y | none => false)
  at_ a b || at_ b a || (a.tray ≠ s.span.num && b.tray ≠ s.span.num && s.neighbours a b)

/-- The dies of a list that a set of dies reaches in at most `fuel` joins. -/
def State.reach (s : State) (all : List DieId) : Nat → List DieId → List DieId
  | 0, got => got
  | fuel + 1, got => s.reach all fuel (all.filter fun d => got.contains d || got.any fun e => s.join e d)

/-- Whether every member is joined to every other through joins between members (R276). -/
def State.allJoined (s : State) (dies : List DieId) : Bool :=
  match dies with
  | [] => true
  | d :: _ => (s.reach dies dies.length [d]).length = dies.length

/-- The hold region a field gets on a port: the share on a compute-die port, 64 KiB on a root port (R281). -/
def holdOn (p : PortId) (share : Nat) : Nat := if p.die.isCompute then share else 0x10000

/-- Whether a field's hold region fits the pond of every port of the span, beside the replay region and the other regions
(R280, R281). -/
def State.pondFits (s : State) (f : Fin 8) (share : Nat) : Bool :=
  s.allPorts.all fun p =>
    let y := (s.port p).pond
    y.replay + total ((NMap.erase y.holds (fnum f)).map (·.2)) + holdOn p share ≤ y.size

/-- The checks of R286 from the dies on. A credit account of R192 can always open: the accounts take no resource another field
could use up. -/
def State.fieldChecks (s : State) (f : Fin 8) (b : FieldBody) : Option Nat :=
  let dies := b.dies
  if dies.any fun d => !s.usable d || (match s.fieldOf d with | some g => g ≠ f | none => false) then some eFieldDies
  else if !s.allJoined dies then some eFieldShape
  else if 0x2000000000 < dies.length * b.h then some eFieldHbm
  else if !s.pondFits f b.share then some eFieldPond
  else none

/-- Writes a field's hold regions on every port of the span (R280, R281). -/
def State.setHolds (s : State) (f : Fin 8) (share : Nat) : State :=
  s.forEach s.allPorts fun s p => s.onPort p fun y =>
    { y with pond := { y.pond with holds := NMap.set y.pond.holds (fnum f) (holdOn p share) } }

/-- FIELD_CREATE: the checks of R286, then windows, die list, hold regions, counters; the field is ENABLED, vacant and without a
plan. It is a command of the tray's scope (R287; log entry 42). Its dies leave rung 0 by a field-wide change (R375, R296). -/
def execFieldCreate (r : MReq) (b : FieldBody) (s : State) : Out :=
  .next (s.serve (b.reserve r) { opcode := 0x0301, len := 40, need := .tray, acts := some 0 } (.fieldCreate r b)
    (fun s => if s.fieldRange b then none else some eArgRange) fun s =>
    match fieldOfNum b.field with
    | none => s.reply r 0x0301 eArgRange []
    | some f =>
      if (s.field f).live then s.reply r 0x0301 eFieldState []
      else
        match s.fieldChecks f b with
        | some e => s.reply r 0x0301 e []
        | none =>
          let s := s.forEach b.dies fun s d => s.onCnt d fun _ => {}
          let s := s.setHolds f b.share
          let s := s.setField f { st := .enabled, dies := b.dies, w := b.w, h := b.h, hold := b.share }
          let now := s.leadTally f
          let s := s.onField f fun x => { x with lastCal := now, idleSince := now }
          (s.reviewLimits f).reply r 0x0301 0 [])

/-! ### Resizing (R288, R289) -/

/-- What a resize scrubs: the windows and tiles of removed dies, the released end of the others' windows (R279, R289). -/
def Field.resizeScrubs (x : Field) (b : FieldBody) : List Scrub :=
  x.dies.filterMap fun d =>
    if !b.dies.contains d then some { die := d, ofs := 0, len := x.w, tiles := true }
    else if b.w < x.w then some { die := d, ofs := b.w, len := x.w - b.w, tiles := false }
    else none

/-- The die list a resize leaves: added dies appended while a plan is loaded, else rebuilt (R288). -/
def Field.resizedDies (x : Field) (b : FieldBody) : List DieId :=
  if x.loaded then x.dies ++ b.dies.filter fun d => !x.dies.contains d else b.dies

/-- Whether a resize meets work it may not disturb (R288). -/
def Field.resizeBusy (x : Field) (b : FieldBody) : Bool :=
  x.inFlight ≠ 0 || (x.loaded && (x.dies.any (fun d => !b.dies.contains d) || b.h ≠ x.h || b.w < x.w || b.share < x.hold))

/-- Overwrites what a scrub names: HBM with 0, tiles with their cleared state (R279). -/
def State.doScrub (s : State) (z : Scrub) : State :=
  s.onDie z.die fun x =>
    let x := { x with mem := Memory.zero x.mem z.ofs z.len,
                      poison := x.poison.filter fun k => !(z.ofs ≤ 64 * k && 64 * k < z.ofs + z.len) }
    if z.tiles then { x with tiles := [], mesh := x.mesh.filter fun m => m.packet.kind = 5, eps := [] } else x

/-- Requests of a field that no open account serves any more end with E_SF_LOST, and closed accounts are forgotten (R289,
R197). -/
def State.closeAccounts (s : State) (f : Fin 8) : State :=
  s.forEach s.allDies fun s d =>
    let s := s.loseReqs d fun q => q.field = fnum f && !s.acctOpen ⟨d, q.dst, fscope f, 0⟩
    let gone := fun (e : Nat) (out : Bool) =>
      e / 5 % 9 = fnum f && !(s.allDies.any fun o => o.key = e / 45 &&
        (if out then s.acctOpen ⟨d, o, fscope f, 0⟩ else s.acctOpen ⟨o, d, fscope f, 0⟩))
    if (s.die d).side.sources.any (fun e => gone e.1 true) || (s.die d).side.sinks.any (fun e => gone e.1 false) then
      s.onDie d fun x => { x with side := { x.side with sources := x.side.sources.filter fun e => !gone e.1 true,
                                                        sinks := x.side.sinks.filter fun e => !gone e.1 false } }
    else s

/-- A compute die that belongs to no field any more runs at rung 0, at the voltage of that rung (R299, R375). -/
def State.leaveRungs (s : State) (dies : List DieId) : State :=
  s.forEach dies fun s d => if (s.die d).pow.target = s.targetMv d 0 then s else s.commandMv d (s.targetMv d 0) 0

/-- A resize completes: the new layout, hold regions and accounts; the field returns to its previous state (R289). -/
def State.finishResize (s : State) (f : Fin 8) (b : FieldBody) : State :=
  let x := s.field f
  let s := s.forEach x.scrubs State.doScrub
  let added := b.dies.filter fun d => !x.dies.contains d
  let s := s.forEach added fun s d => s.onCnt d fun _ => {}
  let s := s.setHolds f b.share
  let s := s.onField f fun y =>
    { y with dies := x.resizedDies b, w := b.w, h := b.h, hold := b.share, st := x.back, resize := none, scrubs := [] }
  let s := (s.closeAccounts f).leaveRungs (x.dies.filter fun d => !b.dies.contains d)
  let s := s.finishField f 0 []
  s.reviewLimits f

/-- FIELD_RESIZE: the checks of R288; the field is CHANGING until what it releases is scrubbed (R289). -/
def execFieldResize (r : MReq) (b : FieldBody) (s : State) : Out :=
  .next (s.serve (b.reserve r) { opcode := 0x0302, len := 40, need := .tray, acts := fieldScope b.field } (.fieldResize r b)
    (fun s => if s.fieldRange b then s.refuses (fieldOfNum b.field) true else some eArgRange) fun s =>
    match fieldOfNum b.field with
    | none => s.reply r 0x0302 eArgRange []
    | some f =>
      let x := s.field f
      if !x.live then s.reply r 0x0302 eFieldState []
      else if x.resizeBusy b then s.reply r 0x0302 eFieldBusy []
      else
        match s.fieldChecks f b with
        | some e => s.reply r 0x0302 e []
        | none =>
          let scrubs := x.resizeScrubs b
          let s := (s.onField f fun x => { x with back := x.st, st := .changing, resize := some b, scrubs := scrubs }).holdField
            f r 0x0302
          if scrubs.isEmpty then s.finishResize f b else s)

/-! ### Disabling and destroying (R243, R290) -/

/-- The headgates of a field close for a disable or destroy: ring and side intake at once; the step gate at the next step
boundary, or at once while the field is idle or sluice-closed (R240). A flush on its way goes first. -/
def State.beginDisable (s : State) (f : Fin 8) : State :=
  let x := s.field f
  let s := s.onField f fun x => { x with st := .disabling, ringClosed := true, sideClosed := true }
  let running : Bool := match x.run with | some r => r.started | none => false
  if x.flush.isSome then s
  else if running ∧ !x.frozen then s.onField f fun x => { x with stepClosing := true }
  else (s.onField f fun x => { x with switch := none, drain := none }).closeGate f x.closeWhy

/-- FIELD_DISABLE (R243). -/
def execFieldDisable (r : MReq) (field : Nat) (s : State) : Out :=
  .next (s.serve r { opcode := 0x0304, len := 4, need := .either (fieldScope field), acts := fieldScope field }
    (.fieldDisable r field)
    (fun s => if (fieldOfNum field).isNone then some eArgRange else s.refuses (fieldOfNum field) true) fun s =>
    match fieldOfNum field with
    | none => s.reply r 0x0304 eArgRange []
    | some f =>
      let x := s.field f
      if !x.live then s.reply r 0x0304 eFieldState []
      else if x.st = .disabled then s.reply r 0x0304 0 []
      else (s.holdField f r 0x0304).beginDisable f)

/-- FIELD_DESTROY: an ENABLED field is disabled first (R290). -/
def execFieldDestroy (r : MReq) (field : Nat) (s : State) : Out :=
  .next (s.serve r { opcode := 0x0303, len := 4, need := .tray, acts := fieldScope field } (.fieldDestroy r field)
    (fun s => if (fieldOfNum field).isNone then some eArgRange else s.refuses (fieldOfNum field) true) fun s =>
    match fieldOfNum field with
    | none => s.reply r 0x0303 eArgRange []
    | some f =>
      let x := s.field f
      if !x.live then s.reply r 0x0303 eFieldState []
      else
        let s := s.holdField f r 0x0303
        if x.st = .disabled then s.startDestroy f
        else (s.onField f fun x => { x with scrub := some .destroy }).beginDisable f)

/-- FIELD_ENABLE: a DISABLED field takes launches again; one that is enabled already stays so (R243). -/
def execFieldEnable (r : MReq) (field : Nat) (s : State) : Out :=
  .next (s.serve r { opcode := 0x0305, len := 4, need := .either (fieldScope field), acts := fieldScope field }
    (.fieldEnable r field) (fun _ => if (fieldOfNum field).isNone then some eArgRange else none) fun s =>
    match fieldOfNum field with
    | none => s.reply r 0x0305 eArgRange []
    | some f =>
      let x := s.field f
      if !x.live then s.reply r 0x0305 eFieldState []
      else if x.st = .disabled then
        let now := s.leadTally f
        ((s.onField f fun x => { x.reopen with st := .enabled, idleSince := now }).reviewLimits f).reply r 0x0305 0 []
      else s.reply r 0x0305 0 [])

/-- The 64 bytes of FIELD_STATUS (Table 10.6). -/
def State.fieldStatus (s : State) (f : Fin 8) : List Byte :=
  let x := s.field f
  let o := s.scope (fscope f)
  let flags := (if x.frozen then 1 else 0) + (if x.split then 2 else 0) + (if o.noLapse then 4 else 0) + (if o.expert then 8 else 0)
  le 1 x.st.code ++ le 1 x.rung ++ le 2 flags ++ le 1 x.inFlight ++ le 3 0
    ++ le 8 (match x.active with | some p => p.id.toNat | none => 0)
    ++ le 8 (match x.staged with | some p => p.id.toNat | none => 0)
    ++ le 4 (match x.run with | some r => r.reached | none => x.lastReached)
    ++ le 8 (match x.frozenAt, x.sluiceAt with | some b, _ => b | none, some b => b | none, none => 0)
    ++ (if o.owned then ownerId o.rid o.src else le 4 0) ++ le 24 0

/-- FIELD_STATUS; E_FIELD_STATE for a field that does not exist (R285). -/
def execFieldStatus (r : MReq) (field : Nat) (s : State) : Out :=
  .next (s.serve r { opcode := 0x0306, len := 4 } (.fieldStatus r field) noEarly fun s =>
    match fieldOfNum field with
    | none => s.reply r 0x0306 eArgRange []
    | some f => if (s.field f).live then s.reply r 0x0306 0 (s.fieldStatus f) else s.reply r 0x0306 eFieldState [])

/-! ### Scrubs (R279, R289, R290) -/

/-- The field's histograms and its owner's traces go with it (R411, 17). -/
def State.clearObs (s : State) (f : Fin 8) : State :=
  s.forEach s.allPorts fun s p =>
    let y := s.port p
    let mine := s.portField p = some f ∧ y.histField ≠ {}
    let s := if mine then s.onPort p fun y => { y with histField := {} } else s
    if y.trace.only = some (fnum f) then s.onPort p fun y => { y with trace := {} } else s

/-- Destruction completes: windows and tiles are clean, the number is free (R290). -/
def State.finishDestroy (s : State) (f : Fin 8) : State :=
  let x := s.field f
  let s := s.forEach x.scrubs State.doScrub
  let s := ((s.clearObs f).setField f {}).leaveRungs x.dies
  match x.holder with
  | some w => s.reply w.req w.opcode 0 []
  | none => s

/-- SCRUB_COMPLETE: the ranges a field released have been overwritten: a resize or a destruction completes (R279, R289,
R290). -/
def execScrubComplete (f : Fin 8) (t : Nat) (s : State) : Out :=
  let s := s.clock t
  let x := s.field f
  if x.st ≠ .changing then .next s
  else
    match x.resize with
    | some b => .next (s.finishResize f b)
    | none => if x.scrub = some .destroy then .next (s.finishDestroy f) else .next s

end Machine
end Sys2Proof
end

