-- ==== Sys2Proof/Machine/Training.lean ====
section
/-! DEFINITION. Sys2Proof/Machine/Training.lean: the training commands: states, timers, equalisation records, repair, CONFIG, PIN,
role swaps and module presence (R110-R128). -/

namespace Sys2Proof.Machine

/-- TRAINING_TIMEOUT: the timer of a training state expires: the attempt fails with E_LINK_TIMEOUT (R114, R115). -/
def execTrainingTimeout (p : PortId) (t : Nat) (s : State) : Out :=
  let s := s.clock t
  let l := (s.port p).link
  match l.timer with
  | some n => if l.timerFrom + n ≤ s.now then .next (s.failAttempt p eLinkTimeout) else .next s
  | none => .next s

/-- TRAINING_BACKOFF_END: 1 s after a failed attempt the port tries again (R115). -/
def execTrainingBackoffEnd (p : PortId) (t : Nat) (s : State) : Out :=
  let s := s.clock t
  let l := (s.port p).link
  match l.backoffFrom with
  | some n => if l.st = .down ∧ n + sec ≤ s.now then .next (s.startTraining p) else .next s
  | none => .next s

/-- DETECT_ANSWER: the peer answers; a port whose module is not readable passive copper fails with E_LINK_MEDIA, and the supply of a cage whose module is
not passive goes off; an edge whose other adapter EDGE_USE enables hears no answer of the link's profile (R110, R114, R213, R439; log
entries 146, 157). -/
def execDetectAnswer (p : PortId) (t : Nat) (s : State) : Out :=
  .next ((s.clock t).trainWork p .detect fun s =>
    if !s.inCarrier p.die ∧ s.adapter p ≠ profileOf p then s
    else if !s.inCarrier p.die ∧ (cageOf p).isSome then
      match (s.port p).link.cable with
      | some m => if m.passive && m.readable then s.enterTr p .clock else (s.failAttempt p eLinkMedia).onLink p fun l => { l with cageOff := !m.passive }
      | none => s
    else s.enterTr p .clock)

/-- The leader's end of an in-tray link at which this end follows. -/
def State.leaderEnd (s : State) (p : PortId) : Option PortId :=
  if (s.port p).link.leader then none
  else match wired p with
    | some q => if q.die.tray = s.span.num then some q else none
    | none => none

/-- CLOCK_LOCKED: EQUALISE begins with the leader's request for a stored record. A follower waits for what its leader gets, or takes it
where the leader has it already; one whose leader is on another tray is told by the training itself (R114, R123; log entry 132). -/
def execClockLocked (p : PortId) (t : Nat) (s : State) : Out :=
  .next ((s.clock t).trainWork p .clock fun s =>
    let s := (s.enterTr p .equalise).onLink p fun l => { l with fetching := l.leader, cold := false }
    match s.leaderEnd p with
    | none => s
    | some q =>
      let y := s.port q
      if y.link.st = .equalise ∧ !y.link.fetching then
        let now := s.now
        s.onPort p fun x =>
          { x with lanes := { x.lanes with eq := y.lanes.eq },
                   link := { x.link with fetching := false, cold := y.link.cold, timerFrom := now,
                                         timer := some (if y.link.cold then coldTimer (profileOf p) else warmTimer (profileOf p)) } }
      else s.onLink p fun l => { l with fetching := true })

/-! ### Equalisation (R122-R124) -/

/-- The key of a port's equalisation record (R122). -/
def State.eqKey (s : State) (p : PortId) : EqKey :=
  { uid := (s.die p.die).ident.uid, port := p.port.val,
    maps := (List.range (2 * bundlesOf p)).map fun k => (k, s.laneMap p k), peerUid := (s.peerUid p).getD 0, cable := s.cableOf p }

/-- A cold search begins: the timer restarts with the cold figure (R123). -/
def State.coldSearch (s : State) (p : PortId) : State :=
  let now := s.now
  let profile := s.trainProfile p
  s.onLink p fun l => { l with fetching := false, cold := true, timerFrom := now, timer := some (coldTimer profile) }

/-- The leader's end and its follower where that waits for the leader's fetch (R123). -/
def State.ownEnds (s : State) (p : PortId) : List PortId :=
  p :: (wired p).toList.filter fun q =>
    !s.inCarrier p.die && q.die.tray = s.span.num && (s.port q).link.st = .equalise && (s.port q).link.fetching

/-- A cold search begins at both ends (R123). -/
def State.searchCold (s : State) (p : PortId) : State := s.forEach (s.ownEnds p) State.coldSearch

/-- EQ_RECORD_ANSWER: the Watermaster's answer to the leader: a matching record is loaded at both ends and starts the warm figure; none,
or an answer after the 100 ms, starts a cold search (R122, R123). -/
def execEqRecordAnswer (p : PortId) (t : Nat) (s : State) : Out :=
  let s := s.clock t
  let l := (s.port p).link
  if l.st ≠ .equalise ∨ !l.fetching ∨ !l.leader ∨ !s.wmUp ∨ s.inCarrier p.die then .next s
  else if l.timerFrom + 100 * ms < s.now then .next (s.searchCold p)
  else
    let key := s.eqKey p
    match s.wm.eqRecs.find? fun x => x.key = key with
    | some x =>
      let now := s.now
      let s := s.onWm fun w => { w with eqRecs := w.eqRecs.map fun y => if y.key = key then { y with used := now } else y }
      .next (s.forEach (s.ownEnds p) fun s q => s.onPort q fun y =>
        { y with lanes := { y.lanes with eq := x.settings },
                 link := { y.link with fetching := false, cold := false, timerFrom := now,
                                       timer := some (warmTimer (profileOf p)) } })
    | none => .next (s.searchCold p)

/-- EQ_FETCH_TIMEOUT: no answer within 100 ms: a cold search, never E_LINK_TIMEOUT (R123). -/
def execEqFetchTimeout (p : PortId) (t : Nat) (s : State) : Out :=
  let s := s.clock t
  let l := (s.port p).link
  if l.st = .equalise ∧ l.fetching ∧ l.leader ∧ l.timerFrom + 100 * ms ≤ s.now then .next (s.searchCold p) else .next s

/-- REPAIR begins from the soft retirements held under the port's key (R127). -/
def State.enterRepair (s : State) (p : PortId) : State :=
  let held := s.softHeld p
  (s.onPort p fun y => { y with lanes := { y.lanes with soft := held } }).enterTr p .repair

/-- EQUALISE_DONE: the acceptance test: a warm start that fails it searches cold; a cold search goes on until it passes or its
timer ends it; after one, the leader owes the Watermaster a record (R114, R123, R124). -/
def execEqualiseDone (p : PortId) (passed : Bool) (t : Nat) (s : State) : Out :=
  .next ((s.clock t).trainWork p .equalise fun s =>
    let l := (s.port p).link
    if l.fetching then s
    else if passed then
      (if l.cold then
        let n := s.free
        let owes : Bool := !s.inCarrier p.die
        (s.spend.onPort p fun y =>
          { y with lanes := { y.lanes with eq := some n },
                   link := { y.link with eqOwed := (owes && y.link.leader) || y.link.eqOwed } }).enterRepair p
       else s.enterRepair p)
    else if l.cold then s
    else s.coldSearch p)

/-- The records with one more: the same key is replaced; a full store of 256 loses its least recently used external-cable
record first (R122). -/
def storeEq (l : List EqRec) (x : EqRec) : List EqRec :=
  let l := l.filter fun y => y.key ≠ x.key
  if l.length < 256 then l ++ [x]
  else
    let pool := if l.any fun y => y.key.cable.isSome then l.filter fun y => y.key.cable.isSome else l
    let oldest := pool.foldl (fun b y => match b with | none => some y | some z => if y.used < z.used then some y else some z)
      (none : Option EqRec)
    (match oldest with | some z => l.erase z | none => l) ++ [x]

/-- EQ_RECORD_STORE: the Watermaster writes the new record to flash, or logs EQ_WRITE_FAIL and keeps none of that key, so that the next
start searches cold (R122, R124). -/
def execEqRecordStore (p : PortId) (flashOk : Bool) (t : Nat) (s : State) : Out :=
  let s := s.clock t
  let y := s.port p
  if !y.link.eqOwed ∨ !s.wmUp then .next s
  else
    let x : EqRec := { key := s.eqKey p, used := s.now, settings := y.lanes.eq }
    let s := s.onLink p fun l => { l with eqOwed := false }
    if flashOk then .next (s.onWm fun w => { w with eqRecs := storeEq w.eqRecs x })
    else
      let s := s.onWm fun w => { w with eqRecs := w.eqRecs.filter fun y => y.key ≠ x.key }
      .next (s.wmReport { code := 0xE308, locKind := 2, location := p.port.val })

/-! ### REPAIR (R127) -/

/-- FUSE_BAD once per start for a die whose fuse record is bad (R216). -/
def State.fuseCheck (s : State) (p : PortId) : State :=
  let b := (s.die p.die).boot
  if b.fuseGood ∨ b.fuseReported ∨ s.trainProfile p = 2 then s
  else (s.onDie p.die fun x => { x with boot := { x.boot with fuseReported := true } }).report p.die { code := 0xE306 }

/-- The working map of one bundle and direction: the union of what both ends retire, then each failing lane that is not
retired as SRC 1 while a spare remains; none where the spares do not suffice (R127). -/
def State.formMap (s : State) (p : PortId) (k : Nat) (peer : Half) (failing : List Nat) : Option (List (Nat × Nat) × List Nat) :=
  let base := unionLanes (unionLanes (mapLanes (s.fuseMap p k)) (s.softLanes p k)) (mapLanes peer)
  let (_, data, spare) := s.shape p
  let bad := failing.eraseDups.filter fun l => l < data + spare && !(base.any fun e => e.1 = l)
  if base.length + bad.length ≤ spare then some (base ++ bad.map fun l => (l, 1), bad) else none

/-- REPAIR_DONE: maps exchanged, PRBS31 checked on every lane not retired, the working map formed; E_LINK_REPAIR where a bundle
needs more than its spares (R114, R127, R216). `peerMaps` lists the peer's entries by 2 x bundle + direction as this end
numbers directions. -/
def execRepairDone (p : PortId) (peerMaps : List Half) (failing : List Lane) (t : Nat) (s : State) : Out :=
  .next ((s.clock t).trainWork p .repair fun s =>
    let s := s.fuseCheck p
    let forms := (List.range (2 * (s.shape p).1)).map fun k =>
      (k, s.formMap p k (peerMaps.getD k 0x03FF)
        ((failing.filter fun l => 2 * l.bundle + l.dir = k).map fun l => l.lane))
    if forms.any fun e => e.2.isNone then s.failAttempt p eLinkRepair
    else
      let s := s.forEach forms fun s e =>
        match e.2 with
        | some x => s.forEach x.2 fun s l => s.retire p e.1 l 1
        | none => s
      let s := s.forEach forms fun s e =>
        match e.2 with
        | some x => s.setMap p e.1 (mapEntry x.1)
        | none => s
      s.enterTr p .align)

/-! ### ALIGN, CONFIG, PIN -/

/-- ALIGN_DONE: lane and bundle reversal are detected and corrected; a Bridge port that retrains at KL2 goes on to PIN (R113,
R114, R116). -/
def execAlignDone (p : PortId) (lanesReversed bundlesReversed : Bool) (t : Nat) (s : State) : Out :=
  .next ((s.clock t).trainWork p .align fun s =>
    let s := s.onLink p fun l => { l with reversedLanes := lanesReversed, reversedBundles := bundlesReversed }
    s.enterTr p (if profileOf p = 0 ∧ (s.port p).link.kl2 then .pin else .config))

/-- Whether what the peer of a Bridge or Furrow port states differs from the placement record: UID, die slot, logical port
(R118); the carrier omits the check (R226). -/
def State.peerWrong (s : State) (p : PortId) (peer : PeerIdent) : Bool :=
  if s.inCarrier p.die then false
  else match wired p with
  | some q =>
    if profileOf p = 2 then false
    else
      let uid := match (s.die (ioOf p.die)).place.slots[q.die.slot.val]? with | some e => e.uid | none => 0
      peer.uid ≠ uid || peer.id.die.slot ≠ q.die.slot || peer.id.port ≠ q.port
  | none => false

/-- Whether both ends of a Bridge port run KL2: both state it, and the die the wiring joins is of that generation by its identity
record, which no HX-1 is (R11, R116). -/
def State.bothKl2 (s : State) (p : PortId) (peer : PeerIdent) : Bool :=
  2 ≤ peer.gen && 2 ≤ (s.die p.die).ident.gen &&
    (s.inCarrier p.die || (match wired p with | some q => 2 ≤ (s.die q.die).ident.gen | none => false))

/-- CONFIG_DONE: the peer's statement is kept; E_LINK_GEN for a KL1 peer on Furrow or Culvert, E_LINK_PEER against the
placement record; both at KL2 on Bridge return to CLOCK at 40 GT/s; else PIN (R114, R116-R118, R120). -/
def execConfigDone (p : PortId) (peer : PeerIdent) (t : Nat) (s : State) : Out :=
  .next ((s.clock t).trainWork p .config fun s =>
    let s := s.onLink p fun l => { l with heard := some peer }
    let lead := s.leads p
    let s := s.onLink p fun l => { l with leader := lead }
    if !s.inCarrier p.die ∧ profileOf p ≠ 0 ∧ peer.gen < 2 then s.failAttempt p eLinkGen
    else if s.peerWrong p peer then s.failAttempt p eLinkPeer
    else if profileOf p = 0 ∧ s.bothKl2 p peer then
      (s.enterTr p .clock).onLink p fun l => { l with kl2 := true }
    else s.enterTr p .pin)

/-- The raw one-way latency, in 1/128 tick, of 64 round trips that sum to `trips`: half the mean less the turnaround the follower
stated, rounded down (R119; log entry 133). -/
def rawOf (trips turnaround : Nat) : Nat := (trips - 64 * turnaround) / 128

/-- The raw latency at an end: the leader measures it; the follower of a leader of this tray has it from there, another computes it from
the trips its leader reports (R119; log entry 133). -/
def State.rawAt (s : State) (p : PortId) (trips : Nat) : Nat :=
  let l := (s.port p).link
  match s.leaderEnd p with
  | some q => (s.port q).link.rawLat
  | none => rawOf trips (match l.heard with | some h => h.turnaround | none => 0)

/-- A port that trained to itself is UP with its raw latency reported and no pad; no ledger entry and no side stream follows (R226). -/
def State.upAlone (s : State) (p : PortId) (raw128 : Nat) : State :=
  let profile := s.trainProfile p
  s.onLink p fun l =>
    { l with st := .up, rawLat := raw128, pad := 0, attempts := 0, last := 0, timer := none, backoffFrom := none,
             gen := if l.kl2 then 2 else 1, profile := profile }

/-- PIN_DONE: the round trips, as the sum of 64 in 1/128 tick, give the raw latency; within 64 ticks below the pinned latency it sets the
pad at both ends and brings the port UP; else E_LINK_PIN. A follower of this tray waits for its leader's measurement; in the carrier
the latency is reported alone (R87-R89, R114, R119, R226). -/
def execPinDone (p : PortId) (trips : Nat) (t : Nat) (s : State) : Out :=
  .next ((s.clock t).trainWork p .pin fun s =>
    let l := (s.port p).link
    let waits : Bool := match s.leaderEnd p with | some q => (s.port q).link.st = .pin | none => false
    let raw128 := s.rawAt p trips
    let pinned := 128 * pinnedOf p l.kl2 l.cable
    if s.inCarrier p.die then s.upAlone p raw128
    else if waits then s
    else if raw128 ≤ pinned ∧ pinned ≤ raw128 + 64 * 128 then
      (s.onLink p fun l => { l with rawLat := raw128, pad := (pinned : Int) - raw128 }).comeUp p
    else (s.onLink p fun l => { l with rawLat := raw128 }).failAttempt p eLinkPin)

/-! ### Role swaps (R121) -/

/-- Ticks of a wheel, rounded up. -/
def wheelTicks (p : PortId) (kl2 : Bool) : Nat := let (a, b) := wheelFrac (profileOf p) kl2; ceilDiv a b

/-- A collision recorded at an end: neither swaps; the higher-UID end waits 4 wheels (R121). -/
def State.collide (s : State) (p : PortId) : State :=
  let lower := s.lowerEnd p
  let until_ := s.now + 4 * wheelTicks p (s.port p).link.kl2
  s.onLink p fun l =>
    { l with collided := true, collisions := satAdd 127 l.collisions 1, swapAsked := none,
             noSwapBefore := if lower then l.noSwapBefore else until_ }

/-- ROLE_SWAP: the other end's request is received on a Furrow or Culvert link in UP: it takes effect at the next training,
unless this end sent its own within one wheel, when neither swaps. A request before the end of the 4 wheels is
ignored. With `sent`, this end sends its own request to an end on another tray; between ends of this tray the one command is both the
sending and the receipt (R121; log entry 134). -/
def execRoleSwap (r : SwapReq) (t : Nat) (s : State) : Out :=
  let p := r.port
  let s := s.clock t
  let y := (s.port p).link
  if y.st ≠ .up ∨ profileOf p = 0 then .next s
  else if r.sent then
    let inTray : Bool := match wired p with | some q => q.die.tray = s.span.num | none => false
    if inTray ∨ s.now < y.noSwapBefore then .next s
    else
      let now := s.now
      .next (s.onLink p fun l => { l with swapped := !l.swapped, swapAsked := some now })
  else
    let far := (wired p).toList.filter fun q => q.die.tray = s.span.num
    let sentAt := s.now - y.pinned
    if far.any fun q => sentAt < (s.port q).link.noSwapBefore then .next s
    else
      match y.swapAsked with
      | some t0 =>
        if s.now ≤ t0 + wheelTicks p y.kl2 then
          .next (s.forEach (p :: far) fun s q => (s.onLink q fun l => { l with swapped := !l.swapped }).collide q)
        else
          .next (s.forEach (p :: far) fun s q =>
            s.onLink q fun l => { l with swapped := !l.swapped, swapAsked := if q = p then none else some sentAt })
      | none =>
        .next (s.forEach (p :: far) fun s q =>
          s.onLink q fun l => { l with swapped := !l.swapped, swapAsked := if q = p then l.swapAsked else some sentAt })

/-! ### Module presence (R110, R115, R439) -/

/-- The identity of a cable: vendor part and serial (R110, R122, R415). -/
def cableKey (c : Option Module) : Option (Nat × Nat) := c.map fun x => (x.part, x.serial)

/-- MODULE_PRESENCE_CHANGE: a module is inserted or removed: a FAILED port trains again; on a disabled port it is only noted
(R115). -/
def execModulePresenceChange (cage : Fin 16) (m : Option Module) (t : Nat) (s : State) : Out :=
  let s := s.clock t
  let p := cagePort s.span.num cage
  let s := s.onPort p fun y =>
    { y with link := { y.link with cable := m, cageOff := false },
             err := if m.isSome ∧ cableKey y.link.cable ≠ cableKey m then y.err.restartTrend else y.err }
  if (s.port p).link.st = .failed ∧ (s.port p).mayTrain then
    .next ((s.onLink p fun l => { l with attempts := 0 }).startTraining p)
  else .next s

end Sys2Proof.Machine
end

