-- ==== Sys2Proof/Machine/Lanes.lean ====
section
/-! DEFINITION. Sys2Proof/Machine/Lanes.lean: dead lanes and their substitution, loss of a link, and Dry (R129-R137, R162). -/

namespace Sys2Proof.Machine

/-! ### Substitution (R129-R132) -/

/-- The tally, rounded up, at which wheel `n` of a port begins (R148). -/
def wheelStart (p : PortId) (kl2 : Bool) (n : Nat) : Nat := let (a, b) := wheelFrac (profileOf p) kl2; ceilDiv (n * a) b

/-- The first slot of a port to begin at or after a tally, counted from wheel 0 (R148). -/
def slotIndex (p : PortId) (kl2 : Bool) (t : Nat) : Nat := let (a, b) := wheelFrac (profileOf p) kl2; ceilDiv (t * 256 * b) a

/-- The wheel a substitution switches at: the first that begins at least L + 32 ticks after the start of the request's first
slot (R130). -/
def State.switchWheel (s : State) (p : PortId) : Nat :=
  let l := (s.port p).link
  let (a, b) := wheelFrac (profileOf p) l.kl2
  ceilDiv (slotIndex p l.kl2 (s.tallyOf p.die) * a + 256 * b * (l.pinned + 32)) (256 * a)

/-- The lanes a request names. -/
def Subst.lanes (x : Subst) : List Nat := (if x.laneA = 31 then [] else [x.laneA]) ++ (if x.laneB = 31 then [] else [x.laneB])

/-- The receiver declares lanes of a bundle dead: a substitution request naming them and those of the bundle's pending request,
where the spares suffice; else the port goes down with E_LINK_SPARE (R129, R130, R132). A request pending for another bundle
stands first (log entry 39). -/
def State.declareDead (s : State) (p : PortId) (bundle : Nat) (dead : List Nat) : State :=
  let retired := (mapLanes (s.laneMap p (2 * bundle + 1))).map (·.1)
  let old := match (s.port p).lanes.rx with
    | some r => if r.bundle = bundle then r.lanes else []
    | none => []
  let all := (old ++ dead).eraseDups.filter fun l => !retired.contains l
  let other : Bool := match (s.port p).lanes.rx with | some r => r.bundle ≠ bundle | none => false
  if all.isEmpty ∨ (all = old) then s
  else if spareLanes p < retired.length + all.length then s.portDown p eLinkSpare
  else if other then s
  else
    let w := s.switchWheel p
    s.onPort p fun y =>
      { y with lanes := { y.lanes with rx := some { bundle := bundle, laneA := all.getD 0 31, laneB := all.getD 1 31, boundary := w },
                                       fails := NMap.erase y.lanes.fails bundle } }

/-- Retires the lanes of a substitution in a map, with SRC 2 (R111, R131). -/
def State.substMap (s : State) (p : PortId) (k : Nat) (lanes : List Nat) : State :=
  s.setMap p k (mapEntry (unionLanes (mapLanes (s.laneMap p k)) (lanes.map fun l => (l, 2))))

/-- SUBSTITUTION_TX_SWITCH: at the switch boundary the transmitter changes its map, if a copy of the request reached it at
least 16 ticks before (R130). -/
def execSubstitutionTxSwitch (p : PortId) (t : Nat) (s : State) : Out :=
  let s := s.clock t
  let y := s.port p
  match y.lanes.tx with
  | some r =>
    let at_ := wheelStart p y.link.kl2 r.boundary
    if s.tallyOf p.die < at_ ∨ y.link.st ≠ .up then .next s
    else
      let s := s.onPort p fun y => { y with lanes := { y.lanes with tx := none } }
      if r.copyAt + 16 ≤ at_ then .next (s.substMap p (2 * r.bundle) r.lanes) else .next s
  | none => .next s

/-- SUBSTITUTION_RX_SWITCH: from the switch boundary plus L the receiver uses the new map; the retirement is recorded with SRC 2
and reported. Where the transmitter did not switch, failures go on and the next eligible boundary is named: of a transmitter on another
tray, `failsOn` says whether they do (R130, R131). -/
def execSubstitutionRxSwitch (x : RxSwitch) (t : Nat) (s : State) : Out :=
  let p := x.port
  let s := s.clock t
  let y := s.port p
  match y.lanes.rx with
  | some r =>
    if s.tallyOf p.die < wheelStart p y.link.kl2 r.boundary + y.link.pinned ∨ y.link.st ≠ .up then .next s
    else
      let switched : Bool := match y.link.mate with
        | some q =>
          if q.die.tray ≠ s.span.num then !x.failsOn
          else r.lanes.all fun l => (mapLanes (s.laneMap q (2 * r.bundle))).any fun e => e.1 = l
        | none => !x.failsOn
      if switched then
        let s := s.onPort p fun y => { y with lanes := { y.lanes with rx := none, fails := NMap.erase y.lanes.fails r.bundle } }
        let s := s.substMap p (2 * r.bundle + 1) r.lanes
        .next (s.forEach r.lanes fun s l => s.retire p (2 * r.bundle + 1) l 2)
      else
        let w := s.switchWheel p
        .next (s.onPort p fun y => { y with lanes := { y.lanes with rx := some { r with boundary := w } } })
  | none => .next s

/-- LANE_SILENT: a receive lane with no transition for 1 us is dead: while UP a substitution of a data or standby lane; in ALIGN,
CONFIG and PIN the attempt fails, with E_LINK_LANE and a soft retirement while the bundle has a standby lane, else with
E_LINK_REPAIR (R129, R132). -/
def execLaneSilent (p : PortId) (l : Lane) (t : Nat) (s : State) : Out :=
  let s := s.clock t
  let k := 2 * l.bundle + 1
  let y := s.port p
  let retired := (mapLanes (s.laneMap p k)).any fun e => e.1 = l.lane
  if l.dir ≠ 1 ∨ bundlesOf p ≤ l.bundle ∨ dataLanes p + spareLanes p ≤ l.lane ∨ retired then .next s
  else if y.link.st = .up then .next (s.declareDead p l.bundle [l.lane])
  else if y.link.st = .align ∨ y.link.st = .config ∨ y.link.st = .pin then
    (if 0 < s.standby p k then .next ((s.retire p k l.lane 1).failAttempt p eLinkLane)
     else .next (s.failAttempt p eLinkRepair))
  else .next s

/-! ### Loss of a link (R132, R133, R162) -/

/-- CLOCK_PAIR_LOSS: a Bridge or Furrow receiver loses its clock pair, which has no spare: the port goes down (R133, R162). -/
def execClockPairLoss (p : PortId) (t : Nat) (s : State) : Out :=
  let s := s.clock t
  if (s.port p).link.st = .up ∧ profileOf p ≠ 2 then .next (s.portDown p 0) else .next s

/-- The link status of a cause of LINK_DOWN; loss of signal or codeword lock has none (Tables 5.4, 6.8). -/
def downStatus : DownCause → Nat
  | .signal => 0
  | .codewordLock => 0
  | .spare => eLinkSpare
  | .errors => eLinkErrors
  | .replay => eLinkReplay
  | .align => eLinkAlign

/-- LINK_DOWN: a port in UP goes down within 1 us of a cause and trains (R162). -/
def execLinkDown (p : PortId) (cause : DownCause) (t : Nat) (s : State) : Out :=
  let s := s.clock t
  if (s.port p).link.st = .up then .next (s.portDown p (downStatus cause)) else .next s

/-! ### Dry (R134-R137) -/

/-- What R134 asks of this end: Dry enabled, no loaded plan on the link, no side flit to send, unacknowledged or in the pond, no
substitution pending, and only idle and mark flits, beside those of Dry itself, for DRY_IDLE. -/
def State.dryOk (s : State) (p : PortId) : Bool :=
  let y := s.port p
  y.dry.enabled && y.dry.busyAt + y.dry.idleUs * us ≤ s.now && !s.planned p && y.side.hold.isEmpty && y.side.unacked.isEmpty && y.lanes.rx.isNone && y.lanes.tx.isNone

/-- Sets the Dry phase of a port. -/
def State.dryPhase (s : State) (p : PortId) (ph : DryPhase) (requester : Bool) : State :=
  s.onPort p fun y => { y with dry := { y.dry with phase := ph, requester := requester } }

/-- DRY_IDLE_ELAPSED: only idle and mark flits for DRY_IDLE: the end requests entry (R134, R135). -/
def execDryIdleElapsed (p : PortId) (t : Nat) (s : State) : Out :=
  let s := s.clock t
  let y := s.port p
  if y.link.st = .up ∧ y.dry.phase = .none_ ∧ s.dryOk p then .next ((s.dryPhase p .requested true).sendLc p { type := 0x04 })
  else .next s

/-- DRY_REQ: the peer's request is answered DRY_ACK or DRY_NAK; of two requests within a wheel the lower-UID end's stands and the
other's is withdrawn, however it answers. A request at an end that had acknowledged one before shows that entry aborted (R135). -/
def execDryReq (p : PortId) (t : Nat) (s : State) : Out :=
  let s := s.clock t
  let y := s.port p
  if y.link.st ≠ .up then .next s
  else if y.dry.phase = .requested ∧ s.lowerEnd p then .next s
  else if s.dryOk p ∧ (y.dry.phase = .none_ ∨ y.dry.phase = .requested ∨ y.dry.phase = .answered) then
    .next (((s.dryPhase p .answered false).lcAnswered p 0x04).sendLc p { type := 0x05 })
  else if y.dry.phase = .requested ∨ y.dry.phase = .answered then
    .next (((s.dryPhase p .none_ false).lcAnswered p 0x04).sendLc p { type := 0x06 })
  else .next (s.sendLc p { type := 0x06 })

/-- DRY_ACK: the requester sends its eight idle sequences (R135). -/
def execDryAck (p : PortId) (t : Nat) (s : State) : Out :=
  let s := s.clock t
  if (s.port p).link.st = .up ∧ (s.port p).dry.phase = .requested then
    .next ((s.dryPhase p .sequences true).lcAnswered p 0x04)
  else .next s

/-- DRY_NAK: entry is refused (R135). -/
def execDryNak (p : PortId) (t : Nat) (s : State) : Out :=
  let s := s.clock t
  if (s.port p).link.st = .up ∧ (s.port p).dry.phase = .requested then
    .next ((s.dryPhase p .none_ false).lcAnswered p 0x04)
  else .next s

/-- DRY_COMMIT: the requester has sent its eighth sequence: the commit point (R135). -/
def execDryCommit (p : PortId) (t : Nat) (s : State) : Out :=
  let s := s.clock t
  if (s.port p).dry.phase = .sequences then .next (s.dryPhase p .committed true) else .next s

/-- DRY_ENTERED: the link is fully Dry at this end; a wake after the commit point starts exit at once (R135, R136). The link
leaves UP for the tally tree (R83). -/
def execDryEntered (p : PortId) (t : Nat) (s : State) : Out :=
  let s := s.clock t
  let y := s.port p
  if y.link.st = .up ∧ (y.dry.phase = .committed ∨ y.dry.phase = .answered) then
    let s := s.settleAllTimers
    let s := s.onPort p fun y =>
      { y with link := { y.link with st := .dry }, side := { y.side with synced := false, lc := [] },
               dry := { y.dry with phase := if y.dry.wakeAfter then .exiting else .dry, wakeAfter := false } }
    .next (s.linkLeaves p)
  else .next s

/-- Flits that resume show an end which had acknowledged DRY_REQ that the entry aborted (R135). -/
def State.dryResumed (s : State) (p : PortId) : State :=
  if (s.port p).dry.phase = .answered then
    s.onPort p fun y => { y with dry := { y.dry with phase := .none_, requester := false, wakeAfter := false } }
  else s

/-- A flit other than idle, mark and Dry flits crosses a link at an end (R134). -/
def State.dryBusy (s : State) (p : PortId) : State :=
  let now := s.now
  s.onPort p fun y => { y with dry := { y.dry with busyAt := now } }

/-- What a wake does at an end: before the commit point it aborts the entry there, and a follower signals it with WAKE; after
it, entry completes and exit starts at once (R135, R136). -/
def State.wakePort (s : State) (p : PortId) : State :=
  let y := s.port p
  match y.dry.phase with
  | .none_ => s
  | .exiting => s
  | .dry => s.dryPhase p .exiting y.dry.requester
  | .committed => s.onPort p fun y => { y with dry := { y.dry with wakeAfter := true } }
  | .requested => (s.dryPhase p .none_ false).lcAnswered p 0x04
  | .sequences =>
    let s := s.dryPhase p .none_ false
    s.forEach ((wired p).toList.filter fun q => q.die.tray = s.span.num) fun s q =>
      if (s.port q).dry.phase = .answered then s.onPort q fun y => { y with dry := { y.dry with phase := .none_, wakeAfter := false } }
      else s
  | .answered =>
    if y.dry.wakeAfter then s
    else (s.onPort p fun y => { y with dry := { y.dry with wakeAfter := true } }).sendLc p { type := 0x07 }

/-- WAKE: a wake cause at this end, or the peer's signal (R135, R136). -/
def execWake (p : PortId) (_cause : WakeCause) (t : Nat) (s : State) : Out :=
  let s := s.clock t
  if (s.port p).link.st = .up ∨ (s.port p).link.st = .dry then .next (s.wakePort p) else .next s

/-- DRY_EXIT_DONE: clocks relocked, ALIGN repeated, the pad checked: dead lanes are retired, and the link is UP and starts with
REPLAY_SYNC; a pad outside its range retrains the port (R102, R111, R136, R137, R164). -/
def execDryExitDone (p : PortId) (dead : List Lane) (pinOk : Bool) (t : Nat) (s : State) : Out :=
  let s := s.clock t
  let y := s.port p
  if y.link.st ≠ .dry ∨ y.dry.phase ≠ .exiting then .next s
  else
    let byMap := (List.range (2 * bundlesOf p)).map fun k =>
      (k, ((dead.filter fun l => 2 * l.bundle + l.dir = k).map fun l => l.lane).eraseDups.filter fun l =>
        l < dataLanes p + spareLanes p && !((mapLanes (s.laneMap p k)).any fun e => e.1 = l))
    if byMap.any fun e => spareLanes p < (mapLanes (s.laneMap p e.1)).length + e.2.length then .next (s.portDown p eLinkSpare)
    else if !pinOk then .next (s.portDown p eLinkPin)
    else
      let s := s.forEach byMap fun s e =>
        if e.2.isEmpty then s else (s.forEach e.2 fun s l => s.retire p e.1 l 2).substMap p e.1 e.2
      let s := s.settleAllTimers
      let s := s.onPort p fun y =>
        { y with link := { y.link with st := .up },
                 dry := { y.dry with phase := .none_, requester := false, wakeAfter := false, busyAt := s.now } }
      let s := s.settleWaking p
      let x := (s.port p).side
      .next (s.sendLc p { type := 0x03, body := le 2 x.expected.toNat ++ le 2 x.next.toNat })

end Sys2Proof.Machine
end

