-- ==== Sys2Proof/Machine/Klc.lean ====
section
/-! DEFINITION. Sys2Proof/Machine/Klc.lean: the link configuration space of a port and its ledger entry (R91, R204, Tables 4.5,
7.11, 18.11). -/

namespace Sys2Proof.Machine

/-- Whether a port's link is a tally parent link, by either end (Table 4.5 FLAGS bit 2). -/
def State.parentLink (s : State) (p : PortId) : Bool :=
  (s.linkEnds p).any fun q => (s.die q.die).tally.parent = some q.port

/-- The 32 bytes of a ledger entry (Table 4.5). FLAGS bit 0 is set for every port that leaves through a cage (log entry 62). -/
def State.ledgerEntry (s : State) (p : PortId) : List Byte :=
  let l := (s.port p).link
  le 1 p.die.tray.val ++ le 1 p.die.addr ++ le 1 p.port.val ++ le 1 (profileOf p) ++ le 1 (if l.gen ≠ 0 then l.gen else if profileOf p = 0 then 1 else 2)
    ++ le 1 ((if (cageOf p).isSome then 1 else 0) + (if l.wrap then 2 else 0) + (if s.parentLink p then 4 else 0))
    ++ le 2 l.pinned
    ++ (match l.peer with
        | some q => le 1 q.die.tray.val ++ le 1 q.die.addr ++ le 1 q.port.val
        | none => le 1 0xFF ++ le 1 0 ++ le 1 0xFF)
    ++ le 1 (s.ledgerState p) ++ le 4 0 ++ le 8 l.changed.toNat ++ le 8 0

/-- Training state codes (Table 18.11). -/
def TrSt.code : TrSt → Nat
  | .down => 0
  | .detect => 1
  | .clock => 2
  | .equalise => 3
  | .repair => 4
  | .align => 5
  | .config => 6
  | .pin => 7
  | .up => 8
  | .failed => 9
  | .dry => 10

/-- Error level codes (Table 18.11). -/
def ErrLevel.code : ErrLevel → Nat
  | .normal => 0
  | .watch => 1
  | .quarantine => 2

/-- Default figures of KLC_THR (Table 18.11). -/
def thrDefault : List Nat := [16, 8192, 4, 256, 0xFFFFFFFF, 64]

/-- Figure `j` of Table 6.8 in force on a port (R170). -/
def Errors.figure (x : Errors) (j : Nat) : Nat := NMap.get x.thr j (thrDefault.getD j 0)

/-- Largest pond of a port (Table 6.1). -/
def pondMax (d : DieId) : Nat := if d.isCompute then 0x10000000 else 0x300000

/-- Link-control types a die supports: 0x01-0x08, or 0x01-0x07 on an HX-1, 0x10 and 0x11 (Table 7.10, R205). -/
def lcTypes (d : DieId) : Nat := if d.isCompute then 0x301FE else 0x300FE

/-- KLC_TRSTATE (Table 18.11). -/
def Link.trReg (l : Link) : Nat :=
  l.st.code + 16 * l.attempts + (if l.leader then 64 else 0) + 256 * l.last + (if l.collided then 0x1000000 else 0)
    + 0x2000000 * l.collisions

/-- Bytes 0x000-0x2FF of the space (Tables 7.11, 18.11). -/
def State.klcHead (s : State) (p : PortId) : List Byte :=
  let y := s.port p
  let x := (s.die p.die)
  let id := le 8 x.ident.uid.toNat ++ le 8 s.serial.toNat ++ le 1 p.die.addr ++ le 1 p.port.val ++ le 1 (s.orientOf p.die)
    ++ le 1 (profileOf p) ++ le 1 x.ident.gen ++ le 11 0
  let cap := le 1 (s.shape p).1 ++ le 1 (s.shape p).2.1 ++ le 1 (s.shape p).2.2 ++ le 1 0
    ++ le 4 (Config.turnaround p.key).toNat ++ le 4 (pondMax p.die) ++ le 4 (lcTypes p.die) ++ le 16 0
  let st := le 4 y.link.trReg ++ le 4 y.link.rawLat
  let err := le 4 (y.err.level.code + (if y.err.trend then 4 else 0) + 65536 * min 0xFFFF y.err.lastFail)
    ++ le 4 (min 0xFFFF y.err.lastReplay + 65536 * min 0xFFFF y.err.lastCorr)
  let maps := (List.range 16).flatMap fun k => le 2 (s.laneMap p k).toNat
  let cnts := (List.range 10).flatMap fun i => le 4 (NMap.get y.err.cnt i 0)
  let replay := le 4 (y.side.next.toNat + 65536 * y.side.expected.toNat) ++ le 4 y.side.unacked.length
    ++ le 8 (Config.pondBase p.key).toNat ++ le 4 y.pond.size ++ le 4 y.pond.replay
    ++ ((List.range 9).flatMap fun f => le 4 (NMap.get y.pond.holds f 0))
  id ++ cap ++ st ++ err ++ s.ledgerEntry p ++ le 16 0 ++ maps ++ le 96 0 ++ cnts ++ le 4 y.err.sat.toNat ++ le 84 0
    ++ replay ++ le 68 0 ++ ((List.range 6).flatMap fun j => le 4 (y.err.figure j)) ++ le 104 0
    ++ le 4 (if y.dry.enabled then 1 else 0) ++ le 4 y.dry.idleUs ++ le 120 0

/-- One byte of KLC_EQ: settings per physical lane and direction of every bundle (Table 18.11, R122). -/
def State.klcEq (s : State) (p : PortId) (ofs : Nat) : Byte :=
  let k := (ofs - 0x800) / 4
  let per := dataLanes p + spareLanes p
  match (s.port p).lanes.eq with
  | some n => if k < 2 * per * bundlesOf p then (le 4 (Config.eqTap n k).toNat).getD (ofs % 4) 0 else 0
  | none => 0

/-- Bytes of the link configuration space; reserved offsets read 0 (R3, R204). -/
def State.klcRead (s : State) (p : PortId) (ofs len : Nat) : List Byte :=
  if ofs + len ≤ 0x800 then slice (s.klcHead p) ofs len
  else (List.range len).map fun i =>
    let a := ofs + i
    if a < 0x300 then (s.klcHead p).getD a 0 else if a < 0x800 then 0 else s.klcEq p a

end Sys2Proof.Machine
end

