-- ==== Sys2Proof/Machine/Wire.lean ====
section
/-! DEFINITION. Sys2Proof/Machine/Wire.lean: how flits travel on the lanes of a bundle: bits to lanes on Bridge and Furrow, the
RS(544,514) codeword stream of Culvert with its striping and levels, and the scrambler of each lane (R111, R112, R143, R144, R146). -/

namespace Sys2Proof.Machine

/-! ### Bits of a flit on Bridge and Furrow lanes (R143) -/

/-- The bits of bytes in transmission order: byte 0 first, bit 0 of each byte first (R141). -/
def bitsOf (bs : List Byte) : List Bool := bs.flatMap fun b => (List.range 8).map fun i => b.getLsbD i

/-- The number bits spell, the first as bit 0. -/
def bitsVal : List Bool → Nat
  | [] => 0
  | b :: r => (if b then 1 else 0) + 2 * bitsVal r

/-- The logical data lane and the unit interval of the slot in which bit `j` of a flit travels (R143). -/
def flitPlace (j : Nat) : Nat × Nat := (j % 16, j / 16)

/-- The unit intervals a flit fills (R143). -/
def flitUi (kl2 : Bool) : Nat := if kl2 then 34 else 16

/-- The bits a flit puts on a logical data lane, by unit interval (R143). -/
def flitLane (bs : List Byte) (lane : Nat) : List Bool :=
  let bits := bitsOf bs
  (List.range (bits.length / 16)).map fun u => bits.getD (16 * u + lane) false

/-! ### RS(544,514) over GF(2^10) (R144) -/

/-- Multiplication by alpha in GF(2^10) with the field polynomial x^10 + x^3 + 1 of IEEE 802.3 Clause 91 (PRESUMED, log entry 139). -/
def gf10Double (a : Nat) : Nat := if a ≥ 512 then (a * 2) ^^^ 0x409 else a * 2

/-- Product by shift and add over the low `n` bits of `b`. -/
def gf10MulAux : Nat → Nat → Nat → Nat
  | 0, _, _ => 0
  | n + 1, a, b => (if b % 2 = 1 then a else 0) ^^^ gf10MulAux n (gf10Double a) (b / 2)

/-- Product in GF(2^10). -/
def gf10Mul (a b : Nat) : Nat := gf10MulAux 10 a b

/-- alpha to the power `n`. -/
def gf10Pow : Nat → Nat
  | 0 => 1
  | n + 1 => gf10Double (gf10Pow n)

/-- A polynomial, highest degree first, times (x - root). -/
def polyTimes (p : List Nat) (root : Nat) : List Nat :=
  (p ++ [0]).zipWith (fun a b => a ^^^ gf10Mul b root) (0 :: p)

/-- The generator: the product of (x - alpha^j) for j from 0 to 29, highest degree first (PRESUMED, log entry 139). -/
def rs544Gen : List Nat := (List.range 30).foldl (fun p j => polyTimes p (gf10Pow j)) [1]

/-- One step of the division by the generator: the 30 remainder symbols after a further data symbol. -/
def rs544Step (gen r : List Nat) (sym : Nat) : List Nat :=
  let f := sym ^^^ r.getD 0 0
  (r.drop 1 ++ [0]).zipWith (fun a g => a ^^^ gf10Mul f g) (gen.drop 1)

/-- The 30 parity symbols of 514 data symbols, the first of highest degree (R144). -/
def rs544Parity (data : List Nat) : List Nat := data.foldl (rs544Step rs544Gen) (List.replicate 30 0)

/-- The syndrome of a codeword at alpha^j: 0 at each j below 30 for a codeword without error. -/
def rs544Syndrome (j : Nat) (syms : List Nat) : Nat := syms.foldl (fun acc x => gf10Mul acc (gf10Pow j) ^^^ x) 0

/-! ### The Culvert codeword stream (R144) -/

/-- Symbols of bits in transmission order, the first bit in symbol bit 0; `n` symbols. -/
def symbolsOf : Nat → List Bool → List Nat
  | 0, _ => []
  | n + 1, bits => bitsVal (bits.take 10) :: symbolsOf n (bits.drop 10)

/-- The 544 symbols of codeword `num` of a stripe frame over its ten flits: header with CW_NUM and reserved bits 0, data, parity
(Table 6.5a). -/
def codeword (num : Nat) (flits : List (List Byte)) : List Nat :=
  let data := [num % 1024, 0] ++ symbolsOf 512 (flits.flatMap fun z => bitsOf (slice z 0 64))
  data ++ rs544Parity data

/-- Codeword number in its stripe frame, 0-895, and place in the codeword, 0-9, of the flit in a slot of a wheel: 35 wheels are a frame,
which starts with a wheel whose number is a multiple of 35 (R144). -/
def cwPlace (wheel slot : Nat) : Nat × Nat :=
  let n := wheel % 35 * 256 + slot
  (n / 10, n % 10)

/-- The logical data lane of symbol `i` of codeword `num` of a frame (R144): the stream's symbols go round the seven lanes. -/
def symbolLane (num i : Nat) : Nat := (544 * num + i) % 7

/-- The PAM4 level of a bit pair, first bit first: 00, 01, 11, 10 are 0, 1, 2, 3; precoding is off (R144). -/
def pam4 (first second : Bool) : Nat := if first then (if second then 2 else 3) else (if second then 1 else 0)

/-- The ten bits of a symbol, bit 0 first. -/
def symbolBits (x : Nat) : List Bool := (List.range 10).map x.testBit

/-- The five PAM4 levels of bits taken in pairs (R144). -/
def levels : List Bool → List Nat
  | a :: b :: r => pam4 a b :: levels r
  | _ => []

/-- The bits a codeword puts on a logical data lane, in order, before scrambling (R144). -/
def codewordLane (num : Nat) (syms : List Nat) (lane : Nat) : List Bool :=
  (syms.zipIdx.filter fun e => symbolLane num e.2 = lane).flatMap fun e => symbolBits e.1

/-- The stream of a bundle after a further flit: the codeword begins with the first of its ten slots and is whole with the last. -/
def CwStream.add (x : CwStream) (wheel slot : Nat) (bs : List Byte) : CwStream :=
  let (num, i) := cwPlace wheel slot
  let flits := if i = 0 then [bs] else if x.num = num then x.flits ++ [bs] else []
  if i = 9 ∧ flits.length = 10 then { num := num, flits := [], done := some (num, codeword num flits) }
  else { x with num := num, flits := flits }

/-- The wheel in which slot `k` begins last at or before the present tally (R148). -/
def State.wheelOf (s : State) (p : PortId) (k : Nat) : Nat :=
  let (a, b) := wheelFrac (profileOf p) (s.port p).link.kl2
  (s.tallyOf p.die * 256 * b / a - k) / 256

/-- A flit sent in a slot of a Culvert bundle joins its codeword stream (R144). -/
def State.stream (s : State) (p : PortId) (bundle slot : Nat) (bs : List Byte) : State :=
  if profileOf p ≠ 2 then s
  else
    let w := s.wheelOf p slot
    s.onPort p fun y =>
      { y with planned := { y.planned with cw := NMap.set y.planned.cw bundle ((NMap.get y.planned.cw bundle {}).add w slot bs) } }

/-! ### The scrambler of a lane (R146) -/

/-- The register of a physical lane at the start of a wheel whose number is a multiple of 65,536. -/
def scrLoad (lane : Nat) : Nat := 0x7FFFFF00 + lane

/-- The next scrambler bit of x^31 + x^28 + 1: the register's stages 31 and 28 (log entry 140). -/
def scrBit (r : Nat) : Bool := r.testBit 30 != r.testBit 27

/-- The register a bit later. -/
def scrStep (r : Nat) : Nat := (r * 2 + (if scrBit r then 1 else 0)) % 0x80000000

/-- The register `n` bits later. -/
def scrAfter : Nat → Nat → Nat
  | 0, r => r
  | n + 1, r => scrAfter n (scrStep r)

/-- Bits under the additive scrambler from a register: scrambling and descrambling are one. -/
def scramble : Nat → List Bool → List Bool
  | _, [] => []
  | r, b :: bs => (b != scrBit r) :: scramble (scrStep r) bs

/-- Bits of a lane per wheel, as a fraction: a slot's unit intervals 256 times on Bridge and Furrow; on Culvert, 896 codewords of 5,440
bits over seven lanes in 35 wheels (R143, R144). -/
def wheelBits (profile : Nat) (kl2 : Bool) : Nat × Nat :=
  if profile = 2 then (896 * 5440, 245) else (256 * flitUi kl2, 1)

/-- The register of a physical lane before bit `at_` of a wheel: loaded at the last wheel whose number is a multiple of 65,536 (R146). -/
def scrReg (profile : Nat) (kl2 : Bool) (lane wheel at_ : Nat) : Nat :=
  let (a, b) := wheelBits profile kl2
  let w0 := wheel / 65536 * 65536
  scrAfter (ceilDiv (wheel * a) b - ceilDiv (w0 * a) b + at_) (scrLoad lane)

/-! ### What a physical lane carries (R111, R112, R143, R144, R146) -/

/-- The bits a port sends on a physical lane of a bundle for the flit of a slot (Bridge, Furrow), scrambled: those of the logical data
lane it carries under the working map; on a standby lane the idle pattern, which is not stated; none on a retired lane. -/
def State.laneOut (s : State) (p : PortId) (z : Sent) (lane : Nat) : List Bool :=
  let kl2 := (s.port p).link.kl2
  let data := dataOf p (s.laneMap p (2 * z.bundle))
  let retired := (mapLanes (s.laneMap p (2 * z.bundle))).any fun e => e.1 = lane
  let at_ := z.slot * flitUi kl2
  let bits := match data.findIdx? (· = lane) with
    | some i => flitLane z.bytes i
    | none => if retired then [] else (List.range (flitUi kl2)).map fun u => Config.standbyBit (at_ + u)
  scramble (scrReg (profileOf p) kl2 lane (s.wheelOf p z.slot) at_) bits

/-- The PAM4 levels a Culvert port sends on a physical lane for the last whole codeword of a bundle, scrambled from register `r` of the
lane. -/
def State.culvertOut (s : State) (p : PortId) (bundle lane r : Nat) : List Nat :=
  match (dataOf p (s.laneMap p (2 * bundle))).findIdx? (· = lane), (NMap.get (s.port p).planned.cw bundle {}).done with
  | some i, some (num, syms) => levels (scramble r (codewordLane num syms i))
  | _, _ => []

end Sys2Proof.Machine
end

