-- ==== Sys2Proof/Machine/Flits.lean ====
section
/-! DEFINITION. Sys2Proof/Machine/Flits.lean: flits on the wire, planned positions and poison, side flow with its sequence, replay
and link control, and the error windows (R138-R172, R205, R414-R418). -/

namespace Sys2Proof.Machine

/-! ### Formats (R138-R142, R153) -/

/-- The REPAIR field of a substitution request; LANE_A 0x1F and the rest 0 for none (Table 6.4). -/
def repairBits : Option Subst → Nat
  | some r => r.bundle + 8 * r.laneA + 256 * r.laneB + 8192 * (r.boundary % 4)
  | none => 8 * 31

/-- The REPAIR field of the flits a port sends: the pending request of its receiver until the switch boundary, then none (R140). -/
def State.repairField (s : State) (p : PortId) : Nat :=
  let y := s.port p
  repairBits (y.lanes.rx.filter fun r => s.tallyOf p.die < wheelStart p y.link.kl2 r.boundary)

/-- The 32-bit header of a flit (Table 6.3). -/
def flitHeader (cls : Nat) (part last : Bool) (repair slot field : Nat) : Nat :=
  cls + (if part then 8 else 0) + (if last then 16 else 0) + 32 * repair + 0x100000 * slot + 0x10000000 * field

/-- Payload bytes of a flit (Table 6.2). -/
def payloadLen (kl2 : Bool) : Nat := if kl2 then 58 else 26

/-- A flit on the wire: header, payload, CRC, and RS parity on Bridge KL2 and Furrow (Table 6.2, R141, R142). -/
def wireFlit (profile : Nat) (kl2 : Bool) (header : Nat) (payload : List Byte) : List Byte :=
  let body := le 4 header ++ slice payload 0 (payloadLen kl2)
  let flit := body ++ le 2 (flitCrc body)
  if kl2 ∧ profile ≠ 2 then flit ++ rsParity flit else flit

/-- A received flit as the checks leave it: whether it passed, the symbols corrected, header and payload. -/
structure Checked where
  ok : Bool
  corrected : Nat
  header : Nat
  payload : List Byte

/-- Whether a class 7 flit is idle, not poison (R153), and the ACK it carries. -/
def Checked.idle (c : Checked) : Bool := fieldAt c.payload 0 1 = 0
def Checked.ack (c : Checked) : Half := BitVec.ofNat 16 (fieldAt c.payload 2 2)

/-- CLASS, PART, LAST, REPAIR, SLOT and FIELD of a header (Table 6.3). -/
def Checked.cls (c : Checked) : Nat := c.header % 8
def Checked.part (c : Checked) : Bool := c.header.testBit 3
def Checked.last (c : Checked) : Bool := c.header.testBit 4
def Checked.repair (c : Checked) : Nat := c.header / 32 % 32768
def Checked.slot (c : Checked) : Nat := c.header / 0x100000 % 256
def Checked.field (c : Checked) : Nat := c.header / 0x10000000

/-- The check of a flit: RS decoding or the codeword's verdict, then the CRC residue (R141, R142, R145). -/
def checkFlit (profile : Nat) (kl2 : Bool) (rx : Rx) : Checked :=
  let bad : Checked := ⟨false, 0, 0, []⟩
  if profile = 2 then
    (if rx.cwFailed then bad
     else
       let bs := slice rx.bytes 0 64
       if flitCrc bs = 0 then ⟨true, rx.cwCorrected, fieldAt bs 0 4, slice bs 4 58⟩ else { bad with corrected := rx.cwCorrected })
  else if kl2 then
    match rsDecode (slice rx.bytes 0 68) with
    | some (bs, n) =>
      if flitCrc (slice bs 0 64) = 0 then ⟨true, n, fieldAt bs 0 4, slice bs 4 58⟩ else { bad with corrected := n }
    | none => bad
  else
    let bs := slice rx.bytes 0 32
    if flitCrc bs = 0 then ⟨true, 0, fieldAt bs 0 4, slice bs 4 26⟩ else bad

/-- Payload of a poison flit with its cause, and of an idle flit with the current ACK (R153). -/
def poisonPayload (cause : Nat) : List Byte := le 1 1 ++ le 1 cause
def idlePayload (ack : Half) : List Byte := le 2 0 ++ le 2 ack.toNat

/-- ACK: the last sequence number delivered in order (R157). -/
def SideTx.ack (x : SideTx) : Half := x.expected - 1

/-! ### Planned positions (R150-R153) -/

/-- The slot set in force at a tally, as a receiver needs it: a flit sent before the last boundary lands in the set of then, after a
freeze too (R152, R167). -/
def Field.setAt (x : Field) (at_ : Nat) : Option Nat := if at_ < x.prevEnd then x.prevSet else x.setNow

/-- The field whose slot set in force at a tally holds slot `k` of a port's link (R150, R152). -/
def State.slotFieldAt (s : State) (p : PortId) (k at_ : Nat) : Option (Fin 8) :=
  allFields.find? fun f =>
    let x := s.field f
    match x.active, x.setAt at_ with
    | some pl, some n => (s.linkEnds p).any fun q => (pl.maskOf n q).testBit k
    | _, _ => false

/-- The channel a bundle position belongs to on this end of the link, and whether the position carries the first flit of a
pair: a packet crosses in two consecutive positions of its channel (R150). KIND 1 sends, KIND 2 receives. -/
def Field.positionChan (x : Field) (p : PortId) (set bundle slot kind : Nat) : Option (ChanRec × Bool) :=
  match x.active.bind fun pl => pl.blockOf p.die with
  | none => none
  | some b =>
    let mine := b.poss.filter fun e => e.set = set && e.port = p.port.val && e.bundle = bundle
      && (match b.chans[e.chan]? with | some c => c.kind = kind | none => false)
    match mine.find? fun e => e.slot = slot with
    | none => none
    | some e =>
      match b.chans[e.chan]? with
      | none => none
      | some c => some (c, (mine.filter fun z => z.chan = e.chan && z.slot < slot).length % 2 = 0)

/-- Whether a forced disable is in force for the field's present step: commanded before it began and not lifted before it
(R246, R247). -/
def Link.forceInForce (l : Link) (start : Nat) : Bool :=
  match l.forcedAt with
  | some a => a < start && (match l.liftedAt with | some b => start ≤ b | none => true)
  | none => false

/-- Puts a planned flit on the wire. -/
def State.sendPlanned (s : State) (p : PortId) (bundle slot cls : Nat) (part : Bool) (field : Nat) (payload : List Byte) :
    State :=
  let y := s.port p
  let h := flitHeader cls part false (s.repairField p) slot field
  let bs := wireFlit (profileOf p) y.link.kl2 h payload
  (s.setPort p { y with planned := { y.planned with sent := some ⟨bundle, slot, bs⟩ } }).stream p bundle slot bs

/-- A planned packet has crossed a link: its die counts it for its field; a marker is none (R284; log entry 152). -/
def State.countPlanned (s : State) (d : DieId) (k : Packet) : State :=
  if k.kind = 0 then s.onCnt d fun c => { c with planned := sat32 c.planned } else s

/-- A credit goes back to the source of a channel that leaves by a link, when its second flit leaves (R68). -/
def State.egressCredit (s : State) (d : DieId) (k : Packet) : State :=
  let more := fun (l : List OutChan) => l.map fun o =>
    if o.dst = k.dest ∧ o.channel = k.channel ∧ o.egress = k.egress then { o with fresh := o.fresh + 1 } else o
  if k.kind ≠ 0 then s
  else if k.src < 1024 then s.onTile d k.src fun x => { x with outs := more x.outs }
  else s.onDie d fun y => y.setEp (k.src - 1024) { y.ep (k.src - 1024) with outs := more (y.ep (k.src - 1024)).outs }

/-- When the present step of a field began: the last boundary where none runs. -/
def Field.stepStart (x : Field) : Nat := match x.run with | some r => if r.started then r.start else x.prevEnd | none => x.prevEnd

/-- Whether a packet may leave in a drain wave: markers, and in a drain, which has no step of its own, the data before them (R75,
R232, R233, R241; log entry 136). -/
def Field.mayCross (x : Field) (k : Packet) : Bool := !x.waving || k.kind = 2 || x.drain.isSome

/-- PLANNED_POSITION_SEND: the channel's flit if its packet is in the egress entries; poison with cause 0x02 if it is absent,
0x03 on a link disabled by force at either end; idle where no channel uses the position, the sluice is closed or a drain wave has
nothing to send; a field that is not the die's own sends nothing and is an error of the die's field (R68, R75, R150, R151, R153, R167,
R233, R246, Table 11.4). -/
def execPlannedPositionSend (p : PortId) (bundle : Nat) (slot : Fin 256) (s : State) : Out :=
  let y := s.port p
  let k := slot.val
  if y.link.st ≠ .up ∨ !y.link.kl2 ∨ bundlesOf p ≤ bundle then .next s
  else
    match s.slotField p k with
    | none => if s.slotHeld p k then .next (s.sendPlanned p bundle k 7 false 0 (idlePayload y.side.ack)) else .next s
    | some f =>
      let x := s.field f
      match x.setNow.bind fun n => x.positionChan p n bundle k 1 with
      | none => .next (s.sendPlanned p bundle k 7 false 0 (idlePayload y.side.ack))
      | some (c, first) =>
        if (s.linkEnds p).any fun q => (s.port q).link.forceInForce x.stepStart then .next (s.sendPlanned p bundle k 7 (!first) (fnum f) (poisonPayload 3))
        else
          let mine := fun (e : Egress) => e.packet.dest = c.dst && e.packet.channel = c.channel && e.packet.src = c.src
            && x.mayCross e.packet
          match y.planned.egress.findIdx? mine with
          | none =>
            if x.waving then .next (s.sendPlanned p bundle k 7 false 0 (idlePayload y.side.ack))
            else .next (s.sendPlanned p bundle k 7 (!first) (fnum f) (poisonPayload 2))
          | some i =>
            match y.planned.egress[i]? with
            | none => .next s
            | some e =>
              if s.fieldOf p.die ≠ some f then
                .next ((s.meshError p.die 0xE107 2 p.port.val).sendPlanned p bundle k 7 (!first) (fnum f) (poisonPayload 2))
              else if first then
                let h := meshHeader e.packet
                let s := s.setPort p { y with planned := { y.planned with egress := y.planned.egress.set i { e with half := true } } }
                .next (s.sendPlanned p bundle k 0 false (fnum f) (le 8 h ++ slice (le 64 e.packet.payload.toNat) 0 50))
              else if e.half then
                let s := s.setPort p { y with planned := { y.planned with egress := y.planned.egress.eraseIdx i } }
                .next (((s.sendPlanned p bundle k 0 true (fnum f) (slice (le 64 e.packet.payload.toNat) 50 14)).egressCredit
                  p.die e.packet).countPlanned p.die e.packet)
              else .next (s.sendPlanned p bundle k 7 true (fnum f) (poisonPayload 2))

/-! ### What every received flit does -/

/-- Counts a checked flit in the port's counters and window: corrected symbols by bundle, failures (R169, R170). -/
def State.countFlit (s : State) (p : PortId) (bundle : Nat) (c : Checked) : State :=
  s.onPort p fun y =>
    let e := if c.corrected = 0 then y.err else
      { y.err.bump 0 c.corrected with corrBy := NMap.set y.err.corrBy bundle (NMap.get y.err.corrBy bundle 0 + c.corrected) }
    let e := if c.ok then e else { e.bump 1 1 with winFail := e.winFail + 1 }
    { y with err := e }

/-- Four consecutive failed flits of a bundle declare dead every lane that showed no transition for 128 UI meanwhile
(R129). -/
def State.watchLanes (s : State) (p : PortId) (bundle : Nat) (ok : Bool) (quiet : List Nat) : State :=
  let n := if ok then 0 else NMap.get (s.port p).lanes.fails bundle 0 + 1
  let s := s.onPort p fun y => { y with lanes := { y.lanes with fails := NMap.set y.lanes.fails bundle n } }
  let data := dataOf p (s.laneMap p (2 * bundle + 1))
  let dead := quiet.filter data.contains
  if 4 ≤ n ∧ !dead.isEmpty then s.declareDead p bundle dead else s

/-- The transmitter takes the substitution request of a flit it received: the wheel numbered modulo 4 (R130, R140). -/
def State.takeRepair (s : State) (p : PortId) (field : Nat) : State :=
  let laneA := field / 8 % 32
  if laneA = 31 then s
  else
    let y := s.port p
    let now := s.tallyOf p.die
    let (a, b) := wheelFrac (profileOf p) y.link.kl2
    let w0 := (now - y.link.pinned) * b / a
    let w := w0 + (field / 8192 + 4 - w0 % 4) % 4
    let r : Subst := { bundle := field % 8, laneA := laneA, laneB := field / 256 % 32, boundary := w, copyAt := now }
    let same : Bool := match y.lanes.tx with
      | some o => o.bundle = r.bundle && o.laneA = r.laneA && o.laneB = r.laneB && o.boundary = r.boundary
      | none => false
    let done := r.lanes.all fun l => (mapLanes (s.laneMap p (2 * r.bundle))).any fun e => e.1 = l
    if same ∨ done then s else s.setPort p { y with lanes := { y.lanes with tx := some r } }

/-- A flit that passes its check with another SLOT or CW_NUM than its position takes the port down with E_LINK_ALIGN
(Table 6.8). -/
def misplaced (c : Checked) (slot : Nat) (rx : Rx) : Bool := c.ok && (c.slot ≠ slot || rx.cwMisnumbered)

/-! ### Acknowledgement (R157, R158) -/

/-- A replay ends: the port sequences again, timers run, requesters told to hold are cleared (R172, R198, R199). -/
def State.endReplay (s : State) (p : PortId) : State :=
  let s := s.settleAllTimers
  let s := (s.onPort p fun y => { y with side := { y.side with replaying := false, replayAt := none, replayFrom := none } }).linkEvent
  if (s.port p).flowing then s.routeClear p else s

/-- Takes an ACK: covered flits are freed, the timer restarts, a replay skips what is covered; a number never sent is counted
(R158). -/
def State.takeAck (s : State) (p : PortId) (ack : Half) : State :=
  let y := s.port p
  let oldest : Half := match y.side.unacked with | z :: _ => z.seq | [] => y.side.next
  let n := (ack - (oldest - 1)).toNat
  if n = 0 then s
  else if y.side.unacked.length < n then (if n < 32768 then s.bump p 7 1 else s)
  else
    let rest := y.side.unacked.drop n
    let skipped : Bool := match y.side.replayAt with | some q => rest.all fun z => z.seq ≠ q | none => false
    let s := s.setPort p { y with side :=
      { y.side with unacked := rest, timerFrom := s.now,
                    replayAt := if skipped then rest.head?.map fun z => z.seq else y.side.replayAt } }
    if y.side.replaying ∧ rest.isEmpty then s.endReplay p else s

/-! ### Planned flits received (R152) -/

/-- A planned position delivers inside the die what it carried, or poison of a cause in its place (R152, R153). -/
def State.deliverPlanned (s : State) (p : PortId) (bundle slot : Nat) (part : Bool) (field cls : Nat) (payload : List Byte) :
    State :=
  s.onPort p fun y =>
    let bs := le 4 (flitHeader cls part false (s.repairField p) slot field) ++ slice payload 0 58
    { y with planned := { y.planned with delivered := some ⟨bundle, slot, bs⟩ } }

/-- The first flit of a pair is kept for the second; with the second the packet is injected, poisoned if either flit was,
with its header from a good first flit, else from the channel's configuration and the next expected tag (R74, R152). -/
def State.pairFlit (s : State) (p : PortId) (c : ChanRec) (first bad : Bool) (payload : List Byte) : State :=
  let key := 64 * c.dst + c.channel
  if first then
    s.onPort p fun y => { y with planned := { y.planned with first := NMap.set y.planned.first key (payload, bad) } }
  else
    let (head, badHead) := NMap.get (s.port p).planned.first key ([], true)
    let s := s.onPort p fun y => { y with planned := { y.planned with first := NMap.erase y.planned.first key } }
    let poison := bad || badHead
    let place : Packet :=
      { tag := 0, channel := c.channel, half := false, pair := false, dest := c.dst, src := c.src, kind := 0, poison := true,
        egress := 0, order := c.order, payload := 0 }
    let built : Packet :=
      { tag := ((s.die p.die).tile c.dst).tagAfter c.channel (aheadOf (s.underway p.die) place), channel := c.channel, half := false, pair := false, dest := c.dst,
        src := c.src, kind := 0, poison := true, egress := 0, order := c.order, payload := Config.substitute s.free }
    let k : Packet := if badHead then built
      else
        let k := packetOf (fieldAt head 0 8) (slice head 8 50 ++ slice payload 0 14)
        if bad then { k with poison := true, payload := Config.substitute s.free } else k
    let s := if poison then s.spend else s
    s.ingressAdd p { k with egress := 0 }

/-- PLANNED_FLIT_RECEIVE: a flit is delivered at its slot start plus the pinned latency, or poison in its place: cause 0x04 with
the link down or its pinning lost, 0x01 for a failed check, a class that is not planned, poison sent by the transmitter among them, or
a field that is not the slot set's; the last two count in KLC_CNT_POS (R104, R129, R152, R153, Table 11.4). In a drain wave a position
without a marker is idle; a position of a set not in force carries idle (R150, R167, R233). -/
def execPlannedFlitReceive (p : PortId) (bundle : Nat) (slot : Fin 256) (rx : Rx) (t : Nat) (s : State) : Out :=
  let s := s.clock t
  let y := s.port p
  let k := slot.val
  let at_ := s.tallyOf p.die - y.link.pinned
  if !s.dieUp p.die ∨ bundlesOf p ≤ bundle then .next s
  else
    match s.slotFieldAt p k at_ with
    | none =>
      if !s.slotHeld p k ∨ y.link.st ≠ .up then .next s
      else
        let c := checkFlit (profileOf p) y.link.kl2 rx
        let s := s.countFlit p bundle c
        if misplaced c k rx then .next (s.portDown p eLinkAlign)
        else
          let s := s.watchLanes p bundle c.ok rx.quiet
          if !c.ok then .next s
          else
            let s := s.takeRepair p c.repair
            .next (if c.cls = 7 then (if c.idle then s.takeAck p c.ack else s) else s.bump p 3 1)
    | some f =>
      let x := s.field f
      let chan := (x.setAt at_).bind fun n => x.positionChan p n bundle k 2
      let place := fun (s : State) (cause : Nat) =>
        let s := (s.bump p 2 1).onCnt p.die fun c => { c with poison := sat32 c.poison }
        match chan with
        | some (c, first) =>
          (s.deliverPlanned p bundle k (!first) (fnum f) 7 (poisonPayload cause)).pairFlit p c first true (poisonPayload cause)
        | none => s.deliverPlanned p bundle k false (fnum f) 7 (poisonPayload cause)
      if y.link.st ≠ .up then .next (place s 4)
      else
        let c := checkFlit (profileOf p) y.link.kl2 rx
        let s := s.countFlit p bundle c
        if misplaced c k rx then .next ((place s 4).portDown p eLinkAlign)
        else
          let s := s.watchLanes p bundle c.ok rx.quiet
          let s := if c.ok then s.takeRepair p c.repair else s
          if s.pinLost p then .next (place s 4)
          else if !c.ok then .next (place s 1)
          else
            match chan with
            | none =>
              if c.cls = 7 ∧ c.idle then .next ((s.takeAck p c.ack).deliverPlanned p bundle k false 0 7 c.payload)
              else .next (place (s.bump p 3 1) 1)
            | some (ch, first) =>
              if c.cls = 7 ∧ c.idle ∧ x.waving then .next ((s.takeAck p c.ack).deliverPlanned p bundle k false 0 7 c.payload)
              else if c.cls ≠ 0 ∨ c.field ≠ fnum f then .next (place (s.bump p 3 1) 1)
              else .next ((s.deliverPlanned p bundle k (!first) (fnum f) 0 c.payload).pairFlit p ch first false c.payload)

/-! ### Trace (R416-R418) -/

/-- Records the first flit of a side message in the port's trace recorder: at most one record per 32 ticks and direction, 4,096
held; a tray owner's trace sets TRACED for the user field it records (R416-R418). -/
def State.traceFlit (s : State) (p : PortId) (dir cls : Nat) (retx : Bool) (seq : Half) (h : Hdr) : State :=
  let y := s.port p
  let tr := y.trace
  let wanted : Bool := match tr.only with | some f => h.field = f | none => true
  if !tr.running ∨ !wanted then s
  else
    let now := s.tallyOf p.die
    let last := if dir = 0 then tr.lastTx else tr.lastRx
    let soon : Bool := match last with | some n => decide (now < n + 32) | none => false
    if soon ∨ 4096 ≤ tr.records.length then
      s.setPort p { y with trace := { tr with lost := satAdd 0xFFFFFFFF tr.lost 1 } }
    else
      let r : TraceRec := { tally := now, dir := dir, cls := cls, retx := retx, seq := seq, header := h.bytes }
      let s := s.setPort p { y with trace :=
        { tr with records := tr.records ++ [r], lastTx := if dir = 0 then some now else tr.lastTx,
                  lastRx := if dir = 0 then tr.lastRx else some now } }
      match tr.only, fieldOfNum h.field with
      | none, some f => s.onField f fun x => { x with traced := true }
      | _, _ => s

/-! ### Sending side flow (R154-R161, R171) -/

/-- Puts a side flit on the wire. -/
def State.sendSide (s : State) (p : PortId) (bundle slot cls : Nat) (part last : Bool) (field : Nat) (payload : List Byte) :
    State :=
  let y := s.port p
  let h := flitHeader cls part last (s.repairField p) slot field
  let bs := wireFlit (profileOf p) y.link.kl2 h payload
  (s.setPort p { y with side := { y.side with sent := some ⟨bundle, slot, bs⟩, ackOwed := if cls = 6 then y.side.ackOwed else false } }).stream
    p bundle slot bs

/-- A sequenced flit on the wire: SEQ, ACK, message bytes (R155). -/
def State.sendSeq (s : State) (p : PortId) (bundle slot : Nat) (z : SeqFlit) (retx : Bool) : State :=
  let ack := (s.port p).side.ack
  let s := s.sendSide p bundle slot z.flit.cls z.flit.part z.flit.last z.flit.field
    (le 2 z.seq.toNat ++ le 2 ack.toNat ++ z.flit.bytes)
  match z.flit.part, z.flit.msg with
  | true, some h => s.traceFlit p 0 z.flit.cls retx z.seq h
  | _, _ => s

/-- The next held flit of a class in rotation over the fields, one flit per turn (R154). -/
def Port.nextHeld (y : Port) (cls : Nat) : Option Flit :=
  let last := NMap.get y.side.lastField cls 8
  ((List.range 9).map fun i => (last + 1 + i) % 9).findSome? fun f => y.side.hold.find? fun z => z.cls = cls && z.field = f

/-- Sequences a held flit: the next number, kept until an ACK covers it; the timer starts where nothing was unacknowledged
(R156, R158). -/
def State.sequence (s : State) (p : PortId) (bundle slot : Nat) (z : Flit) : State :=
  let y := s.port p
  let q : SeqFlit := { seq := y.side.next, flit := z }
  let s := s.setPort p { y with side :=
    { y.side with next := y.side.next + 1, hold := y.side.hold.erase z, unacked := y.side.unacked ++ [q],
                  lastField := NMap.set y.side.lastField z.cls z.field,
                  timerFrom := if y.side.unacked.isEmpty then s.now else y.side.timerFrom } }
  s.sendSeq p bundle slot q false

/-- One retransmission from where the replay stands; a flit due for its 33rd takes the port down with E_LINK_REPLAY (R158,
R169, Table 6.8). -/
def State.retransmit (s : State) (p : PortId) (bundle slot : Nat) (seq : Half) : State :=
  let y := s.port p
  match y.side.unacked.findIdx? fun z => z.seq = seq with
  | none => s.endReplay p
  | some i =>
    match y.side.unacked[i]? with
    | none => s
    | some z =>
      if 33 ≤ z.sends then s.portDown p eLinkReplay
      else
        let rest := y.side.unacked[i + 1]?
        let s := s.setPort p { y with side :=
          { y.side with unacked := y.side.unacked.set i { z with sends := z.sends + 1 }, replayAt := rest.map fun z => z.seq } }
        let s := (s.bump p 5 1).sendSeq p bundle slot z true
        if rest.isNone then s.endReplay p else s

/-- The new sequenced flit a port may send besides alarms: only while it may sequence, in class order interrupt, coherence,
memory, debug (R154, R160, R171). -/
def Port.nextNew (y : Port) : Option Flit :=
  if y.flowing ∧ y.side.unacked.length < 32768 then [3, 2, 1, 4].findSome? y.nextHeld else none

/-- The alarm flit a port may send: first claim on every side-eligible position, in quarantine and on a port disabled by force
too (R154, R171, R246). -/
def Port.nextAlarm (y : Port) : Option Flit := if y.side.unacked.length < 32768 then y.nextHeld 5 else none

/-- Whether side flits may go: the peer's REPLAY_SYNC has come and this end's own has left (R164). -/
def Port.sideOpen (y : Port) : Bool := y.side.synced && y.side.lc.all fun m => m.type ≠ 0x03

/-- A link-control flit that Dry counts as neither idle, mark nor its own (R134). -/
def LcMsg.busy (m : LcMsg) : Bool := m.type ≠ 0x01 && !(0x04 ≤ m.type && m.type ≤ 0x07)

/-- SIDE_POSITION_SEND: the first that applies of an alarm flit, a link-control flit, a retransmission, a new sequenced flit, an
idle flit; before REPLAY_SYNC has gone both ways only link control and idle (R154-R158, R164, R171). A tally mark carries the tally
at its slot (R81). What is neither idle, a mark nor a Dry flit restarts DRY_IDLE (R134). -/
def execSidePositionSend (p : PortId) (bundle : Nat) (slot : Fin 256) (t : Nat) (s : State) : Out :=
  let s := s.clock t
  let y := s.port p
  let k := slot.val
  if y.link.st ≠ .up ∨ bundlesOf p ≤ bundle ∨ s.slotHeld p k ∨ !s.dieUp p.die then .next s
  else
    match (if y.sideOpen then y.nextAlarm else none), y.side.lc with
    | some z, _ => .next ((s.dryBusy p).sequence p bundle k z)
    | none, m :: rest =>
      let body := if m.type = 0x01 then le 8 (s.tallyOf p.die) ++ m.body.drop 8 else m.body
      let s := if m.busy then s.dryBusy p else s
      let y := s.port p
      .next ((s.setPort p { y with side := { y.side with lc := rest } }).sendSide p bundle k 6 false false 0
        (le 1 m.type ++ le 1 0 ++ slice body 0 24))
    | none, [] =>
      match (if y.sideOpen then y.side.replayAt else none) with
      | some q => .next ((s.dryBusy p).retransmit p bundle k q)
      | none =>
        match (if y.sideOpen then y.nextNew else none) with
        | some z => .next ((s.dryBusy p).sequence p bundle k z)
        | none => .next (s.sendSide p bundle k 7 false false 0 (idlePayload y.side.ack))

/-! ### Receiving side flow (R154-R158) -/

/-- Starts a replay from a sequence number, unless one that began at the same point already runs (R158, R169, R172). -/
def State.startReplay (s : State) (p : PortId) (seq : Half) : State :=
  let y := s.port p
  if y.side.unacked.all (fun z => z.seq ≠ seq) ∨ (y.side.replaying ∧ y.side.replayFrom = some seq) then s
  else
    let s := s.settleAllTimers
    let s := s.onPort p fun y => { y with side := { y.side with replaying := true, replayAt := some seq, replayFrom := some seq },
                                          err := { y.err.bump 4 1 with winReplay := y.err.winReplay + 1 } }
    s.linkEvent.routeHoldAll p

/-- Sends a NAK naming EXPECTED, at most one for each value per acknowledgement-timer period (R156). -/
def ackTimer (profile : Nat) : Nat := if profile = 2 then 8 * us else 2 * us

/-- A NAK is due (R156). -/
def State.sendNak (s : State) (p : PortId) : State :=
  let y := s.port p
  let e := y.side.expected
  let again : Bool := match y.side.lastNak with
    | some (v, n) => v = e && decide (s.now < n + ackTimer (profileOf p))
    | none => false
  if again then s
  else
    let s := (s.setPort p { y with side := { y.side with lastNak := some (e, s.now) } }).bump p 6 1
    s.sendLc p { type := 0x02, body := le 2 e.toNat }

/-- The message a received side flit belongs to: its own header on the first flit, else that of its field and class under
reassembly (R175). -/
def Port.flitMsg (y : Port) (c : Checked) (bytes : List Byte) : Option Hdr :=
  if c.part then hdrOf bytes
  else match (y.side.rx.filter fun z => z.field = c.field && z.cls = c.cls).getLast? with
    | some z => if z.last then none else z.msg
    | none => none

/-- Delivers a side flit in order (R156). -/
def State.deliverSide (s : State) (p : PortId) (c : Checked) (seq : Half) (bytes : List Byte) : State :=
  let y := s.port p
  let h := y.flitMsg c bytes
  let z : Flit := { cls := c.cls, part := c.part, last := c.last, field := c.field, bytes := bytes, msg := h }
  let s := s.setPort p { y with side := { y.side with expected := y.side.expected + 1, ackOwed := true, rx := y.side.rx ++ [z] } }
  match c.part, h with
  | true, some h => s.traceFlit p 1 c.cls false seq h
  | _, _ => s

/-- Whether a received link-control flit is neither a mark nor one of Dry (R134). -/
def lcBusy (c : Checked) : Bool := ({ type := fieldAt c.payload 0 1 } : LcMsg).busy

/-- SIDE_FLIT_RECEIVE: a failed check causes a NAK; a passing flit its ACK and, by its class, in-order delivery, a NAK or a
discard; a planned flit, out of its positions, is discarded and counted; poison, which any position may carry, has no effect (R129,
R134, R135, R147, R152, R156, R158). What a link-control flit asks is its own command's. -/
def execSideFlitReceive (p : PortId) (bundle : Nat) (slot : Fin 256) (rx : Rx) (t : Nat) (s : State) : Out :=
  let s := s.clock t
  let y := s.port p
  if y.link.st ≠ .up ∨ bundlesOf p ≤ bundle ∨ !s.dieUp p.die then .next s
  else
    let c := checkFlit (profileOf p) y.link.kl2 rx
    let s := s.countFlit p bundle c
    if misplaced c slot.val rx then .next (s.portDown p eLinkAlign)
    else
      let s := s.watchLanes p bundle c.ok rx.quiet
      if !c.ok then .next (s.sendNak p)
      else
        let s := s.takeRepair p c.repair
        let s := if c.cls = 6 ∨ c.cls = 7 then s else (s.dryBusy p).dryResumed p
        if c.cls = 6 then .next (if lcBusy c then s.dryBusy p else s)
        else if c.cls = 7 then
          (if fieldAt c.payload 0 1 = 0 then .next (s.takeAck p (BitVec.ofNat 16 (fieldAt c.payload 2 2)))
           else .next s)
        else if c.cls = 0 then .next (s.bump p 3 1)
        else
          let s := s.takeAck p (BitVec.ofNat 16 (fieldAt c.payload 2 2))
          let seq := BitVec.ofNat 16 (fieldAt c.payload 0 2)
          let d := (seq - (s.port p).side.expected).toNat
          if d = 0 then .next (s.deliverSide p c seq (c.payload.drop 4))
          else if d < 32768 then .next (s.sendNak p)
          else .next s

/-! ### Link control (R156, R158, R161, R164, R165, R205) -/

/-- NAK: retransmission from the oldest unacknowledged flit, or from the flit the NAK names if that is later (R158). -/
def execNak (p : PortId) (expected : Half) (t : Nat) (s : State) : Out :=
  let s := s.clock t
  if (s.port p).link.st ≠ .up then .next s
  else
    match (s.port p).side.unacked with
    | [] => .next s
    | z :: rest =>
      let named := (z :: rest).any fun q => q.seq = expected
      .next (s.startReplay p (if named then expected else z.seq))

/-- ACK_TIMER_EXPIRY: retransmission from the oldest unacknowledged flit; the timer starts again (R158). -/
def execAckTimerExpiry (p : PortId) (t : Nat) (s : State) : Out :=
  let s := s.clock t
  let y := s.port p
  match y.side.unacked with
  | [] => .next s
  | z :: _ =>
    if y.link.st ≠ .up ∨ s.now < y.side.timerFrom + ackTimer (profileOf p) then .next s
    else
      let now := s.now
      let s := s.onPort p fun y => { y with side := { y.side with timerFrom := now } }
      .next (s.startReplay p z.seq)

/-- REPLAY_SYNC: flits up to EXPECTED - 1 are freed, the rest retransmitted, then held flits go in order; a peer that starts at
0 after a warm reset ends the stream instead, and to an end that itself starts at 0 the numbers of the old stream mean nothing
(R164, R165). -/
def execReplaySync (p : PortId) (expected next : Half) (t : Nat) (s : State) : Out :=
  let s := s.clock t
  let y := s.port p
  if y.link.st ≠ .up then .next s
  else
    let restarted : Bool := expected = 0 && next = 0 && (y.side.next ≠ 0 || y.side.expected ≠ 0)
    let fresh : Bool := y.side.next = 0 && y.side.expected = 0 && y.side.unacked.isEmpty
    let s := if restarted then s.endStream p else if fresh then s else s.takeAck p (expected - 1)
    let s := (if (s.port p).side.replaying then s.endReplay p else s).settleAllTimers
    let s := s.onPort p fun y => { y with side := { y.side with synced := true } }
    match (s.port p).side.unacked with
    | z :: _ => .next (s.startReplay p z.seq)
    | [] => .next (if (s.port p).flowing then s.routeClear p else s)

/-- LC_REQUEST_REPEAT: an unanswered request is repeated once per wheel, at most 16 times, then abandoned and counted
(R161). -/
def execLcRequestRepeat (p : PortId) (s : State) : Out :=
  let y := s.port p
  if y.link.st ≠ .up then .next s
  else
    let gone := y.side.lcWaiting.filter fun m => 16 ≤ m.repeats
    let again := (y.side.lcWaiting.filter fun m => m.repeats < 16).map fun m => { m with repeats := m.repeats + 1 }
    let s := s.setPort p { y with side := { y.side with lcWaiting := again, lc := y.side.lc ++ again } }
    let s := if gone.isEmpty then s else s.bump p 8 gone.length
    .next (if gone.any fun m => m.type = 0x04 then s.dryPhase p .none_ false else s)

/-- CFG_RD: the peer reads 1-4 dwords of offsets 0x000-0x0FF; each copy is answered (R204, R205). -/
def execCfgRd (p : PortId) (ofs : Nat) (count : Nat) (s : State) : Out :=
  if (s.port p).link.st ≠ .up ∨ !s.dieUp p.die then .next s
  else
    let ok := ofs % 4 = 0 && 1 ≤ count && count ≤ 4 && ofs + 4 * count ≤ 0x100
    let data := if ok then s.klcRead p ofs (4 * count) else []
    .next (s.sendLc p { type := 0x11, body := le 2 ofs ++ le 1 (if ok then 0 else 1) ++ le 1 count ++ data })

/-- CFG_RSP: the answer to this end's CFG_RD of that offset ends its repeats; the data stands for the rider cores, whose use of
it is their own (R161, R205). -/
def execCfgRsp (p : PortId) (ofs : Nat) (stat : Nat) (data : List Byte) (s : State) : Out :=
  if (s.port p).link.st ≠ .up then .next s
  else
    .next (s.onPort p fun y =>
      { y with side := { y.side with lcWaiting := y.side.lcWaiting.filter fun m => !(m.type = 0x10 && fieldAt m.body 0 2 = ofs),
                                     cfg := some (ofs, stat, data) } })

/-! ### Error windows (R169-R171, R414, R415) -/

/-- Whether a window meets a static WATCH figure (Table 6.8). -/
def Errors.overWatch (x : Errors) (corr : Nat) : Bool :=
  x.figure 0 ≤ x.winFail || x.figure 1 ≤ corr || x.figure 2 ≤ x.winReplay

/-- Whether a window meets a QUARANTINE figure; the corrected-symbol one takes no part at 0xFFFF_FFFF (R170). -/
def Errors.overQuarantine (x : Errors) (corr : Nat) : Bool :=
  x.figure 3 ≤ x.winFail || (x.figure 4 ≠ 0xFFFFFFFF && x.figure 4 ≤ corr) || x.figure 5 ≤ x.winReplay

/-- Whether a window's count exceeds both 16 times its baseline and a floor (R414); baselines are times 1,024. -/
def trendOver (count base floor : Nat) : Bool := 16 * base < 1024 * count && floor < count

/-- The running mean with weight 1/1,024 per window, times 1,024 (R414). -/
def meanStep (base count : Nat) : Nat := base + count - base / 1024

/-- INFO of a LINK_WATCH entry: the window count, and the baseline rounded up for a trend (R415). -/
def watchInfo (count base : Nat) (trend : Bool) : Nat := min 0xFFFFFFFF count + (if trend then 0x100000000 * ceilDiv base 1024 else 0)

/-- Windows of a port after one that ended. -/
def Errors.closeWindow (x : Errors) (up : Bool) (total_ corr : Nat) : Errors :=
  { x with lastFail := x.winFail, lastReplay := x.winReplay, lastCorr := corr, winFail := 0, winReplay := 0, corrBy := [],
           upWindows := if up then x.upWindows + 1 else x.upWindows,
           baseFail := if up then meanStep x.baseFail x.winFail else x.baseFail,
           baseCorr := if up then meanStep x.baseCorr total_ else x.baseCorr }

/-- ERROR_WINDOW_END: the counts of 1,000,000 ticks against Table 6.8 and the trend: the highest level reached; WATCH and
QUARANTINE are left after 100 and 1,000 windows below every WATCH figure (R170, R171, R414, R415). -/
def execErrorWindowEnd (p : PortId) (t : Nat) (s : State) : Out :=
  let s := s.clock t
  let y := s.port p
  let e := y.err
  let up := y.link.st = .up
  let corr := (e.corrBy.map (·.2)).foldl max 0
  let sum := total (e.corrBy.map (·.2))
  let based := decide (1024 ≤ e.upWindows)
  let trendCorr := based && trendOver sum e.baseCorr 256
  let trendFail := based && trendOver e.winFail e.baseFail 4
  let static := e.overWatch corr
  let watch := static || trendCorr || trendFail
  let quarantine := e.overQuarantine corr || (e.level = .watch && 999 ≤ e.watchRun)
  let info :=
    if static then watchInfo (if e.figure 0 ≤ e.winFail then e.winFail else if e.figure 1 ≤ corr then corr else e.winReplay) 0 false
    else if trendFail then watchInfo e.winFail e.baseFail true else watchInfo sum e.baseCorr true
  let n := e.closeWindow up sum corr
  let below := if static then 0 else e.below + 1
  let place : Err := { code := 0xE302, locKind := 2, location := p.port.val, info := info }
  match e.level with
  | .normal =>
    if quarantine then
      let s := s.settleAllTimers
      let s := s.setPort p { y with err := { n with level := .quarantine, below := 0, watchRun := 0, trend := false } }
      .next ((s.linkEvent.routeHoldAll p).report p.die { place with code := 0xE303, info := 0 })
    else if watch then
      .next ((s.setPort p { y with err := { n with level := .watch, below := 0, watchRun := 0, trend := !static } }).report
        p.die place)
    else .next (s.setPort p { y with err := n })
  | .watch =>
    if quarantine then
      let s := s.settleAllTimers
      let s := s.setPort p { y with err := { n with level := .quarantine, below := 0, watchRun := 0, trend := false } }
      .next ((s.linkEvent.routeHoldAll p).report p.die { place with code := 0xE303, info := 0 })
    else if 100 ≤ below then .next (s.setPort p { y with err := { n with level := .normal, below := 0, watchRun := 0, trend := false } })
    else .next (s.setPort p { y with err := { n with below := below, watchRun := e.watchRun + 1 } })
  | .quarantine =>
    if 1000 ≤ below ∧ !quarantine then
      let s := s.settleAllTimers
      let s := (s.setPort p { y with err := { n with level := .normal, below := 0, watchRun := 0 } }).linkEvent
      .next (if (s.port p).flowing then s.routeClear p else s)
    else .next (s.setPort p { y with err := { n with below := if quarantine then 0 else below } })

end Sys2Proof.Machine
end

