-- ==== Sys2Proof/Machine/Links.lean ====
section
/-! DEFINITION. Sys2Proof/Machine/Links.lean: the link commands 0x0501-0x050A (R91, R115, R134, R160, R169, R170, R198, R204,
R245-R247, R281, Table 10.6). -/

namespace Sys2Proof.Machine

/-- LEDGER_READ: the ledger from an entry on (R91). -/
def execLedgerRead (r : MReq) (first count : Nat) (s : State) : Out :=
  .next (s.serve r { opcode := 0x0501, len := 4 } (.ledgerRead r first count) noEarly fun s =>
    if count = 0 ∨ 127 < count then s.reply r 0x0501 eArgRange []
    else
      let part := (s.allPorts.drop first).take count
      s.reply r 0x0501 0 (le 4 s.ledgerEpoch ++ le 2 s.allPorts.length ++ le 2 part.length ++ part.flatMap s.ledgerEntry))

/-- LINK_CFG_READ: bytes of a port's configuration space (R204, Table 10.6). -/
def execLinkCfgRead (r : MReq) (p : PRef) (ofs len : Nat) (s : State) : Out :=
  .next (s.serve r { opcode := 0x0502, len := 8 } (.linkCfgRead r p ofs len) noEarly fun s =>
    match s.portRef p with
    | none => s.reply r 0x0502 eArgRange []
    | some q =>
      if len < 4 ∨ 256 < len ∨ len % 4 ≠ 0 ∨ ofs % 4 ≠ 0 ∨ 0x1000 < ofs + len then s.reply r 0x0502 eArgRange []
      else s.reply r 0x0502 0 (s.klcRead q ofs len))

/-- LINK_RETRAIN: the port trains anew; one in FAILED trains again (R115). -/
def execLinkRetrain (r : MReq) (p : PRef) (s : State) : Out :=
  .next (s.serve r { opcode := 0x0503, len := 4, need := .tray, acts := some 0 } (.linkRetrain r p) noEarly fun s =>
    match s.portRef p with
    | none => s.reply r 0x0503 eArgRange []
    | some q =>
      let l := (s.port q).link
      if s.planned q then s.reply r 0x0503 ePortPlanned []
      else if l.disabled ∨ l.forced then s.reply r 0x0503 ePortDisabled []
      else ((s.portIdle q).startTraining q).reply r 0x0503 0 [])

/-- LINK_DISABLE without force: DOWN with transmitters idle, refused while a loaded plan holds a slot on the link (R245). -/
def execLinkDisable (r : MReq) (p : PRef) (s : State) : Out :=
  .next (s.serve r { opcode := 0x0504, len := 8, need := .tray, acts := some 0 } (.linkDisable r p) noEarly fun s =>
    match s.portRef p with
    | none => s.reply r 0x0504 eArgRange []
    | some q =>
      if s.planned q then s.reply r 0x0504 ePortPlanned []
      else
        ((s.onLink q fun l => { l with disabled := true, forced := false, forcedAt := none, liftedAt := none }).portIdle q).reply r
          0x0504 0 [])

/-- LINK_DISABLE with force: the link stays up, planned positions are poisoned from each field's next boundary, no new side flit
is sequenced but alarms; without a planned slot the port goes to DOWN (R246). -/
def execLinkDisableForce (r : MReq) (p : PRef) (s : State) : Out :=
  .next (s.serve r { opcode := 0x0504, len := 8, expert := true, need := .tray, acts := some 0 } (.linkDisableForce r p)
    noEarly fun s =>
    match s.portRef p with
    | none => s.reply r 0x0504 eArgRange []
    | some q =>
      if s.planned q then
        let s := s.settleAllTimers
        let at_ := s.tallyOf q.die
        let s := s.onLink q fun l =>
          if l.forced then l else { l with forced := true, forcedAt := some at_, liftedAt := none }
        (s.routeHoldAll q).reply r 0x0504 0 []
      else
        ((s.onLink q fun l => { l with disabled := true, forced := false, forcedAt := none, liftedAt := none }).portIdle q).reply r
          0x0504 0 [])

/-- LINK_ENABLE: a disabled port in DOWN trains; one disabled by force that is still up sequences side flits again, and its
planned flits return at each field's next boundary (R247). -/
def execLinkEnable (r : MReq) (p : PRef) (s : State) : Out :=
  .next (s.serve r { opcode := 0x0505, len := 4, need := .tray, acts := some 0 } (.linkEnable r p) noEarly fun s =>
    match s.portRef p with
    | none => s.reply r 0x0505 eArgRange []
    | some q =>
      let l := (s.port q).link
      if l.forced then
        let s := s.settleAllTimers
        let at_ := s.tallyOf q.die
        let s := s.onLink q fun l => { l with forced := false, liftedAt := some at_ }
        (if l.st = .down then s.startTraining q else s.routeClear q).reply r 0x0505 0 []
      else if l.disabled then
        ((s.onLink q fun l => { l with disabled := false }).startTraining q).reply r 0x0505 0 []
      else s.reply r 0x0505 0 [])

/-- LINK_DRY: enables or disables Dry and sets DRY_IDLE; a disable wakes a link in Dry or entering it (R134, R136). -/
def execLinkDry (r : MReq) (p : PRef) (enable : Nat) (idleUs : Nat) (s : State) : Out :=
  .next (s.serve r { opcode := 0x0506, len := 12, need := .tray, acts := some 0 } (.linkDry r p enable idleUs) noEarly fun s =>
    match s.portRef p with
    | none => s.reply r 0x0506 eArgRange []
    | some q =>
      if 1 < enable ∨ idleUs < 10 ∨ 10000 < idleUs then s.reply r 0x0506 eArgRange []
      else
        let s := s.onPort q fun y => { y with dry := { y.dry with enabled := enable = 1, idleUs := idleUs } }
        (if enable = 0 then s.wakePort q else s).reply r 0x0506 0 [])

/-- Least pond of a port (Table 6.1). -/
def pondMin (d : DieId) : Nat := if d.isCompute then 0x400000 else 0x200000

/-- Whether LINK_POND's sizes are in range: the pond within Table 6.1, an existing field's hold region at least 64 KiB, that of a
field that does not exist 0, all within the pond beside the replay region (R160, R281). -/
def State.pondRange (s : State) (q : PortId) (pond : Nat) (holds : List Nat) : Bool :=
  holds.length = 9 && pondMin q.die ≤ pond && pond ≤ pondMax q.die
    && holds.zipIdx.all (fun e =>
        let there := match fieldOfNum e.2 with | some f => (s.field f).live | none => true
        if there then 0x10000 ≤ e.1 else e.1 = 0)
    && (s.port q).pond.replay + total holds ≤ pond

/-- Whether a running launch's plan declares a field's hold region on a port, whose change then waits for the field's next boundary
(R16, Table 2.5). -/
def State.holdInUse (s : State) (q : PortId) (f : Nat) : Bool :=
  match fieldOfNum f with
  | some n =>
    let x := s.field n
    x.live && x.run.isSome && x.plans.any fun p => p.foot.any fun e =>
      e.resource = 0x0005 && e.tray = q.die.tray.val && e.die = q.die.addr && e.location = q.port.val
  | none => false

/-- LINK_POND: the sizes change at once, but for a hold region that a running launch's plan uses, which changes at the next boundary of
its field, and the pond with the last of them; until then the pond has the larger size (R16, R160, R281; log entry 149). -/
def execLinkPond (r : MReq) (p : PRef) (pond : Nat) (holds : List Nat) (s : State) : Out :=
  .next (s.serve r { opcode := 0x0507, len := 44, need := .tray, acts := some 0 } (.linkPond r p pond holds) noEarly fun s =>
    match s.portRef p with
    | none => s.reply r 0x0507 eArgRange []
    | some q =>
      let y := s.port q
      if !s.pondRange q pond holds then s.reply r 0x0507 eArgRange []
      else if y.pondBusy then s.reply r 0x0507 ePondBusy []
      else
        let later := (holds.zipIdx.filter fun e => NMap.get y.pond.holds e.2 0 ≠ e.1 && s.holdInUse q e.2).map fun e => (e.2, e.1)
        let now := holds.zipIdx.map fun e => if later.any fun d => d.1 = e.2 then (NMap.get y.pond.holds e.2 0, e.2) else e
        let m := (now.filter fun e => e.1 ≠ 0).map fun e => (e.2, e.1)
        let pond' : Pond :=
          if later.isEmpty then { y.pond with size := pond, holds := m, dueHolds := [], dueSize := none }
          else { y.pond with size := max y.pond.size pond, holds := m, dueHolds := later, dueSize := some pond }
        (s.setPort q { y with pond := pond' }).reply r 0x0507 0 [])

/-- The largest value LINK_THRESH may set for figure `j`: 16 times its default, any value for the quarantine corrected-symbol
figure (R170). -/
def thrMax (j : Nat) : Nat := if j = 4 then 0xFFFFFFFF else 16 * thrDefault.getD j 0

/-- LINK_THRESH: the six figures of Table 6.8 (R170). -/
def execLinkThresh (r : MReq) (p : PRef) (figs : List Nat) (s : State) : Out :=
  .next (s.serve r { opcode := 0x0508, len := 28, expert := true, need := .tray, acts := some 0 } (.linkThresh r p figs)
    noEarly fun s =>
    match s.portRef p with
    | none => s.reply r 0x0508 eArgRange []
    | some q =>
      if figs.length = 6 ∧ (figs.zipIdx.all fun e => 1 ≤ e.1 && e.1 ≤ thrMax e.2) = true then
        (s.onPort q fun y => { y with err := { y.err with thr := figs.zipIdx.map fun e => (e.2, e.1) } }).reply r 0x0508 0 []
      else s.reply r 0x0508 eArgRange [])

/-- LINK_CNT_CLEAR: clears the counters of R169 the mask names; bits 10 to 15 name none (R169). -/
def execLinkCntClear (r : MReq) (p : PRef) (mask : Half) (s : State) : Out :=
  .next (s.serve r { opcode := 0x0509, len := 8, need := .tray, acts := some 0 } (.linkCntClear r p mask) noEarly fun s =>
    match s.portRef p with
    | none => s.reply r 0x0509 eArgRange []
    | some q =>
      (s.onPort q fun y =>
        { y with err := { y.err with cnt := y.err.cnt.filter fun e => !mask.getLsbD e.1 } }).reply r 0x0509 0 [])

/-- SF_TIMER: the running time of the completion timer, 1 to 1,000 ms (R198). -/
def execSfTimer (r : MReq) (ms_ : Nat) (s : State) : Out :=
  .next (s.serve r { opcode := 0x050A, len := 4, need := .tray, acts := some 0 } (.sfTimer r ms_) noEarly fun s =>
    if ms_ < 1 ∨ 1000 < ms_ then s.reply r 0x050A eArgRange []
    else (s.settleAllTimers.setSfTimer ms_).reply r 0x050A 0 [])

end Sys2Proof.Machine
end

