-- ==== Sys2Proof/Machine/HostView.lean ====
section
/-! DEFINITION. Sys2Proof/Machine/HostView.lean: what a host port reads: its configuration space (R248, R249), BAR0 down to the byte
(R250, R252, R256, R423, Tables 10.4, 18.2-18.7) and the launch rings of BAR2 (R251, R427). The table has no row for these reads but
those that change state (DBI_MBX_LOCK_READ, IDS_TALLY_LO_READ, IDS_TALLY_HI_READ, HOST_BAR4_READ): the others are views of the state
(log entry 151). -/

namespace Sys2Proof.Machine

/-! ### Configuration space (R248, R249, Table 10.2) -/

/-- Speeds a host port trains at, in 0.1 GT/s, and its widths (R248). -/
def hostSpeeds : List Nat := [320, 160, 80, 50, 25]
def hostWidths : List Nat := [16, 8, 4, 1]

/-- What Table 10.2 speaks of. -/
inductive PcieCap where
  | pciExpress
  | powerManagement
  | msix
  | advancedErrorReporting
  | accessControlServices
  | deviceSerialNumber
  | physical16
  | physical32
  | laneMargining
  | functionLevelReset
  | sriov
  | ats
  | pasid
  | pri
  | resizableBar
  | msi
deriving DecidableEq, Repr

/-- Whether a host port has a capability (R249, Table 10.2). -/
def PcieCap.present : PcieCap → Bool
  | .pciExpress | .powerManagement | .msix | .advancedErrorReporting | .accessControlServices => true
  | .deviceSerialNumber | .physical16 | .physical32 | .laneMargining | .functionLevelReset => true
  | .sriov | .ats | .pasid | .pri | .resizableBar | .msi => false

/-- The device ID and class code of a host port (R248). -/
def hostDeviceId : Nat := 0x7414
def hostClassCode : Nat := 0x120000

/-- The type bits of a base address register: 64-bit, BAR4 prefetchable (Table 10.3). -/
def barType (i : Nat) : Nat := if i = 0 ∨ i = 2 then 4 else if i = 4 then 12 else 0

/-- Sizes of BAR0, BAR2 and BAR4 (Table 10.3). -/
def barSize (i : Nat) : Nat := if i = 0 then 0x40000 else if i = 2 then 0x10000 else if i = 4 then 0x10000000000 else 0

/-- A word of a host port's configuration header as far as the spec gives it: vendor and device ID, class code, base address registers
(R248, R250; log entry 151). -/
def State.cfgWord (s : State) (n : Fin 4) (o : Nat) : Option Nat :=
  if o = 0 then some (Config.vendorId.toNat + 65536 * hostDeviceId)
  else if o = 8 then some (256 * hostClassCode)
  else if 0x10 ≤ o ∧ o < 0x28 ∧ o % 4 = 0 then
    let i := (o - 0x10) / 4
    some ((NMap.get (s.host n).cfg.bars i 0).toNat + barType i)
  else none

/-- The Device Serial Number capability: the tray serial (Table 10.2). -/
def State.deviceSerial (s : State) : Dword := s.serial

/-- Device Control of a host port: the codes of its max payload and max read request size (R248; log entry 151). -/
def PcieCfg.devCtl (c : PcieCfg) : Nat := 32 * Nat.log2 (c.mps / 128) + 4096 * Nat.log2 (c.mrrs / 128)

/-- Power state of a host port as Power Management shows it: 0 D0, 3 D3hot (Table 10.2). -/
def HostPort.powerState (h : HostPort) : Nat := if h.d3 then 3 else 0

/-! ### BAR0 (Tables 10.4, 18.2) -/

/-- The IDS block (Table 18.3). -/
def State.idsBytes (s : State) (n : Fin 4) : List Byte :=
  let x := s.die ⟨s.span.num, n, 0⟩
  le 2 Config.vendorId.toNat ++ le 2 hostDeviceId ++ le 2 x.ident.part ++ le 1 x.ident.stepping ++ le 1 0
    ++ le 8 x.ident.uid.toNat ++ le 8 s.serial.toNat ++ le 4 (s.idsPos n) ++ le 4 0 ++ s.bootStat n
    ++ le 8 (s.tallyOf ⟨s.span.num, n, 0⟩) ++ le 4 (s.idsTallySt n) ++ le 4 0 ++ le 8 s.bundle.toNat ++ le 4 s.idsMbxVer

/-- The code of a channel's state (Table 18.4). -/
def ChanSt.code : ChanSt → Nat
  | .idle => 0
  | .busy => 1
  | .done => 2

/-- The 16 bytes of DBI registers of a channel; the doorbell reads 0. A channel that is not live reads 0 (R252, Table 18.4). -/
def State.chanBytes (s : State) (n : Fin 4) (rid : Half) (k : Fin 9) : List Byte :=
  if s.chanLive n k then le 4 ((s.chan n k).lockReg rid) ++ le 4 0 ++ le 4 (s.chan n k).st.code ++ le 4 0 else le 16 0

/-- DBI_LAUNCH_PROD and DBI_LAUNCH_CONS of a field; 0 while it does not exist (R426). -/
def State.launchBytes (s : State) (f : Fin 8) : List Byte :=
  if (s.field f).live then le 4 (s.field f).prod.toNat ++ le 4 (s.field f).cons.toNat else le 8 0

/-- A byte of the DBI block, at an offset within it (Tables 10.5, 18.4). -/
def State.dbiByte (s : State) (n : Fin 4) (rid : Half) (o : Nat) : Byte :=
  if h : o < 0x90 then (s.chanBytes n rid ⟨o / 16, by omega⟩).getD (o % 16) 0
  else if !s.isReady then 0
  else if 0x100 ≤ o ∧ o < 0x140 then (s.launchBytes (Fin.ofNat 8 ((o - 0x100) / 8))).getD (o % 8) 0
  else if 0x200 ≤ o ∧ o < 0x20C then (le 8 (s.host n).cause.toNat ++ le 4 (s.host n).launchErr.toNat).getD (o - 0x200) 0
  else 0

/-- A byte of the OWN block; OWN_BEAT reads 0 (Table 18.5). -/
def State.ownByte (s : State) (o : Nat) : Byte :=
  if h : o < 72 then (le 8 (s.scope ⟨o / 8, by omega⟩).reg).getD (o % 8) 0 else 0

/-- A byte of the MSI-X table and PBA (Tables 10.2, 18.2). -/
def HostPort.msixByte (h : HostPort) (o : Nat) : Byte :=
  if o < 0x400 then
    let v := o / 16
    (le 4 (if o % 16 < 12 then (NMap.get h.msix (4 * v + o % 16 / 4) 0).toNat else if h.msixMask.getLsbD v then 1 else 0)).getD (o % 4) 0
  else if 0x800 ≤ o ∧ o < 0x808 then (le 8 h.pba.toNat).getD (o - 0x800) 0
  else 0

/-- A byte of the mailbox buffers: 0 to anyone but the channel's holder (R256). -/
def State.bufferByte (s : State) (n : Fin 4) (rid : Half) (o : Nat) : Byte :=
  if h : o < 0x12000 then
    let k : Fin 9 := ⟨o / 0x2000, by omega⟩
    let c := s.chan n k
    if s.chanLive n k ∧ c.held ∧ c.holder = rid then
      Memory.get (if o % 0x2000 < 0x1000 then c.req else c.resp) (o % 0x1000)
    else 0
  else 0

/-- A byte of the LVE block (Tables 18.6, 18.7). -/
def State.lveByte (s : State) (o : Nat) : Byte :=
  if 0x40 ≤ o ∧ o < 0x240 then (s.lveField (Fin.ofNat 8 ((o - 0x40) / 64))).getD (o % 64) 0
  else if 0x1000 ≤ o ∧ o < 0x1200 then
    match s.dieRef ((o - 0x1000) / 128) (0x10 + (o - 0x1000) % 128 / 4) with
    | some d => (le 4 (s.lveDie d)).getD (o % 4) 0
    | none => 0
  else 0

/-- A byte of the TRB block (Tables 16.5-16.7, 18.7). -/
def Trouble.byte (t : Trouble) (o : Nat) : Byte :=
  if o < 8 then (le 8 t.summary.toNat).getD o 0
  else if 0x10 ≤ o ∧ o < 0x14 then (le 4 t.cntRefused).getD (o - 0x10) 0
  else if 0x20 ≤ o ∧ o < 0x44 then (le 4 (NMap.get t.undeliv ((o - 0x20) / 4) 0)).getD (o % 4) 0
  else if 0x100 ≤ o ∧ o < 0x104 then (le 4 t.head).getD (o - 0x100) 0
  else if 0x1000 ≤ o ∧ o < 0x1800 then
    (match t.records[(o - 0x1000) / 32]? with | some r => r.bytes.getD (o % 32) 0 | none => 0)
  else 0

/-- A byte of BAR0 as a requester reads it; until the tray is ready only the IDS block and channel M are live, and an offset no table
assigns reads 0 (R250, R252, R423). -/
def State.bar0Byte (s : State) (n : Fin 4) (rid : Half) (a : Nat) : Byte :=
  if a < 0x1000 then (s.idsBytes n).getD a 0
  else if a < 0x2000 then s.dbiByte n rid (a - 0x1000)
  else if 0x4000 ≤ a ∧ a < 0x16000 then s.bufferByte n rid (a - 0x4000)
  else if !s.isReady then 0
  else if a < 0x3000 then s.ownByte (a - 0x2000)
  else if a < 0x4000 then (s.host n).msixByte (a - 0x3000)
  else if 0x20000 ≤ a ∧ a < 0x30000 then s.lveByte (a - 0x20000)
  else if 0x30000 ≤ a ∧ a < 0x40000 then s.trouble.byte (a - 0x30000)
  else 0

/-- A read of BAR0: Unsupported Request where the port is not there or in D3hot; a narrow or unaligned one returns the bytes it
addresses (R249, R423). -/
def State.bar0Read (s : State) (n : Fin 4) (rid : Half) (a len : Nat) : Completion :=
  if !s.portLive n ∨ (s.host n).d3 ∨ barSize 0 < a + len then { ur := true }
  else { data := (List.range len).map fun i => s.bar0Byte n rid (a + i) }

/-! ### BAR2 (R250-R252, R426, R427) -/

/-- A byte of BAR2: field f's launch ring at 0x1000 f; the reserved offsets and the ring of a field that does not exist read 0
(R250, R426). -/
def State.bar2Byte (s : State) (a : Nat) : Byte :=
  if 0x1000 ≤ a ∧ a < 0x9000 then
    let x := s.field (Fin.ofNat 8 (a / 0x1000 - 1))
    if x.live then Memory.get x.ring (a % 0x1000) else 0
  else 0

/-- A read of BAR2, which anyone may make: Unsupported Request before ready and in D3hot (R249, R251, R252). -/
def State.bar2Read (s : State) (n : Fin 4) (a len : Nat) : Completion :=
  if !s.barsLive n ∨ barSize 2 < a + len then { ur := true }
  else { data := (List.range len).map fun i => s.bar2Byte (a + i) }

end Sys2Proof.Machine
end

