-- ==== Sys2Proof/Machine/Pattern.lean ====
section
/-! DEFINITION. Sys2Proof/Machine/Pattern.lean: the test patterns of a port's lanes and the checker of a lane (R219, R221, Tables
8.8, 18.10). -/

namespace Sys2Proof.Machine

/-! ### Patterns (Table 8.8) -/

/-- Degree and lower tap of the PRBS of a pattern (Table 8.8). -/
def prbsTaps (pattern : Nat) : Nat × Nat :=
  if pattern = 0 then (7, 6) else if pattern = 1 then (15, 14) else if pattern = 2 then (23, 18) else (31, 28)

/-- The next bit of a PRBS register: the stages of its two terms (log entry 140). -/
def prbsBit (t : Nat × Nat) (r : Nat) : Bool := r.testBit (t.1 - 1) != r.testBit (t.2 - 1)

/-- The register `n` bits later. -/
def prbsAfter (t : Nat × Nat) : Nat → Nat → Nat
  | 0, r => r
  | n + 1, r => prbsAfter t n ((r * 2 + (if prbsBit t r then 1 else 0)) % 2 ^ t.1)

/-- Bit `i` of a lane's PRBS: from the all-ones state, advanced by 1,024 bits a lane (R221). -/
def prbsAt (pattern lane i : Nat) : Bool :=
  let t := prbsTaps pattern
  prbsBit t (prbsAfter t (1024 * lane + i) (2 ^ t.1 - 1))

/-- The test flit of a slot: CLASS 7, payload byte 0 0x02, then a byte count from byte 1 (Table 8.8; log entry 145). -/
def testFlit (profile : Nat) (kl2 : Bool) (slot : Nat) : List Byte :=
  wireFlit profile kl2 (flitHeader 7 false false (repairBits none) slot 0)
    (0x02 :: (List.range (payloadLen kl2 - 1)).map fun i => BitVec.ofNat 8 (i + 1))

/-- The bits pattern 7 puts on a lane of a Culvert bundle over a stripe frame (R144). -/
def frameLane (lane : Nat) : List Bool :=
  (List.range 896).flatMap fun n =>
    codewordLane n (codeword n ((List.range 10).map fun j => testFlit 2 true ((10 * n + j) % 256))) lane

/-- Bit `i` that pattern 7 puts on a lane: the flits of the slots in order; on a lane beyond the data lanes the idle pattern of a
standby lane (log entry 145). -/
def flitBit (profile : Nat) (kl2 : Bool) (lane i : Nat) : Bool :=
  if profile = 2 then
    (if lane < 7 then (frameLane lane).getD (i % (frameLane lane).length) false else Config.standbyBit i)
  else if lane < 16 then (flitLane (testFlit profile kl2 (i / flitUi kl2 % 256)) lane).getD (i % flitUi kl2) false
  else Config.standbyBit i

/-- Bit `i` of a pattern on physical lane `lane` of a bundle (Table 8.8, R221). Words are sent from the left of how the table writes
them, the user word from bit 0 (log entry 145). -/
def patternBit (profile : Nat) (kl2 : Bool) (pattern : Nat) (invert : Bool) (user : Word) (lane i : Nat) : Bool :=
  let b :=
    if pattern < 4 then prbsAt pattern lane i
    else if pattern = 4 then i % 2 = 1
    else if pattern = 5 then i % 16 < 8
    else if pattern = 6 then user.getLsbD (i % 32)
    else flitBit profile kl2 lane i
  b != invert

/-- The levels a lane of a Culvert adapter carries for a pattern, as R144 maps bits (R221). -/
def patternLevels (pattern : Nat) (invert : Bool) (user : Word) (lane n : Nat) : List Nat :=
  levels ((List.range (2 * n)).map fun i => patternBit 2 true pattern invert user lane i)

/-! ### Rates (Table 5.2) -/

/-- Bits a lane carries per tick, as a fraction. -/
def laneRate (profile : Nat) (kl2 : Bool) : Nat × Nat :=
  if profile = 0 then (if kl2 then (40, 1) else (20, 1)) else if profile = 1 then (32, 1) else (425, 4)

/-- Unit intervals a lane has per tick, as a fraction: two bits each on Culvert. -/
def uiRate (profile : Nat) (kl2 : Bool) : Nat × Nat := if profile = 2 then (425, 8) else laneRate profile kl2

/-! ### The checker of a lane (R221) -/

/-- The bit with which a lane locks: the last of the first 64 in a row without error, among the first `n`. -/
def lockBit (wrong : Nat → Bool) (n : Nat) : Option Nat :=
  (List.range n).find? fun i => 63 ≤ i && (List.range 64).all fun k => !wrong (i - k)

/-- Bits in error after the lock, among the first `n`. -/
def errorBits (wrong : Nat → Bool) (n : Nat) : Nat :=
  match lockBit wrong n with
  | some a => ((List.range n).filter fun i => a < i && wrong i).length
  | none => 0

end Sys2Proof.Machine
end

