-- ==== Sys2Proof/Machine/Estimate.lean ====
section
/-! DEFINITION. Sys2Proof/Machine/Estimate.lean: the Steward's levels, estimator, shares and limits (R296-R313). -/

namespace Sys2Proof.Machine

/-! ### Exact fractions -/

/-- A fraction in lowest terms. -/
def Frac.mk_ (n : Int) (d : Nat) : Frac := let g := Nat.gcd n.natAbs d; if g = 0 then {} else ⟨n / (g : Int), d / g⟩

/-- A whole number. -/
def Frac.of (n : Int) : Frac := ⟨n, 1⟩
def Frac.add (a b : Frac) : Frac := Frac.mk_ (a.num * b.den + b.num * a.den) (a.den * b.den)
def Frac.sub (a b : Frac) : Frac := Frac.mk_ (a.num * b.den - b.num * a.den) (a.den * b.den)
def Frac.mul (a b : Frac) : Frac := Frac.mk_ (a.num * b.num) (a.den * b.den)
/-- A fraction over a whole number that is not 0. -/
def Frac.over (a : Frac) (n : Nat) : Frac := Frac.mk_ a.num (a.den * n)
def Frac.le (a b : Frac) : Bool := a.num * b.den ≤ b.num * a.den
def Frac.sum (l : List Frac) : Frac := l.foldl Frac.add {}
/-- The whole part. -/
def Frac.floor (a : Frac) : Int := a.num / a.den

/-! ### Levels (R295, R301) -/

/-- Whether a sample is at or above the threshold of a level (Table 12.4); with `margin` 3, whether it is not 3 degrees below
it. An I/O die has no HBM stack. -/
def hotter (x : Telemetry) (compute : Bool) (level margin : Nat) : Bool :=
  let m : Int := margin
  let hot := fun (v th : Int) => if margin = 0 then decide (th ≤ v) else decide (th - m < v)
  let hbm := fun (th : Int) => compute && (hot x.hbm0 th || hot x.hbm1 th)
  if level = 1 then hot x.tj 95
  else if level = 2 then hot x.tj 100 || hbm 95
  else hot x.tj 105 || hbm 105

/-- The level of a die: the highest entered, and at least fallow throttle while its telemetry is lost (R295, R301). -/
def Power.level (p : Power) : Nat := max (if p.lost then 2 else 0) ((p.levels.map (·.1)).foldl max 0)

/-- The levels after a sample: entered at the threshold, renewed by a sample that is not 3 degrees below it (R301). -/
def Power.sampled (p : Power) (x : Telemetry) (compute : Bool) (now : Nat) : NMap Nat :=
  [1, 2, 3].foldl (fun l k =>
    if hotter x compute k 0 || (hotter x compute k 3 && l.any (·.1 = k)) then NMap.set l k now else l) p.levels

/-- A level is left once every sample of 100 ms was at least 3 degrees below its threshold (R301). -/
def Power.leave (p : Power) (now : Nat) : NMap Nat := p.levels.filter fun e => now < e.2 + 100 * ms

/-! ### The estimator (R310-R313) -/

/-- Clock of a rung in MHz (Table 12.3). -/
def rungMhz (r : Nat) : Nat := [1000, 1100, 1200, 1300, 1400, 1500, 1650, 1800].getD r 1800

/-- The rung a die runs at: its field's, or 0 (R375). -/
def State.rungOf (s : State) (d : DieId) : Nat := match s.fieldOf d with | some f => (s.field f).rung | none => 0

/-- V squared times f at a rung, in mV squared times MHz. -/
def State.vvf (s : State) (d : DieId) (r : Nat) : Nat := s.targetMv d r * s.targetMv d r * rungMhz r

/-- The planned and side activity of a sample, by a measure no rule states (R310; log entry 47). -/
def activityOf (x : Telemetry) : Nat := Config.activity x.firings x.packets

/-- Leakage power at a rung: V x I_leak(V, Tj), the current by the function no rule states (R310; log entry 47). -/
def State.leakPower (s : State) (d : DieId) (r : Nat) : Frac :=
  let p := (s.die d).pow
  let v := s.targetMv d r
  (Config.leakCurrent p.ileak v p.lastSample.tj).mul (Frac.of v)

/-- Whether the guard band of 8 % applies (R312, R313). -/
def Power.guarded (p : Power) : Bool := p.guard || p.stale

/-- The estimated draw of a die at a rung and a fallow duty, in mW, for R308: dynamic power in proportion to V squared, f and
the activity outside fallow steps; the guard band where it applies (R308, R310, R312). `inForce` is the duty of the sample. -/
def State.draw (s : State) (d : DieId) (r duty inForce : Nat) : Frac :=
  let p := (s.die d).pow
  let dyn := ((p.cdyn.mul (Frac.of (s.vvf d r * activityOf p.lastSample * (100 - duty)))).over (100 - min 99 inForce))
  let all := ((s.leakPower d r).add dyn).add p.pbase
  if p.guarded then (all.mul (Frac.of 108)).over 100 else all

/-- The estimate of a sample and the correction of C_dyn with a gain of 1/64 by the rail reading (R310). -/
def State.estimate (s : State) (d : DieId) (x : Telemetry) : State :=
  let r := s.rungOf d
  let p := (s.die d).pow
  let work := s.vvf d r * activityOf x
  let est := ((s.leakPower d r).add (p.cdyn.mul (Frac.of work))).add p.pbase
  let meas := (((Frac.of x.railMa).sub p.offset).mul (Frac.of x.railMv)).over 1000
  let cdyn := if work = 0 then p.cdyn else p.cdyn.add ((meas.sub est).over (64 * work))
  s.onDie d fun y => { y with pow := { y.pow with estimate := est, cdyn := cdyn } }

/-- The estimator of a die starts from the factory coefficients in COEF with the guard band (R312). -/
def State.startEstimator (s : State) (d : DieId) : State :=
  let c := (s.die d).ident.coef
  let now := s.now
  s.onDie d fun y =>
    { y with pow := { target := y.pow.target, settled := y.pow.settled, lastTelemetry := now, lastWindow := now,
                      ileak := Config.coefLeak c, cdyn := Config.coefDyn c, pbase := Config.coefBase c } }

/-! ### Caps and shares (R306-R308) -/

/-- The lowest cap of a list, 0 setting none (R306). -/
def lowestCap (l : List Nat) : Option Nat :=
  (l.filter (0 < ·)).foldl (fun b c => match b with | none => some c | some a => some (min a c)) none

/-- The effective cap of a package in mW from the tray and package caps of every source (R306). -/
def packageCap (tray pkg : List Nat) : Option Nat :=
  lowestCap ((lowestCap pkg).toList.map (1000 * ·) ++ (lowestCap tray).toList.map fun t => min 2330000 (250 * (t - 1480)))

/-- The effective cap a package's Steward holds, in mW. -/
def Pkg.cap (k : Pkg) : Option Nat := packageCap (k.trayCaps.map (·.2)) (k.pkgCaps.map (·.2))

/-- Members of a field in a package of this tray. -/
def State.membersIn (s : State) (f : Fin 8) (n : Fin 4) : List DieId :=
  (s.field f).dies.filter fun d => d.tray = s.span.num && d.pkg = n

/-- What a package is held to, in mW: its effective cap, and with none the 2,330 W that Table 1.7 allocates to its dies and stacks
(R18, R306). -/
def Pkg.allowed (k : Pkg) : Nat := min 2330000 (k.cap.getD 2330000)

/-- A field's share in a package, in mW: (P - 330 W) / 4 for each member die there; without a cap the 500 W of Table 1.7 a die (R18,
R307). -/
def State.share (s : State) (f : Fin 8) (n : Fin 4) : Frac :=
  Frac.mk_ ((((s.pkg n).allowed : Int) - 330000) * (s.membersIn f n).length) 4

/-- The key of a package in a field's cap limits. -/
def State.capKey (s : State) (n : Fin 4) : Nat := 4 * s.span.num.val + n.val

/-- A field's cap limit in a package. -/
def State.fieldCap (s : State) (f : Fin 8) (n : Fin 4) : FieldCap := NMap.get (s.field f).caps (s.capKey n) {}

/-- The rung of a cap level, and its fallow duty in percent. -/
def capRung (l : Int) : Nat := l.toNat
def capDuty (l : Int) : Nat := 25 * (-l).toNat

/-- The projected draw of a field in a package at a cap level. -/
def State.projected (s : State) (f : Fin 8) (n : Fin 4) (l : Int) : Frac :=
  Frac.sum ((s.membersIn f n).map fun d => s.draw d (capRung l) (capDuty l) (s.field f).duty)

/-- The highest level whose projected draw fits a share: a rung, else rung 0 with the lowest duty that fits, else 75 % (R308). -/
def State.fitLevel (s : State) (f : Fin 8) (n : Fin 4) (share : Frac) : Int :=
  (([7, 6, 5, 4, 3, 2, 1, 0, -1, -2, -3] : List Int).find? fun l => (s.projected f n l).le share).getD (-3)

/-- Whether the draw one level up is at most 97 % of the share (R308). -/
def State.fitsAbove (s : State) (f : Fin 8) (n : Fin 4) (l : Int) : Bool :=
  (s.projected f n (l + 1)).le (((s.share f n).mul (Frac.of 97)).over 100)

/-- A package's flags in POWER_READ: a die STALE, a field limited by its cap (R309, R313). -/
def State.pkgStale (s : State) (n : Fin 4) : Bool := (computeDies s.span.num n).any fun d => (s.die d).pow.stale
def State.pkgCapped (s : State) (n : Fin 4) : Bool :=
  allFields.any fun f => (s.field f).live && !(s.membersIn f n).isEmpty && (s.fieldCap f n).level < 7

/-- Vector 28 goes to the tray owner where a flag of a package changed (R309, R313). -/
def State.flagsChanged (s : State) (n : Fin 4) (old : State) : State :=
  if s.pkgStale n = old.pkgStale n ∧ s.pkgCapped n = old.pkgCapped n then s else s.notify 0 28

/-- Whether a package's Steward runs (R294). -/
def State.stewardUp (s : State) (n : Fin 4) : Bool := s.runs ⟨s.span.num, n, 0⟩

/-- The Steward compares a field's estimated draw with its share: over it, the cap limit falls to the level that fits; else the
time for which the next level has fitted is kept (R308). `arrival` marks a cap that has just come, whose response is bounded
(R309). -/
def State.judgeField (s : State) (n : Fin 4) (arrival : Bool) (f : Fin 8) : State :=
  let c := s.fieldCap f n
  let now := s.now
  let above : Bool :=
    !(Frac.sum ((s.membersIn f n).map fun d => s.draw d (s.field f).rung (s.field f).duty (s.field f).duty)).le (s.share f n)
  let fit := s.fitLevel f n (s.share f n)
  let c :=
    if above ∧ fit < c.level then
      { c with level := fit, fitSince := none, arrived := if arrival then some now else c.arrived }
    else if c.level < 7 ∧ s.fitsAbove f n c.level = true then { c with fitSince := some (c.fitSince.getD now) }
    else { c with fitSince := none }
  s.onField f fun x => { x with caps := NMap.set x.caps (s.capKey n) c }

/-- The Steward of a package reviews every field with a die there (R308). -/
def State.judge (s : State) (n : Fin 4) (arrival : Bool) : State :=
  if s.stewardUp n then ((s.forEach (s.pkgFields n) fun s f => s.judgeField n arrival f).flagsChanged n s) else s

/-- A Steward receives the caps of a source and reviews its fields (R306, R308). -/
def State.receiveCap (s : State) (n : Fin 4) (source tray pkg : Nat) : State :=
  if s.stewardUp n then
    (s.onPkg n fun k => { k with trayCaps := NMap.set k.trayCaps source tray, pkgCaps := NMap.set k.pkgCaps source pkg }).judge n
      true
  else s

end Sys2Proof.Machine
end

