-- ==== Sys2Proof/Machine/Panel.lean ====
section
/-! DEFINITION. Sys2Proof/Machine/Panel.lean: indicators and Redfish health (R334, R351, R356-R358, R408, Table 14.5). Of two codes
the lower in the table shows; a locate always does (R357). -/

namespace Sys2Proof.Machine

/-- Tray health indicator (Table 14.5, R408). -/
def State.trayLight (s : State) : Light :=
  let sum := s.trouble.summary
  if !s.input.present then .off
  else if s.wm.bootsrc = 2 ∨ s.wm.recovery = true then .alternatingSlow
  else if s.input.fault ∨ s.wm.halted ∨ sum.getLsbD 0 ∨ sum.getLsbD 1 ∨ sum.getLsbD 2 ∨ sum.getLsbD 3 ∨ sum.getLsbD 4
      ∨ sum.getLsbD 5 then .amberSteady
  else if s.tray = .degraded ∨ s.wm.mon.any (fun e => e.2.warned) = true then .amberSlow
  else if s.wm.staging.isSome ∨ s.wm.bankA.st = .pending ∨ s.wm.bankB.st = .pending then .greenFast
  else if s.tray = .ready then .greenSteady
  else .greenSlow

/-- Package indicator (Table 14.5). -/
def State.pkgLight (s : State) (n : Fin 4) : Light :=
  if s.wm.locPkg.any (·.1 = n.val) then .amberFast
  else match (s.pkg n).st with
    | .faulted => .amberSteady
    | .shutDown => .amberSlow
    | .heldOff => .amberSlow
    | .unplaced => .amberSlow
    | .unreachable => .amberFast
    | _ => .off

/-- Cage indicator (Table 14.5). -/
def State.cageLight (s : State) (c : Fin 16) : Light :=
  let y := s.port (cagePort s.span.num c)
  if s.wm.locCage.any (·.1 = c.val) then .alternatingFast
  else if y.link.cable.isNone ∨ y.link.disabled then .off
  else if y.link.st = .failed then .amberSteady
  else if y.err.level ≠ .normal then .amberSlow
  else if y.link.st = .dry then .greenFlash
  else if y.link.st = .up then .greenSteady
  else if y.link.st ≠ .down ∨ y.link.backoffFrom.isSome then .greenSlow
  else .off

/-- The indicators as the running Watermaster drives them. -/
def State.driven (s : State) : Panel :=
  { tray := s.trayLight, locate := if s.wm.locTray.isSome ∨ !s.wm.locPkg.isEmpty then .blueSlow else .off,
    pkgs := allPkgs.map s.pkgLight, cages := (List.finRange 16).map s.cageLight }

/-- The indicators as they show: held in latches during a restart (R334). -/
def State.panel (s : State) : Panel := s.wm.heldPanel.getD s.driven

/-- WM status indicator, which the watchdog path drives during a restart (R338, R340). -/
def State.wmLight (s : State) : Light :=
  if !s.wm.running then .off else if s.wm.restarting.isSome then .amberFast else if s.wm.recovery then .amberSteady else .greenSteady

/-- Redfish Status.Health. -/
inductive Health where
  | ok
  | warning
  | critical
deriving DecidableEq, Repr

/-- Health of the tray chassis (R351, R408). -/
def State.trayHealth (s : State) : Health :=
  let sum := s.trouble.summary
  if sum.getLsbD 0 ∨ sum.getLsbD 1 ∨ s.input.fault ∨ s.wm.halted then .critical
  else if s.tray = .degraded ∨ sum.getLsbD 2 ∨ sum.getLsbD 3 ∨ sum.getLsbD 4 ∨ sum.getLsbD 5 then .warning
  else .ok

/-- Health of a package chassis (R408). -/
def State.pkgHealth (s : State) (n : Fin 4) : Health :=
  let k := (s.pkg n).st
  if s.trouble.summary.getLsbD (2 + n.val) ∨ k = .faulted then .critical
  else if k = .shutDown ∨ k = .unreachable ∨ k = .unplaced then .warning
  else .ok

/-- Health of a cage chassis (R408). -/
def State.cageHealth (s : State) (c : Fin 16) : Health :=
  let y := s.port (cagePort s.span.num c)
  if y.link.cable.isNone then .ok
  else if y.link.st = .failed then .critical
  else if y.err.level ≠ .normal then .warning
  else .ok

end Sys2Proof.Machine
end

