-- ==== Sys2Proof/Machine/Span.lean ====
section
/-! DEFINITION. Sys2Proof/Machine/Span.lean: forming, re-forming and dissolving a span (R19-R23, R91-R93, R98, R385, R386). -/

namespace Sys2Proof

/-- A die under new tray names. -/
def DieId.rename (g : Fin 4 → Fin 4) (d : DieId) : DieId := { d with tray := g d.tray }

/-- A header under new tray names. -/
def Hdr.rename (g : Fin 4 → Fin 4) (h : Hdr) : Hdr := { h with dst := h.dst.rename g, src := h.src.rename g }

/-- A message under new tray names. -/
def Msg.rename (g : Fin 4 → Fin 4) (m : Msg) : Msg := { m with h := m.h.rename g }

namespace Machine

/-! ### The cabling (R19, R21) -/

/-- The tray a side of this tray is joined to along its whole length: every cage to the cage of the same order on the facing side.
Sides N, E, S, W are 0 to 3; `some none` is an open side, none any other cabling (R19, Table 1.5). -/
def State.sideOf (s : State) (side : Fin 4) : Option (Option Dword) :=
  let ports := (List.range 4).map fun i => cagePort s.span.num (Fin.ofNat 16 (4 * side.val + i))
  let heard := ports.map fun p => (s.port p).link.heard
  if heard.all (·.isNone) then some none
  else
    match heard.head?.join with
    | none => none
    | some h0 =>
      let facing := fun (i : Nat) => cagePort h0.id.die.tray (Fin.ofNat 16 (4 * ((side.val + 2) % 4) + i))
      let whole : Bool := heard.zipIdx.all fun e =>
        match e.1 with
        | some h => h.serial = h0.serial && h.id = facing e.2
        | none => false
      if whole then some (some h0.serial) else none

/-- What this tray's server would answer about it. -/
def State.ownInfo (s : State) : Option TrayInfo :=
  match s.sideOf 0, s.sideOf 1, s.sideOf 2, s.sideOf 3 with
  | some n, some e, some w, some x =>
    some { serial := s.serial, bundle := s.bundle, ready := s.isReady,
           planLoaded := allFields.any fun f => (s.field f).loaded, owner := none, placedMask := 0, sides := [n, e, w, x] }
  | _, _, _, _ => none

/-- Trays of a shape row and the columns of their arrangement (Table 1.8). -/
def shapeTrays (shape : Nat) : Nat := if shape = 5 then 4 else shape
def shapeCols (shape : Nat) : Nat := if shape = 5 then 2 else shape

/-- The place of the i-th tray of an arrangement. -/
def placeOf (shape i : Nat) : Nat × Nat := (i % shapeCols shape, i / shapeCols shape)

/-- The index of the tray next to the i-th on a side, with whether the join is a wrap. -/
def placeNext (shape i side : Nat) : Nat × Bool :=
  let c := shapeCols shape
  let n := shapeTrays shape / c
  let (x, y) := placeOf shape i
  if side = 0 then (((y + n - 1) % n) * c + x, y = 0)
  else if side = 1 then (y * c + (x + 1) % c, x + 1 = c)
  else if side = 2 then (((y + 1) % n) * c + x, y + 1 = n)
  else (y * c + (x + c - 1) % c, x = 0)

/-- Whether trays in an order lie as a shape asks: each inner side joined to its neighbour, each outer side open or wrapped
(R19). -/
def fitsShape (shape : Nat) (l : List TrayInfo) : Bool :=
  l.zipIdx.all fun e => (List.range 4).all fun side =>
    let (j, wrap) := placeNext shape e.2 side
    match e.1.sides.getD side none, l[j]? with
    | some ser, some q => ser = q.serial
    | none, _ => wrap
    | some _, none => false

/-- A list with an element put at every place. -/
def insertions {α : Type} (a : α) : List α → List (List α)
  | [] => [[a]]
  | b :: l => (a :: b :: l) :: (insertions a l).map (b :: ·)

/-- Every order of a list. -/
def orders {α : Type} : List α → List (List α)
  | [] => [[]]
  | a :: l => (orders l).flatMap (insertions a)

/-- Whether serials come first in the order of names. -/
def serialsBefore : List Nat → List Nat → Bool
  | a :: l, b :: m => a < b || (a = b && serialsBefore l m)
  | _, _ => false

/-- The order of the trays over the arrangement; where wraps leave it open, the one whose serials come first (log entry 44). -/
def arrange (shape : Nat) (l : List TrayInfo) : Option (List TrayInfo) :=
  ((orders l).filter (fitsShape shape)).foldl (fun best o => match best with
    | none => some o
    | some b => if serialsBefore (o.map (·.serial.toNat)) (b.map (·.serial.toNat)) then some o else best) none

/-- Serials in ascending order (R21). -/
def insertSerial (a : Dword) : List Dword → List Dword
  | [] => [a]
  | b :: l => if a.toNat ≤ b.toNat then a :: b :: l else b :: insertSerial a l
def sortSerials (l : List Dword) : List Dword := l.foldr insertSerial []

/-- The span trays form in an arrangement, as this tray sees it (R21). -/
def spanOf (own : Dword) (shape : Nat) (l : List TrayInfo) : Span :=
  let names := sortSerials (l.map (·.serial))
  { num := Fin.ofNat 4 (names.findIdx (· = own)), shape := shape, members := names,
    pos := names.map fun n => placeOf shape (l.findIdx fun q => q.serial = n) }

/-! ### New tray names (R21) -/

/-- Tray names of one span in another, for a tray that is in both; any other keeps its number. -/
def newName (old new : Span) (n : Fin 4) : Fin 4 :=
  match old.members[n.val]? with
  | some ser => let k := new.members.findIdx (· = ser); if h : k < 4 ∧ k < new.members.length then ⟨k, h.1⟩ else n
  | none => n

/-- Whether a tray of a span is in another. -/
def stays (old new : Span) (n : Fin 4) : Bool :=
  match old.members[n.val]? with | some ser => new.members.contains ser | none => false

/-- An account key under new tray names: the key of the other die, field and channel. -/
def renameKey (g : Fin 4 → Fin 4) (k : Nat) : Nat :=
  let die := k / 45
  (20 * (g (Fin.ofNat 4 (die / 20))).val + die % 20) * 45 + k % 45

/-- An association list under renamed keys. -/
def renameMap {ν : Type} (g : Nat → Nat) (m : NMap ν) : NMap ν := m.foldl (fun acc e => NMap.set acc (g e.1) e.2) []

/-- A side flit under new tray names: its header, and the die bytes of its message's first flit (Table 7.2). -/
def Flit.rename (g : Fin 4 → Fin 4) (z : Flit) : Flit :=
  let byte := fun (b : Byte) => BitVec.ofNat 8 (b.toNat % 64 + 64 * (g (Fin.ofNat 4 (b.toNat / 64))).val)
  { z with bytes := if z.part ∧ z.msg.isSome then (z.bytes.modify 2 byte).modify 3 byte else z.bytes, msg := z.msg.map (·.rename g) }

/-- The side-flow state of a die under new tray names. -/
def SideDie.rename (g : Fin 4 → Fin 4) (x : SideDie) : SideDie :=
  { x with outbox := x.outbox.map (·.rename g), alarms := x.alarms.map (·.rename g),
           sources := renameMap (renameKey g) x.sources, sinks := renameMap (renameKey g) x.sinks,
           reqs := x.reqs.map fun q => { q with dst := q.dst.rename g }, holds := x.holds.map (·.rename g),
           dir := x.dir.map fun e => { e with owner := e.owner.map (·.rename g), waiting := e.waiting.map fun w => (w.1.rename g, w.2) },
           cache := x.cache.map fun c => { c with home := c.home.rename g } }

/-- A die under new tray names. -/
def Die.rename (g : Fin 4 → Fin 4) (x : Die) : Die :=
  let key := fun (k : Nat) => 20 * (g (Fin.ofNat 4 (k / 20))).val + k % 20
  { x with side := x.side.rename g,
           trb := { x.trb with acted := x.trb.acted.map fun a => { a with die := key a.die } } }

/-- A port under new tray names; its ledger fields follow when it is published again. -/
def Port.rename (g : Fin 4 → Fin 4) (y : Port) : Port :=
  let seq := fun (z : SeqFlit) => { z with flit := z.flit.rename g }
  { y with side := { y.side with unacked := y.side.unacked.map seq, hold := y.side.hold.map (·.rename g),
                                 rx := y.side.rx.map (·.rename g), heldFor := y.side.heldFor.map (·.rename g) } }

/-- A field under new tray names; dies of trays that are no longer members leave it (log entry 45). -/
def Field.rename (g : Fin 4 → Fin 4) (keep : Fin 4 → Bool) (x : Field) : Field :=
  let dies := fun (l : List DieId) => (l.filter fun d => keep d.tray).map (·.rename g)
  { x with dies := dies x.dies, recalls := dies x.recalls,
           sluices := (x.sluices.filter fun e => keep e.1.tray).map fun e => (e.1.rename g, e.2),
           dieFrozen := (x.dieFrozen.filter fun e => keep e.1.tray).map fun e => (e.1.rename g, e.2) }

/-- Whether a side of a member tray is cabled, by what its server answered (R19). -/
def State.sideCabled (s : State) (tray : Fin 4) (side : Nat) : Bool :=
  match s.span.members[tray.val]? with
  | some ser => s.peers.any fun q => q.serial = ser && (q.sides.getD side none).isSome
  | none => false

/-- The die an edge port at a cage of a span is cabled to, and whether over a wrap: the grid neighbour, else the far end of its row or
column where that side of its tray is cabled (R19, R93). -/
def State.cabledDie (s : State) (p : PortId) : Option DieId × Bool :=
  let a := s.spanXY p.die
  let g := gridOf s.span.shape
  let wrap := s.sideCabled p.die.tray p.port.val
  let far := fun (x y : Nat) => if wrap then s.dieAtSpan x y else none
  if p.port = 0 then (if a.2 = 0 then (far a.1 (g.2 - 1), wrap) else (s.dieAtSpan a.1 (a.2 - 1), false))
  else if p.port = 1 then (if a.1 + 1 = g.1 then (far 0 a.2, wrap) else (s.dieAtSpan (a.1 + 1) a.2, false))
  else if p.port = 2 then (if a.2 + 1 = g.2 then (far a.1 0, wrap) else (s.dieAtSpan a.1 (a.2 + 1), false))
  else (if a.1 = 0 then (far (g.1 - 1) a.2, wrap) else (s.dieAtSpan (a.1 - 1) a.2, false))

/-- The ledger entry another tray's port has: as this tray's end of the link has it, else by the tray's wiring and the span's cables
(R88, R91, R93; log entry 46). -/
def State.otherPort (s : State) (p : PortId) : State :=
  if p.die.tray = s.span.num then s
  else
    let far : Option PortId × Bool :=
      match s.allPorts.find? fun q => q.die.tray = s.span.num && (s.port q).link.inLedger && (s.port q).link.peer = some p with
      | some q => (some q, (s.port q).link.wrap)
      | none =>
        match cageOf p with
        | none => (wired p, false)
        | some _ => let c := s.cabledDie p; (c.1.map fun d => ⟨d, opposite p.port⟩, c.2)
    let cable := match far.1 with | some q => (s.port q).link.cable | none => none
    let pinned := if far.1.isSome then pinnedOf p (profileOf p ≠ 0) cable else 0
    let gen := if profileOf p = 0 then 1 else 2
    let at_ := (s.die s.server).tally.value
    s.onLink p fun l => { l with inLedger := true, peer := far.1, pinned := pinned, gen := gen, wrap := far.2, changed := at_ }

/-- The tray takes part in a span: dies, ports, fields and records under the new names, the ledger published again, its epoch moved on
for every entry that appears or disappears, hold regions on the other trays' ports (R21, R91, R92, R280). -/
def State.respan (s : State) (sp : Span) : State :=
  let g := newName s.span sp
  let keep := stays s.span sp
  let own := s.span.num
  let dies : NMap Die := (trayDies own).map fun d => ((d.rename g).key, (s.die d).rename g)
  let links : NMap Port := ((trayDies own).flatMap diePorts).map fun p =>
    ((⟨p.die.rename g, p.port⟩ : PortId).key, (s.port p).rename g)
  let fields : NMap Field := s.fields.map fun e => (e.1, e.2.rename g keep)
  let root : Option DieId := s.leader.root.map fun d => d.rename g
  let before := s.allPorts.length
  let s := ((((s.setDies dies).setLinks links).setFields fields).setSpan sp).setLeader { s.leader with root := root }
  let s := s.forEach (s.ownDies.flatMap diePorts) fun s p => if (s.port p).link.inLedger then s.publishPort p else s
  let others := s.allPorts.filter fun p => p.die.tray ≠ s.span.num
  let s := s.forEach others State.otherPort
  let moved := (s.allPorts.length - before) + (before - s.allPorts.length)
  let s := s.setLedgerEpoch ((s.ledgerEpoch + moved) % 0x100000000)
  s.forEach (allFields.filter fun f => (s.field f).live) fun s f =>
    let share := (s.field f).hold
    s.forEach others fun s p => s.onPort p fun y =>
      { y with pond := { y.pond with holds := NMap.set y.pond.holds (fnum f) (if p.die.isCompute then share else 0x10000) } }

/-! ### Formation and dissolution (R22, R23, R98, R385, R386) -/

/-- The status that refuses a formation, or the span it forms (R19, R22, R23). -/
def State.formable (s : State) (shape : Nat) (info : List TrayInfo) : Nat ⊕ Span :=
  if (allFields.any fun f => (s.field f).loaded) ∨ info.any (·.planLoaded) then .inl eSpanBusy
  else
    match s.ownInfo with
    | none => .inl eSpanShape
    | some me =>
      let all := me :: info
      if all.length ≠ shapeTrays shape ∨ !(all.map (·.serial)).Nodup then .inl eSpanShape
      else
        match arrange shape all with
        | none => .inl eSpanShape
        | some l => if info.any fun q => q.bundle ≠ s.bundle then .inl eSpanBundle else .inr (spanOf s.serial shape l)

/-- A formation begins: the span record is written, leadership is vacant and this tray claims it where it may (R98, R385). -/
def State.startForm (s : State) (sp : Span) (w : Waiting) : State :=
  let s := s.respan { sp with record := some (sp.shape, sp.members), forming := some w }
  let may := s.mayClaim
  let s := s.setLeader { s.leader with vacant := true, lead := false, root := none, standing := none,
                                       windowFrom := if may then some s.now else none, claims := if may then [s.serial] else [] }
  if may then s.emit (.claim s.serial) else s

/-- SPAN_FORM: owned by the tray owner of every member; refused with a loaded plan, cabling not in Table 1.8 or another bundle
(R19, R22, R23). -/
def execSpanForm (r : MReq) (shape : Nat) (info : List TrayInfo) (s : State) : Out :=
  let x := (s.setPeers info).serve r { opcode := 0x050B, len := 4, need := .everyTray, acts := some 0 }
    (.spanForm r shape info) (fun _ => if shape < 1 ∨ 5 < shape then some eArgRange else none) fun s =>
    match s.formable shape info with
    | .inl e => s.reply r 0x050B e []
    | .inr sp =>
      let w : Waiting := { req := r, opcode := 0x050B }
      (s.setTrayHolder (some w)).startForm sp w
  .next (if x.span = s.span then x.setPeers s.peers else x)

/-- SPAN_DISSOLVE: every tray is alone again as T0 with its own root; the record is erased (R22, R98, R374, R385). -/
def execSpanDissolve (r : MReq) (info : List TrayInfo) (s : State) : Out :=
  let x := (s.setPeers info).serve r { opcode := 0x050C, len := 0, need := .everyTray, acts := some 0 }
    (.spanDissolve r info) noEarly fun s =>
    if (allFields.any fun f => (s.field f).loaded) ∨ info.any (·.planLoaded) then s.reply r 0x050C eSpanBusy []
    else
      let lead := s.leader.lead
      let s := s.respan { members := [s.serial] }
      let s := (s.setPeers []).followLeader s.serial
      let s := s.setLeader { s.leader with lead := true, vacant := false, windowFrom := none, claims := [] }
      let s := if lead then s
        else match s.pickRoot with
          | some d => s.makeRoot d (s.leader.epoch + 1)
          | none => s
      s.setCleaner.reply r 0x050C 0 []
  .next (if x.span = s.span then x.setPeers s.peers else x)

/-- SPAN_REFORM: a tray that is ready or degraded and holds a span record forms the span again once every recorded member is
present, ready or degraded, and holds the same bundle, while no plan is loaded (R386). -/
def execSpanReform (info : List TrayInfo) (t : Nat) (s : State) : Out :=
  let s := s.clock t
  match s.span.record with
  | some (shape, members) =>
    if !s.isReady ∨ 1 < s.trays.length ∨ s.span.forming.isSome ∨ !info.all (·.ready)
        ∨ sortSerials (s.serial :: info.map (·.serial)) ≠ members then .next s
    else
      match s.formable shape info with
      | .inl _ => .next s
      | .inr sp =>
        let r : MReq := { port := 4, rid := 0xFFFE, chan := 0, version := 2, flags := 0, seq := 0, length := 0, token := 0, rsvd := 0,
                          t := t }
        .next ((s.setPeers info).startForm sp { req := r, opcode := 0 })
  | none => .next s

end Machine
end Sys2Proof
end

