-- ==== Sys2Proof/Machine/PowerState.lean ====
section
/-! DEFINITION. Sys2Proof/Machine/PowerState.lean: what the power commands share: gates, the loss of a package's rails, resets of
dies, power-up, power-down and the tray power-up (R192, R314-R323, R328, R329, R348-R350, R362, R382). -/

namespace Sys2Proof.Machine

/-! ### Dies that lose their rails or are reset -/

/-- A port whose die loses its logic: KLC registers at reset; what the cage, the server and the ledger hold stays, with `rails` the ST
fields and a role swap, which end with a cold power-down alone, and with `warm` the pond (R4, R121, Table 18.11). -/
def Port.cleared (y : Port) (p : PortId) (rails warm : Bool) : Port :=
  let z := resetPort p
  let l := y.link
  { z with link := { disabled := l.disabled, forced := l.forced, forcedAt := l.forcedAt, liftedAt := l.liftedAt,
                     enabled := warm && l.enabled, peer := l.peer, foreign := l.foreign, pinned := l.pinned,
                     inLedger := l.inLedger, changed := l.changed, wrap := l.wrap, cable := l.cable,
                     swapped := rails && l.swapped, collided := rails && l.collided,
                     collisions := if rails then l.collisions else 0 }
           pond := if warm then y.pond else z.pond
           err := { z.err with sat := if rails then y.err.sat else 0 } }

/-- A die without rails: only what is fused or strapped stays (R365, R404). -/
def Die.dark (x : Die) (d : DieId) : Die :=
  { resetDie d with
      ident := x.ident
      place := x.place
      boot := { fuse := x.boot.fuse, fuseTag := x.boot.fuseTag, fuseOk := x.boot.fuseOk, fitted := x.boot.fitted, testMode := x.boot.testMode,
                orientStrap := x.boot.orientStrap } }

/-- A die whose reset is asserted: its logic is cleared; TRB_FEC, the log, the headgate agent with its FIFO, the placement
registers and the memory stay (R366, R398, R404, Table 18.9). -/
def Die.inReset (x : Die) (now : Nat) : Die :=
  { x with
      boot := { x.boot with st := .inReset, resetAt := now, comps := 0, loads := 0, loadFailed := false, hbmTrained := false,
                            hbmScrubbed := false, hbmFailed := false, fuseReported := false }
      tally := {}
      trb := { x.trb with handling := [], acted := [] }
      tiles := []
      mesh := []
      eps := []
      cnt := {}
      side := {}
      pow := { x.pow with samples := 0 } }

/-- The serving instance moves when its die is lost and no root move took it along (R258). -/
def State.serverLost (s : State) (n : Fin 4) : State :=
  if s.serving = some n then s.moveServing (s.pickRoot.map (·.pkg)) else s

/-- Every port of a die cleared. -/
def State.clearPorts (s : State) (d : DieId) (rails warm : Bool) : State :=
  s.forEach (diePorts d) fun s p => s.onPort p fun y => y.cleared p rails warm

/-- The dies of a package lose their rails: state, ports and host port gone; the root moves where it was there (R165, R374). -/
def State.darken (s : State) (n : Fin 4) : State :=
  let s := s.forEach (packageDies s.span.num n) fun s d => (s.onDie d fun x => x.dark d).clearPorts d false false
  let s := s.setHost n {}
  (s.rootLost ⟨s.span.num, n, 0⟩).serverLost n

/-- The resets of a package's dies are asserted, C0-C3 then X; streams end as after a cold power-down, but no rail falls, so that the ST
fields stay (R4, R165, R322, R324). -/
def State.assertResets (s : State) (n : Fin 4) : State :=
  let now := s.now
  let s := s.forEach (packageDies s.span.num n) fun s d =>
    if (s.die d).boot.st = .off then s else (s.onDie d fun x => x.inReset now).clearPorts d true false
  let s := s.setHost n {}
  (s.rootLost ⟨s.span.num, n, 0⟩).serverLost n

/-- Accounts a die takes part in are reopened at every other die under its new epoch; requests to it end with E_SF_LOST
(R192, R197). -/
def State.reopenAccounts (s : State) (d : DieId) : State :=
  s.forEach (s.allDies.filter (· ≠ d)) fun s o =>
    let s := s.loseReqs o fun q => q.dst = d
    s.onDie o fun x =>
      { x with side := { x.side with sources := x.side.sources.filter fun e => e.1 / 45 ≠ d.key,
                                     sinks := x.side.sinks.filter fun e => e.1 / 45 ≠ d.key } }

/-- A die that was AGREED returns to UNSYNCED: each of its links loses its pinning, at both ends (R102, R104). -/
def State.pinsReset (s : State) (d : DieId) : State :=
  if !(s.die d).tally.wasAgreed then s
  else s.forEach (diePorts d) fun s p =>
    let up : Bool := (s.port p).link.st = .up
    let s := s.losePin p
    match (s.port p).link.mate with
    | some q => if up ∧ q.die.tray = s.span.num then s.markPinLost q else s
    | none => s

/-- A warm reset of a die of a package in state 2: logic, streams and accounts; its epoch counts on; DIE_RESET contains the field
that holds it, whose active plan reloads before its next launch; the root moves where it was there (R165, R192, R239, R328,
R374, R390). -/
def State.warmReset (s : State) (d : DieId) : State :=
  if d.tray ≠ s.span.num ∨ (s.pkg d.pkg).st ≠ .on ∨ !s.dieUp d then s
  else
    let now := s.now
    let s := s.pinsReset d
    let s := s.onDie d fun x => let y := x.inReset now; { y with trb := { y.trb with epoch := y.trb.epoch + 1 } }
    let s := s.clearPorts d true true
    let s := if d.slot = 0 then s.setHost d.pkg {} else s
    let s := s.reopenAccounts d
    let s := match s.fieldOf d with
      | some f =>
        (s.report d { code := 0xE903, field := fnum f }).onField f fun x =>
          { x with reloadDue := if x.active.isSome ∧ x.reloadDue.isNone then some false else x.reloadDue }
      | none => s.report d { code := 0xE903 }
    let s := s.rootLost d
    if d.slot = 0 then s.serverLost d.pkg else s

/-! ### Gates and power-up (R314, R319, R320) -/

/-- A package without power: no gate, no rail, its dies dark. -/
def State.unpower (s : State) (n : Fin 4) : State :=
  (s.onPkg n fun k =>
    { k with gate := false, gateDue := none, seq := 0, rails := [], inWin := [], held := none, refOn := false,
             straps := false, placed := false, sw := false, rowHiccups := [], trayCaps := [], pkgCaps := [], downFor := [] }).darken n

/-- Hardware opens a gate: the latch bits are set, the rails collapse together, and any sequence stops. The Watermaster sees it
at its next scan (R314, R315, R321, R323, R325). -/
def State.collapse (s : State) (n : Fin 4) (bits : BitVec 6) : State :=
  (s.unpower n).onPkg n fun k => { k with latch := k.latch ||| bits }

/-- A gate is enabled: state 1; the controller ignores it while a latch bit is set (R315, R317, R319). -/
def State.enableGate (s : State) (n : Fin 4) (at_ : Nat) : State :=
  if (s.pkg n).latch ≠ 0 then s.onPkg n fun k => { k with gateDue := none }
  else s.onPkg n fun k =>
    { k with st := .poweringUp, gate := true, gateDue := none, gateAt := at_, seq := 0, seqAt := at_, rails := [(0, at_)],
             inWin := [], enumerated := 0, tries := 0, enumDone := false, placed := false, stored := [], hiccups := [],
             held := none, upAfter := false,
             lastStatus := 0, bootsrc := s.wm.bootsrc }

/-- The clock moves to a power event; gates whose turn has come are enabled, while the Watermaster runs (R316, R334). -/
def State.powerClock (s : State) (t : Nat) : State :=
  let s := s.clock t
  if s.wmUp ∧ !s.input.fault ∧ !s.input.lockout then
    s.forEach allPkgs fun s n =>
      match (s.pkg n).gateDue with
      | some a => if a ≤ s.now then s.enableGate n a else s
      | none => s
  else s

/-- States from which a package is powered up (R320). -/
def PkgSt.mayUp (x : PkgSt) : Bool := x = .off || x = .shutDown || x = .heldOff

/-- The gate of a package is to be enabled at an instant. -/
def State.planGate (s : State) (n : Fin 4) (at_ : Nat) : State :=
  if at_ ≤ s.now ∧ !s.input.fault ∧ !s.input.lockout then s.enableGate n at_ else s.onPkg n fun k => { k with gateDue := some at_ }

/-- Packages are powered up one at a time, each gate 50 ms after the previous one (R316, R331); one that is still powering down
follows when it is down (R320). -/
def State.powerUpAll (s : State) (l : List (Fin 4)) : State :=
  let now := s.now
  let s := s.forEach l fun s n => if (s.pkg n).st = .poweringDown then s.onPkg n fun k => { k with upAfter := true } else s
  (l.filter fun n => (s.pkg n).st.mayUp).zipIdx.foldl (fun s e => s.planGate e.1 (now + 50 * ms * e.2)) s

/-! ### Power-down (R321-R323) -/

/-- A power-down ends: the state it leaves, 4 while a latch bit is set (Table 13.3). -/
def State.settleDown (s : State) (n : Fin 4) (after : PkgSt) : State :=
  s.onPkg n fun k => { k with st := if k.latch ≠ 0 then .faulted else after }

/-- Field notices of R323: every field with a die of the package is contained. -/
def State.notices (s : State) (n : Fin 4) : State := s.containPkg n

/-- A package is powered down under R322, or its power-up is stopped under R321; `after` is the state it reaches. An isolated
package gets no PKG_DOWN, and its fields their notices at once (R371). -/
def State.powerDown (s : State) (n : Fin 4) (after : PkgSt) : State :=
  let k := s.pkg n
  let now := s.now
  match k.st with
  | .poweringUp => (s.unpower n).settleDown n after
  | .poweringDown => s.onPkg n fun k => { k with after := after, upAfter := false }
  | .off => s.onPkg n fun k => { k with st := after, gateDue := none }
  | .shutDown => s.onPkg n fun k => { k with st := if after = .heldOff then .heldOff else .shutDown, gateDue := none }
  | .heldOff => s.onPkg n fun k => { k with gateDue := none }
  | .faulted => s
  | .on | .unreachable | .unplaced =>
    if !k.gate then s.settleDown n after
    else
      let s := s.onPkg n fun k => { k with st := .poweringDown, after := after, upAfter := false, downSeq := 0, downAt := now }
      let s := if k.st = .unreachable then s.notices n else s
      (s.rootLost ⟨s.span.num, n, 0⟩).serverLost n

/-! ### Protective caps (R327) -/

/-- The protective tray and package caps in force, in W; 0 for none. -/
def State.protTrayCap (s : State) : Nat := if s.wm.protTray.isSome then 5880 else 0
def State.protPkgCap (s : State) (n : Fin 4) : Nat := if s.wm.protPkg.any (·.1 = n.val) then 1100 else 0

/-! ### Banks and the tray power-up (R329, R343, R348-R352, R382) -/

/-- The active bank, and the other one (R343). -/
def Wm.active (w : Wm) : Bank := if w.activeB then w.bankB else w.bankA
def Wm.other (w : Wm) : Bank := if w.activeB then w.bankA else w.bankB
/-- The Watermaster with the active, or the other, bank changed. -/
def Wm.onActive (w : Wm) (g : Bank → Bank) : Wm := if w.activeB then { w with bankB := g w.bankB } else { w with bankA := g w.bankA }
def Wm.onOther (w : Wm) (g : Bank → Bank) : Wm := if w.activeB then { w with bankA := g w.bankA } else { w with bankB := g w.bankB }

/-- A bank is valid when its state is neither EMPTY nor INVALID (R352). -/
def Bank.valid (b : Bank) : Bool := b.st ≠ .empty && b.st ≠ .invalid && b.st ≠ .staging

/-- The boot source of a tray power-up (R329). -/
def Wm.source (w : Wm) : Nat :=
  if w.recoveryAsked ∨ (!w.active.valid ∧ !w.other.valid) then 2 else if w.oneTime.isSome then 1 else 0

/-- Dies and links of a tray that leaves its span, under the tray number 0 (R8, R385). -/
def State.rekeyed (s : State) : State :=
  let own := s.span.num
  let alone : Fin 4 → Fin 4 := fun _ => 0
  if own = 0 then s
  else
    (s.setDies ((trayDies own).map fun d => ((d.rename alone).key, (s.die d).rename alone))).setLinks
      (((trayDies own).flatMap diePorts).map fun p => ((⟨p.die.rename alone, p.port⟩ : PortId).key, s.port p))

/-- What no tray power-up leaves: ownership, fields, counters, the tray record, caps, training state (R348, R382, R385, R403). -/
def State.blanked (s : State) : State :=
  { s with tray := .bringUp, scopes := [], targets := [], ports := [], fields := [], trouble := {}, capTray := 0, capPkg := [],
           sfTimerMs := 50, trayHolder := none, waiting := [], serving := none, peers := [], ledgerEpoch := 0, wmReply := none,
           leader := { serial := s.serial }, cleaner := { configured := true },
           span := { members := [s.serial], record := s.span.record },
           links := s.links.map fun e => (e.1, { e.2 with link := { cable := e.2.link.cable } }),
           wm := { s.wm with redfishTray := 0, redfishPkg := [], protTray := none, protPkg := [], capOver := [] } }

/-- What a tray power-up clears: ownership, fields, plans, rings, Redfish and mailbox caps, counters, the tray record; the tray
stands alone as T0 in bring-up, where its dies and ports stand under their new names with the records their UIDs go with (R8, R382,
R385, R401, R403). -/
def State.clearTray (s : State) : State := s.rekeyed.blanked

/-- The Watermaster powers up packages from a tray in which none is in state 1 or 2: the boot source is chosen, the bring-up
starts, the gates follow (R329, R350, R362). -/
def State.startTray (s : State) (l : List (Fin 4)) : State :=
  let w := s.wm
  let src := w.source
  let bundle := if src = 0 then w.active.bundle else if src = 1 then w.oneTime.getD 0 else Config.recoveryBundle
  let now := s.now
  let s := s.clearTray
  let w := { s.wm with bootsrc := src, oneTime := none, recoveryAsked := false, firstGate := some now, retryFrom := none,
                       halted := false }
  let s := (s.setBundle bundle).setWm w
  s.powerUpAll l

/-- The Watermaster restarts: outputs and indicators hold, cooling goes to full duty, a staging in progress ends, and what its
memory held is lost (R332, R334, R338, R344, R354; 14, When things coincide). -/
def State.wmRestart (s : State) (c : RestartCause) : State :=
  let cut := s.wm.staging.isSome
  let shown := s.panel
  let s := s.onWm fun w =>
    let w := if cut then w.onOther fun _ => { st := .empty } else w
    { w with restarting := some c, recovery := false, fullCooling := true, scansSince := 0, fanDuty := 100, pumpDuty := 100,
             staging := none, oneTime := none, lastResult := if cut then eFwFlash else w.lastResult, heldPanel := some shown }
  if cut then s.notify 0 29 else s

/-- With a tray power-up owed and every package down, the Watermaster restarts into the other bank, which becomes active in state
TRIAL; the bank left keeps its bundle as ACTIVE, unless it is INVALID (R349, R352). -/
def State.restartOwed (s : State) : State :=
  let busy := allPkgs.any fun n => (s.pkg n).st = .poweringUp || (s.pkg n).st = .on || (s.pkg n).st = .poweringDown
  if s.wm.owed.isSome ∧ s.wm.restarting.isNone ∧ !busy then
    (s.wmRestart .activation).onWm fun w =>
      let w := (w.onOther fun b => { b with st := .trial }).onActive fun b => if b.st = .invalid then b else { b with st := .active }
      { w with failedBringups := 0, activeB := !w.activeB }
  else s

/-- A tray power-up (R348): with a PENDING bank, and boot source 0, the Watermaster first restarts into that bank; the gates follow
when service resumes (R349). -/
def State.trayUp (s : State) (l : List (Fin 4)) : State :=
  if s.wm.other.st = .pending ∧ s.wm.source = 0 then (s.onWm fun w => { w with owed := some l }).restartOwed
  else s.startTray l

/-- Packages powered up on a command for the whole tray: a tray power-up where no package is in state 1 or 2 (R331, R348). -/
def State.powerUpMany (s : State) (l : List (Fin 4)) : State :=
  if allPkgs.any fun n => (s.pkg n).st = .poweringUp || (s.pkg n).st = .on then s.powerUpAll l else s.trayUp l

/-! ### Failed bring-ups (R350-R352) -/

/-- A package fault the Watermaster detects: contained for each field with a die of the package and fatal for the package
(R325, R326, Table 16.4). -/
def State.pkgFault (s : State) (code : Nat) (n : Fin 4) (info : Nat) : State :=
  let e : Err := { code := code, locKind := 6, location := n.val, info := info }
  let r := makeRec e 0 (s.tallyOf s.sink) false true
  let s := s.forEach (s.pkgFields n) fun s f => s.sinkTake { r with field := fnum f, severity := sevByte 2 false 1 }
  s.sinkTake r

/-- A fault the Watermaster confirms on a package: latch bit, report, power-down (R324, R326, Table 13.6). -/
def State.latchFault (s : State) (n : Fin 4) (bits : BitVec 6) (code info : Nat) : State :=
  let k := s.pkg n
  if k.latch &&& bits = bits then s
  else
    let s := s.onPkg n fun k =>
      { k with latch := k.latch ||| bits, scanned := k.scanned ||| bits,
               railId := if bits = 0b000100 ∧ !k.latch.getLsbD 2 then info else k.railId }
    ((s.pkgFault code n info).notices n).powerDown n .faulted

/-- Every package powered down. -/
def State.downAll (s : State) (after : PkgSt) : State := s.forEach allPkgs fun s n => s.powerDown n after

/-- A bring-up fails: every package down, the count, and another attempt after 10 s; the third in a row rolls a trial bundle back
or halts a confirmed one. A one-time image counts toward no bank (R350-R352, R354). -/
def State.failBringup (s : State) : State :=
  let now := s.now
  let n := s.wm.failedBringups + 1
  if s.wm.bootsrc ≠ 0 then
    (s.downAll .off).onWm fun w => { w with firstGate := none, retryFrom := some now }
  else if n < 3 then
    (s.downAll .off).onWm fun w => { w with failedBringups := n, firstGate := none, retryFrom := some now }
  else if s.wm.active.st = .trial then
    let s := (s.downAll .off).onWm fun w => w.onActive fun b => { b with st := .invalid }
    let s := s.onWm fun w => { w with failedBringups := 0, firstGate := none, lastResult := eFwBringup, fwVectorOwed := true }
    if s.wm.other.valid then (s.onWm fun w => { w with owed := some allPkgs }).restartOwed
    else s.onWm fun w => { w with retryFrom := some now }
  else
    (s.downAll .heldOff).onWm fun w => { w with failedBringups := n, firstGate := none, halted := true, lastResult := eFwBringup }

end Sys2Proof.Machine
end

