-- ==== Sys2Proof/Machine/Rails.lean ====
section
/-! DEFINITION. Sys2Proof/Machine/Rails.lean: hot-swap stages, package power-up and power-down, hiccups, resets of dies
(R206-R210, R314-R324, R328, R364-R368, Tables 13.4, 13.5). Rails are numbered as the monitor points of a package: 0 VHS,
1 VMGT, 2 VPHY, 3 VCORE_X, 4-7 VCORE_C0-C3, 8 VPP, 9 VDDC, 10 VDDQ (R326). -/

namespace Sys2Proof.Machine

/-! ### Hardware protection (R314, R315) -/

/-- INPUT_LOCKOUT: the input leaves 42-62 V: every gate opens, without a latch (R314, R316, R433). -/
def execInputLockout (t : Nat) (s : State) : Out :=
  let s := s.powerClock t
  let s := s.setInput { s.input with lockout := true }
  .next (s.forEach allPkgs fun s n =>
    if (s.pkg n).gate then (s.collapse n 0).onPkg n fun k => { k with powered := k.powered || k.st ≠ .poweringDown } else s)

/-- BREAKER_TRIP: more than 60 A: the gate is pulled and SHORT latched (R314, R315). -/
def execBreakerTrip (pkg : Fin 4) (t : Nat) (s : State) : Out :=
  let s := s.powerClock t
  if (s.pkg pkg).gate then .next (s.collapse pkg 0b000001) else .next s

/-- Whether a package's gate still ramps. -/
def Pkg.ramping (k : Pkg) : Bool := k.gate && k.st = .poweringUp && k.seq = 0

/-- RAMP_TIMEOUT: VHS not at 90 % 60 ms after the enable: SHORT and RAMP_TIMEOUT (R314, R315). -/
def execRampTimeout (pkg : Fin 4) (t : Nat) (s : State) : Out :=
  let s := s.powerClock t
  let k := s.pkg pkg
  if k.ramping ∧ k.gateAt + 60 * ms ≤ s.now then .next (s.collapse pkg 0b000011) else .next s

/-- HS_OVERTEMP: the gate transistor at 125 degrees: OT_HS (R314, R315). -/
def execHsOvertemp (pkg : Fin 4) (t : Nat) (s : State) : Out :=
  let s := s.powerClock t
  if (s.pkg pkg).gate then .next (s.collapse pkg 0b010000) else .next s

/-- AUXILIARY_SUPPLY_LOSS: the input below 36 V: the Watermaster and the watchdog lose power, the latches are lost (R433). -/
def execAuxiliarySupplyLoss (t : Nat) (s : State) : Out :=
  let s := s.clock t
  let s := s.forEach allPkgs fun s n => (s.unpower n).onPkg n fun _ => {}
  let w := s.wm
  let w := if w.staging.isSome then { w.onOther (fun _ => { st := .empty }) with staging := none, lastResult := eFwFlash } else w
  let w : Wm := { bankA := w.bankA, bankB := w.bankB, activeB := w.activeB, failedBringups := w.failedBringups,
                  lastResult := w.lastResult, fwVectorOwed := w.fwVectorOwed, eqRecs := w.eqRecs, soft := w.soft,
                  fansFitted := w.fansFitted }
  .next ((s.setInput {}).setWm w)

/-! ### Power-up (R318, R319) -/

/-- VHS_RAMP_DONE: VHS at 90 % of the input: the ramp timer stops; after 60 ms it has already pulled the gate (R314, R319). -/
def execVhsRampDone (pkg : Fin 4) (t : Nat) (s : State) : Out :=
  let s := s.powerClock t
  let k := s.pkg pkg
  let now := s.now
  if !k.ramping then .next s
  else if k.gateAt + 60 * ms < now then .next (s.collapse pkg 0b000011)
  else .next (s.onPkg pkg fun k => { k with seq := 1, seqAt := now, inWin := [0] })

/-- The gap before event `i` of Table 13.4 in ms, and the rails it enables. -/
def upEvent (i : Nat) : Nat × List (Fin 11) :=
  [(0, []), (20, []), (5, [1]), (3, [8]), (2, [9]), (2, [10]), (2, [3, 2]), (2, [4, 5, 6, 7]), (2, []), (1, []), (1, []),
   (1, [])].getD i (0, [])

/-- Whether a compute die is not enabled: not qualified for every rung (R208). Its reset is not released (log entry 147). -/
def State.notEnabled (s : State) (d : DieId) : Bool := d.isCompute && (s.die d).ident.maxRung < 7

/-- A die's reset is released: it samples its straps and starts its boot ROM; a compute die's ROOT port answers; after a
power-up its estimator starts from COEF (R208, R312, R319, R373, R376). -/
def State.releaseDie (s : State) (d : DieId) : State :=
  if (s.die d).boot.st ≠ .inReset ∨ s.notEnabled d then s
  else
    let up : Bool := (s.pkg d.pkg).st = .poweringUp
    let s := s.onDie d fun x => { x with boot := { x.boot with st := .bootRom } }
    if d.isCompute then
      let s := if up then s.startEstimator d else s
      (s.onLink ⟨d, 4⟩ fun l => { l with enabled := true }).startTraining ⟨d, 4⟩
    else s

/-- The straps of a package are driven (R328, Table 13.8). -/
def State.driveStraps (s : State) (n : Fin 4) : State := s.onPkg n fun k => { k with straps := true, bootsrc := s.wm.bootsrc }

/-- Every reset of a package is released: state 2 (Table 13.3). -/
def State.pkgOn (s : State) (n : Fin 4) : State :=
  let now := s.now
  s.onPkg n fun k => { k with st := .on, seq := 11, seqAt := now }

/-- POWERUP_SEQUENCE_STEP: the next event of Table 13.4, once its interval has passed and every rail before it is in its window
(R319, R328, R368). -/
def execPowerupSequenceStep (pkg : Fin 4) (t : Nat) (s : State) : Out :=
  let s := s.powerClock t
  let k := s.pkg pkg
  let now := s.now
  let i := k.seq + 1
  let e := upEvent i
  if !s.wmUp ∨ k.st ≠ .poweringUp ∨ !k.gate ∨ k.seq = 0 ∨ k.held.isSome ∨ 11 < i ∨ now < k.seqAt + e.1 * ms
      ∨ k.rails.any (fun r => !(k.inWin.any fun w => w.val = r.1)) then .next s
  else
    let s := s.onPkg pkg fun k => { k with seq := i, seqAt := now, rails := e.2.foldl (fun m r => NMap.set m r.val now) k.rails }
    if i = 7 then
      .next (s.forEach (computeDies s.span.num pkg) fun s d =>
        let v := s.targetMv d 0
        s.onDie d fun x => { x with pow := { x.pow with target := v, settled := true, heldTarget := none } })
    else if i = 8 then .next (s.onPkg pkg fun k => { k with refOn := true })
    else if i = 9 then
      (if !k.enumDone then .next (s.onPkg pkg fun k' => { k' with seq := 8, seqAt := k.seqAt })
       else if k.placed then .next (s.driveStraps pkg)
       else .next (s.onPkg pkg fun k => { k with st := .unplaced }))
    else if i = 10 then .next (s.releaseDie ⟨s.span.num, pkg, 0⟩)
    else if i = 11 then .next ((s.forEach (computeDies s.span.num pkg) State.releaseDie).pkgOn pkg)
    else .next s

/-- RAIL_IN_WINDOW: an enabled rail enters its window (R318, R319). -/
def execRailInWindow (pkg : Fin 4) (rail : Fin 11) (t : Nat) (s : State) : Out :=
  let s := s.powerClock t
  let k := s.pkg pkg
  if (k.rails.any fun r => r.1 = rail.val) ∧ !k.inWin.contains rail then
    .next (s.onPkg pkg fun k => { k with inWin := k.inWin ++ [rail], rowHiccups := NMap.erase k.rowHiccups rail.val })
  else .next s

/-- RAIL_WINDOW_TIMEOUT: a rail not in its window 3 ms after its enable is a rail fault: the sequence stops (R318, R321, R326). -/
def execRailWindowTimeout (pkg : Fin 4) (rail : Fin 11) (t : Nat) (s : State) : Out :=
  let s := s.powerClock t
  let k := s.pkg pkg
  let late : Bool := match k.rails.find? fun r => r.1 = rail.val with
    | some r => r.2 + 3 * ms ≤ s.now
    | none => false
  if !s.wmUp ∨ k.st ≠ .poweringUp ∨ rail = 0 ∨ !late ∨ k.inWin.contains rail then .next s
  else .next (s.latchFault pkg 0b000100 0xE70A (4 + 11 * pkg.val + rail.val))

/-! ### Enumeration (R206-R210, R364-R368) -/

/-- Whether an identity record is good (R207). -/
def Ident.good (x : Ident) : Bool := x.tag = 0x4944 && x.checkOk

/-- Whether a placement record places its package: CHECK, TAG, PKG_TYPE, orientation codes, and every UID against the identity
record read at its slot (R210). -/
def Placement.good (x : Placement) (ids : NMap Ident) : Bool :=
  x.tag = 0x504C && x.checkOk && x.pkgType = 1 && x.slots.length = 5
    && (x.slots.zipIdx.all fun e => e.1.orient < 4 && (NMap.get ids e.2 {}).uid = e.1.uid)

/-- PLC_CTRL of slot Cm from its placement entry (Table 18.9). -/
def SlotEnt.plcCtrl (e : SlotEnt) (m : Nat) : Word :=
  BitVec.ofNat 32 (e.orient % 8 + 8 * (m % 4) + 32 + 64 * e.edgeUse.toNat + 16384 * (e.root % 4))

/-- PLC_PEER of slot Cm: E0 and E3 face the package neighbours, ROOT the X; Culvert peers lie outside the record (R212). -/
def plcPeers (x : Placement) (m : Nat) : NMap Dword :=
  let u := fun (k : Nat) => match x.slots[k]? with | some e => e.uid | none => 0
  [(0, u ((m + 3) % 4 + 1)), (3, u ((m + 1) % 4 + 1)), (4, u 0)]

/-- Each die of a package whose identity record fails its checks is reported (R207). -/
def State.badIdentities (s : State) (n : Fin 4) : State :=
  s.forEach ((s.pkg n).stored.filter fun e => !e.2.good) fun s e =>
    s.wmReport { code := 0xE901, locKind := 0, location := 0x10 + 5 * n.val + e.1 }

/-- A package is left unplaced (R207, R210, R368). -/
def State.leaveUnplaced (s : State) (n : Fin 4) (e : Option Err) : State :=
  (match e with | some e => s.wmReport e | none => s).onPkg n fun k =>
    { k with enumDone := true, placed := false, lastStatus := ePkgUnplaced }

/-- With five identities read, the identity and placement checks; a placed package gets its placement registers (R207, R210,
R367). -/
def State.checkPlacement (s : State) (n : Fin 4) : State :=
  let k := s.pkg n
  if k.stored.any fun e => !e.2.good then (s.badIdentities n).leaveUnplaced n none
  else
    let x := (s.die ⟨s.span.num, n, 0⟩).place
    if !x.good k.stored then s.leaveUnplaced n (some { code := 0xE902, locKind := 6, location := n.val })
    else
      let s := s.forEach (computeDies s.span.num n) fun s d => s.onDie d fun y =>
        { y with boot := { y.boot with plcCtrl := (x.slots.getD d.slot.val {}).plcCtrl (d.slot.val - 1),
                                       plcPeer := plcPeers x (d.slot.val - 1) } }
      s.onPkg n fun k => { k with enumDone := true, placed := true }

/-- ASSIGNs sent to a package's slots in turn, each identity read at the new address, up to the first slot that stays silent
(R366-R368). -/
def State.enumerate (s : State) (n : Fin 4) : State :=
  let s := (packageDies s.span.num n).foldl (fun s d =>
    let x := s.die d
    if (s.pkg n).enumerated = d.slot.val ∧ x.boot.fitted ∧ !x.boot.testMode then
      (s.onDie d fun y => { y with boot := { y.boot with addr := BitVec.ofNat 8 d.addr, selOut := true } }).onPkg n fun k =>
        { k with enumerated := k.enumerated + 1, stored := NMap.set k.stored d.slot.val x.ident }
    else s) s
  if (s.pkg n).enumerated = 5 then s.checkPlacement n else s

/-- VMGT_IN_WINDOW: the headgate agents answer; the switch closes and the package is enumerated and checked (R206, R207, R210,
R364, R367). -/
def execVmgtInWindow (pkg : Fin 4) (t : Nat) (s : State) : Out :=
  let s := s.powerClock t
  let k := s.pkg pkg
  if k.st ≠ .poweringUp ∨ !(k.rails.any fun r => r.1 = 1) ∨ k.sw ∨ !s.wmUp then .next s
  else
    let s := s.onPkg pkg fun k => { k with sw := true, inWin := if k.inWin.contains 1 then k.inWin else k.inWin ++ [1] }
    let s := s.forEach (packageDies s.span.num pkg) fun s d =>
      s.onDie d fun x => { x with boot := { x.boot with st := if x.boot.st = .off then .inReset else x.boot.st } }
    .next (s.enumerate pkg)

/-- ASSIGN_NO_ANSWER: a slot stays silent; after three attempts it is empty and the package unplaced (R368). -/
def execAssignNoAnswer (pkg : Fin 4) (slot : Fin 5) (t : Nat) (s : State) : Out :=
  let s := s.powerClock t
  let k := s.pkg pkg
  if !k.sw ∨ k.enumDone ∨ k.enumerated ≠ slot.val ∨ !s.wmUp then .next s
  else
    let s := s.onPkg pkg fun k => { k with tries := k.tries + 1 }
    if k.tries + 1 < 3 then .next s
    else .next ((s.badIdentities pkg).leaveUnplaced pkg (some { code := 0xE902, locKind := 6, location := pkg.val }))

/-! ### Power-down (R322, R323) -/

/-- The rails event `i` of Table 13.5 disables. -/
def downRails (i : Nat) : List (Fin 11) := [[], [], [4, 5, 6, 7], [3, 2], [10], [9], [8], [1], [0]].getD i []

/-- POWERDOWN_SEQUENCE_STEP: the next event of Table 13.5: resets at 1 ms, references and core rails at 2 ms, then each rail once
the one before it is below 10 %, or after 2 ms, which is reported (R322). -/
def execPowerdownSequenceStep (pkg : Fin 4) (slow : Bool) (t : Nat) (s : State) : Out :=
  let s := s.powerClock t
  let k := s.pkg pkg
  let now := s.now
  let i := k.downSeq + 1
  let gap := if i ≤ 2 then ms else if slow then 2 * ms else 0
  if !s.wmUp ∨ k.st ≠ .poweringDown ∨ 8 < i ∨ now < k.downAt + gap then .next s
  else
    let s := if slow ∧ 3 ≤ i then
        s.forEach (downRails (i - 1)) fun s r => s.wmReport { code := 0xE70F, locKind := 5, location := 4 + 11 * pkg.val + r.val }
      else s
    let gone := downRails i
    let s := s.onPkg pkg fun k =>
      { k with downSeq := i, downAt := now, rails := k.rails.filter (fun r => !(gone.any fun g => g.val = r.1)),
               inWin := k.inWin.filter fun r => !gone.contains r, refOn := k.refOn && i < 2, gate := k.gate && i < 8 }
    if i = 1 then .next (s.assertResets pkg)
    else if i = 7 then .next ((s.darken pkg).onPkg pkg fun k => { k with sw := false })
    else .next s

/-- What waits for a power-down is decided on the state it reached: a re-arm, Redfish requests, the power-up that follows a
Watermaster restart or the return of the input (R316, R320, R337). -/
def State.afterDown (s : State) (n : Fin 4) : State :=
  let k := s.pkg n
  let s := s.onPkg n fun k => { k with asked := false, redfishWaits := 0, upAfter := false }
  let refused : Bool := k.st = .faulted
  let s := if k.asked then s.finishTray (if refused then ePkgFault else 0) [] else s
  let s := (List.range k.redfishWaits).foldl (fun s _ =>
    s.emit (.redfish (if refused then some Config.redfishRefusal else none))) s
  let now := s.now
  if !k.st.mayUp then s
  else if k.asked ∨ 0 < k.redfishWaits then s.powerUpMany [n]
  else if k.upAfter then s.planGate n now else s

/-- VHS_DISCHARGED: VHS falls below 5 V: the package reaches its state (R317, R322, Table 13.3). -/
def execVhsDischarged (pkg : Fin 4) (t : Nat) (s : State) : Out :=
  let s := s.powerClock t
  let k := s.pkg pkg
  if k.st ≠ .poweringDown ∨ k.gate then .next s
  else .next (((s.unpower pkg).settleDown pkg k.after).afterDown pkg).restartOwed

/-- A record reaches the sink once, by source die, CODE and TALLY (R401, R406). -/
def State.sinkOnce (s : State) (r : Rec) : State :=
  if s.actedOn s.sink r.key then s else (s.noteActed s.sink r.key).sinkTake r

/-- PKG_DOWN: before its reset a die sends its TRB_FEC to the sink, and the package's fields are contained (R323, R401). -/
def execPkgDown (d : DieId) (t : Nat) (s : State) : Out :=
  let s := s.powerClock t
  let k := s.pkg d.pkg
  if d.tray ≠ s.span.num ∨ k.st ≠ .poweringDown ∨ k.downSeq ≠ 0 ∨ !s.dieUp d then .next s
  else
    let s := match (s.die d).trb.fec with
      | some r => s.sinkOnce r
      | none => s
    .next (s.notices d.pkg)

/-! ### The input (R316) -/

/-- An input fault: every package is powered down and remembered, and INPUT_FAULT reported; a bring-up in progress starts over
without counting (R316, 15). -/
def State.inputFails (s : State) : State :=
  if s.input.fault then s
  else
    let s := (s.setInput { s.input with fault := true }).setWm { s.wm with firstGate := none }
    let s := s.forEach allPkgs fun s n =>
      let k := s.pkg n
      let on : Bool := k.st = .poweringUp || k.st = .on || k.st = .unreachable || k.st = .unplaced
      if on then (s.powerDown n .off).onPkg n fun k => { k with powered := true } else s
    s.wmReport { code := 0xE70C, locKind := 5 }

/-- INPUT_FAULT: the input outside 46-58 V for 100 ms (R316). -/
def execInputFault (t : Nat) (s : State) : Out :=
  let s := s.powerClock t
  if s.wmUp then .next s.inputFails else .next s

/-- The Watermaster finds gates that hardware opened: latched packages are FAULTED and reported, others are OFF after a lockout;
the field notices follow (R316, R323, R325). -/
def State.seeGates (s : State) : State :=
  let cut := s.input.lockout && !s.input.fault
  let s := s.forEach allPkgs fun s n =>
    let k := s.pkg n
    let on : Bool := k.st = .poweringUp || k.st = .on || k.st = .unreachable || k.st = .unplaced
    let new := k.latch &&& ~~~k.scanned
    let s := s.onPkg n fun k => { k with scanned := k.latch }
    let s := if new.getLsbD 0 then s.pkgFault 0xE707 n k.latch.toNat else s
    let s := if new.getLsbD 4 then s.pkgFault 0xE708 n k.latch.toNat else s
    let s := if new.getLsbD 3 then s.pkgFault 0xE709 n k.latch.toNat else s
    if on ∧ !k.gate then (s.settleDown n .off).notices n
    else if k.latch ≠ 0 ∧ k.st ≠ .poweringDown ∧ !k.gate then s.onPkg n fun k => { k with st := .faulted }
    else s
  if cut then
    ((s.setInput { s.input with fault := true }).setWm { s.wm with firstGate := none }).wmReport { code := 0xE70C, locKind := 5 }
  else s

/-- INPUT_RETURN: 1 s within range: every package that was powered at the fault and has no latch is powered up, one at a time
(R316, R348). -/
def execInputReturn (t : Nat) (s : State) : Out :=
  let s := s.powerClock t
  if !s.wmUp ∨ !(s.input.fault || s.input.lockout) then .next s
  else
    let s := s.seeGates
    let s := s.setInput { s.input with fault := false, lockout := false }
    let l := allPkgs.filter fun n => (s.pkg n).powered && (s.pkg n).latch = 0
    let s := s.forEach allPkgs fun s n => s.onPkg n fun k =>
      { k with powered := false, upAfter := k.upAfter || (k.st = .poweringDown && k.powered) }
    let now := l.filter fun n => (s.pkg n).st.mayUp
    if now.isEmpty then .next s else .next (s.powerUpMany now)

/-! ### Hiccups (R324) -/

/-- HICCUP for every field with a die of a package, contained (R324). -/
def State.hiccupNotice (s : State) (n : Fin 4) (info : Nat) : State :=
  s.forEach (s.pkgFields n) fun s f =>
    (s.wmReport { code := 0xE706, field := fnum f, locKind := 6, location := n.val, info := info }).containField f

/-- REGULATOR_HICCUP: counted from the alert line while the Watermaster runs; the first in state 1 or 2 holds the package's dies
in reset, the third within 1 s sets RAIL and powers the package down (R324). -/
def execRegulatorHiccup (pkg : Fin 4) (rail : Fin 11) (t : Nat) (s : State) : Out :=
  let s := s.powerClock t
  let k := s.pkg pkg
  let row := NMap.get k.rowHiccups rail.val 0
  if !(k.rails.any fun r => r.1 = rail.val) ∨ 8 ≤ row then .next s
  else
    let s := s.onPkg pkg fun k => { k with rowHiccups := NMap.set k.rowHiccups rail.val (row + 1) }
    if !s.wmUp then .next s
    else
      let now := s.now
      let l := (k.hiccups.filter fun a => now < a + sec) ++ [now]
      let s := s.onPkg pkg fun k => { k with hiccups := l }
      let id := 4 + 11 * pkg.val + rail.val
      if 3 ≤ l.length then .next (s.latchFault pkg 0b000100 0xE70A id)
      else if k.held.isNone ∧ (k.st = .poweringUp ∨ k.st = .on) then
        .next (((s.onPkg pkg fun k => { k with held := some now }).hiccupNotice pkg id).assertResets pkg)
      else .next s

/-- HICCUP_WINDOW_END: 1 s after the first hiccup, with the rail back in its window, the package starts again from the 39 ms event,
its dies as after a cold power-down (R165, R324). -/
def execHiccupWindowEnd (pkg : Fin 4) (inWindow : Bool) (t : Nat) (s : State) : Out :=
  let s := s.powerClock t
  let k := s.pkg pkg
  let now := s.now
  match k.held with
  | some a =>
    if !inWindow ∨ now < a + sec ∨ !s.wmUp ∨ !(k.st = .poweringUp ∨ k.st = .on) then .next s
    else
      .next (s.onPkg pkg fun k =>
        { k with held := none, hiccups := [], rowHiccups := [], st := .poweringUp, seq := if k.st = .on then 8 else min k.seq 8,
                 seqAt := now })
  | none => .next s

/-- REGULATOR_LATCHOFF: after 8 hiccups in a row a regulator latches itself off (R324). -/
def execRegulatorLatchoff (pkg : Fin 4) (rail : Fin 11) (t : Nat) (s : State) : Out :=
  let s := s.powerClock t
  if 8 ≤ NMap.get (s.pkg pkg).rowHiccups rail.val 0 then
    .next (s.onPkg pkg fun k => { k with rails := NMap.erase k.rails rail.val, inWin := k.inWin.filter (· ≠ rail) })
  else .next s

/-! ### Resets of dies (R319, R328) -/

/-- DIE_WARM_RESET (R328). -/
def execDieWarmReset (d : DieId) (t : Nat) (s : State) : Out := .next ((s.powerClock t).warmReset d)

/-- DIE_RESET_RELEASE: after a pulse of at least 100 us in state 2; in a power-up, X and then C0-C3 as Table 13.4 places them; in the
test carrier, whose rails and clock are the tester's, at once (R225, R319, R328; log entry 144). -/
def execDieResetRelease (d : DieId) (t : Nat) (s : State) : Out :=
  let s := s.powerClock t
  let k := s.pkg d.pkg
  let now := s.now
  let b := (s.die d).boot
  if d.tray = s.span.num ∧ b.testMode ∧ !k.gate then
    .next (s.onDie d fun x => { x with boot := { x.boot with st := .bootRom } })
  else if d.tray ≠ s.span.num ∨ b.st ≠ .inReset ∨ k.held.isSome ∨ !s.wmUp then .next s
  else if k.st = .on ∧ b.resetAt + 100 * us ≤ now then .next (s.releaseDie d)
  else if k.st = .poweringUp ∧ k.seqAt + ms ≤ now ∧ d.slot = 0 ∧ k.seq = 9 then
    .next ((s.releaseDie d).onPkg d.pkg fun k => { k with seq := 10, seqAt := now })
  else if k.st = .poweringUp ∧ k.seqAt + ms ≤ now ∧ d.isCompute ∧ k.seq = 10 then
    let s := s.releaseDie d
    if (computeDies s.span.num d.pkg).all fun c => (s.die c).boot.st ≠ .inReset || s.notEnabled c then .next (s.pkgOn d.pkg) else .next s
  else .next s

end Sys2Proof.Machine
end

