-- ==== Sys2Proof/Machine/Steward.lean ====
section
/-! DEFINITION. Sys2Proof/Machine/Steward.lean: the Steward's events and the power commands 0x0601-0x0604 (R294-R313). -/

namespace Sys2Proof.Machine

/-- The Steward acts on a die of its package while both run (R294). -/
def State.managed (s : State) (d : DieId) : Bool := d.tray = s.span.num && s.stewardUp d.pkg && s.runs d

/-- A die's limits follow its level: one rung below the rung in force from rung drop, rung 0 and 25 % fallow from the fallow
throttle (R302, R303). An I/O die's levels are reported only. -/
def State.throttle (s : State) (d : DieId) : State :=
  let rung := s.rungOf d
  let now := s.now
  s.onDie d fun y =>
    let p := y.pow
    let l := p.level
    let p := if 2 ≤ l then { p with limit := 0, duty := max 25 p.duty, dutyAt := now, limitRaised := now }
      else if l = 1 then { p with limit := min p.limit (rung - 1), limitRaised := now } else p
    { y with pow := p }

/-- Orderly shutdown of a package: THERMAL_SHUTDOWN and a flush for every field with a die there, then a cold power-down that
leaves state 5 (R305). -/
def State.orderlyShutdown (s : State) (n : Fin 4) : State :=
  let s := s.forEach (s.pkgFields n) fun s f =>
    (s.report ⟨s.span.num, n, 0⟩ { code := 0xE705, field := fnum f }).containField f
  s.powerDown n .shutDown

/-- TELEMETRY_RECORD: the Steward receives a die's 1 ms sample: levels, limits, estimate and caps (R294, R295, R301-R303, R305,
R308, R310). -/
def execTelemetryRecord (d : DieId) (x : Telemetry) (t : Nat) (s : State) : Out :=
  let s := s.clock t
  if !s.managed d then .next s
  else
    let now := s.now
    let before := (s.die d).pow.levels
    let s := s.onDie d fun y =>
      let p := y.pow
      let near : Bool := now ≤ p.lastTelemetry + 2 * ms
      { y with pow := { p with levels := p.sampled x d.isCompute now, lastSample := x, lastTelemetry := now, lost := false,
                               samples := if near then p.samples + 1 else 1,
                               limitRaised := if p.lost then now else p.limitRaised, dutyAt := if p.lost then now else p.dutyAt } }
    let shut : Bool := ((s.die d).pow.levels.any fun e => e.1 = 3) && !(before.any fun e => e.1 = 3)
    let s := if d.isCompute then (s.throttle d).estimate d x else s
    let s := if shut then s.orderlyShutdown d.pkg else s
    .next (if d.isCompute then s.judge d.pkg false else s)

/-- TELEMETRY_LOST: no record of a compute die for 3 periods: it is treated as at 100 degrees (R295). -/
def execTelemetryLost (d : DieId) (t : Nat) (s : State) : Out :=
  let s := s.clock t
  let p := (s.die d).pow
  if !d.isCompute ∨ d.tray ≠ s.span.num ∨ !s.stewardUp d.pkg ∨ p.lost ∨ s.now < p.lastTelemetry + 3 * ms then .next s
  else
    let s := s.onDie d fun y => { y with pow := { y.pow with lost := true, samples := 0 } }
    .next ((s.throttle d).report (ioOf d) { code := 0xE701, location := d.addr })

/-- THERMAL_LEVEL_LEAVE: levels whose every sample for 100 ms was at least 3 degrees below are left (R301). -/
def execThermalLevelLeave (d : DieId) (t : Nat) (s : State) : Out :=
  let s := s.clock t
  let now := s.now
  let p := (s.die d).pow
  let rest := p.leave now
  if !s.managed d ∨ rest = p.levels then .next s
  else
    let q := { p with levels := rest }
    .next (s.onDie d fun y =>
      { y with pow := { q with dutyAt := if p.level ≥ 2 ∧ q.level < 2 then now else q.dutyAt,
                               limitRaised := if q.level = 0 then now else q.limitRaised } })

/-- LIMIT_RAISE_DUE: 100 ms after the last one, a thermal limit rises by one rung on a die at normal, a fallow duty falls by
25 % on a die below the fallow throttle, or a cap limit rises by one level that has fitted for 100 ms (R302, R303, R308). -/
def execLimitRaiseDue (f : Fin 8) (d : DieId) (k : LimitKind) (t : Nat) (s : State) : Out :=
  let s := s.clock t
  let now := s.now
  let p := (s.die d).pow
  if !s.managed d ∨ !(s.field f).dies.contains d then .next s
  else
    match k with
    | .thermal =>
      if p.level = 0 ∧ p.limit < 7 ∧ p.limitRaised + 100 * ms ≤ now then
        .next (s.onDie d fun y => { y with pow := { y.pow with limit := p.limit + 1, limitRaised := now } })
      else .next s
    | .duty =>
      if p.level < 2 ∧ 0 < p.duty ∧ p.dutyAt + 100 * ms ≤ now then
        .next (s.onDie d fun y => { y with pow := { y.pow with duty := p.duty - 25, dutyAt := now } })
      else .next s
    | .cap =>
      let c := s.fieldCap f d.pkg
      match c.fitSince with
      | some a =>
        let apart : Bool := match c.raised with | some r => r + 100 * ms ≤ now | none => true
        if c.level < 7 ∧ a + 100 * ms ≤ now ∧ apart = true then
          let c := { c with level := c.level + 1, raised := some now, fitSince := none }
          .next ((s.onField f fun x => { x with caps := NMap.set x.caps (s.capKey d.pkg) c }).flagsChanged d.pkg s)
        else .next s
      | none => .next s

/-- THERMAL_TRIP: a die's comparator drives the trip line: the package's gate opens and TRIP is latched (R304, R314, R315). -/
def execThermalTrip (d : DieId) (t : Nat) (s : State) : Out :=
  let s := s.powerClock t
  if d.tray = s.span.num ∧ (s.pkg d.pkg).gate then .next (s.collapse d.pkg 0b001000) else .next s

/-- CAP_RECEIVE: a Steward receives the caps of a source; none reach an isolated package (R306-R309, R371). -/
def execCapReceive (pkg : Fin 4) (source : Fin 3) (trayCap pkgCap : Nat) (t : Nat) (s : State) : Out :=
  let s := s.clock t
  if (s.pkg pkg).st = .unreachable then .next s else .next (s.receiveCap pkg source.val trayCap pkgCap)

/-- REGULATOR_SETTLED: a core regulator settles at its target (R298, R299). -/
def execRegulatorSettled (d : DieId) (t : Nat) (s : State) : Out :=
  .next ((s.clock t).onDie d fun y => { y with pow := { y.pow with settled := true } })

/-- CAL_WINDOW_MEASURE: the measurement of a calibration window sets the leakage and the offset; the third removes the guard
band, and one while STALE clears it (R311-R313). -/
def execCalWindowMeasure (d : DieId) (railMa : Nat) (t : Nat) (s : State) : Out :=
  let s := s.clock t
  if !s.managed d ∨ !d.isCompute then .next s
  else
    let r := s.rungOf d
    let v := s.targetMv d r
    let now := s.now
    let s' := s.onDie d fun y =>
      let p := y.pow
      { y with pow := { p with ileak := Config.calLeak railMa v r p.lastSample.tj, offset := Config.calOffset railMa v r p.lastSample.tj,
                               windows := p.windows + 1, guard := p.guard && !p.stale && p.windows + 1 < 3, stale := false,
                               lastWindow := now } }
    .next ((s'.judge d.pkg false).flagsChanged d.pkg s)

/-- CAL_STALE: 5 s without a calibration window: the coefficients freeze, STALE and the guard band are set (R313). -/
def execCalStale (d : DieId) (t : Nat) (s : State) : Out :=
  let s := s.clock t
  let p := (s.die d).pow
  if !s.managed d ∨ !d.isCompute ∨ p.stale ∨ s.now < p.lastWindow + 5 * sec then .next s
  else
    let s' := (s.onDie d fun y => { y with pow := { y.pow with stale := true } }).report (ioOf d)
      { code := 0xE704, field := if s.fieldNumOf d = 0 then 0xFF else s.fieldNumOf d, location := d.addr }
    .next ((s'.flagsChanged d.pkg s).judge d.pkg false)

/-! ### Power commands -/

/-- A power in mW from two monitor points in mV and mA (Table 13.6). -/
def State.pointPower (s : State) (v i : Nat) : Nat :=
  ((NMap.get s.wm.mon v {}).reading * (NMap.get s.wm.mon i {}).reading / 1000).toNat

/-- The input power of a package, VHS x IHS (Table 13.9). -/
def State.pkgInput (s : State) (n : Fin 4) : Nat := s.pointPower (4 + 11 * n.val) (52 + n.val)

/-- The effective tray cap in W, 0 for none (R306). -/
def State.trayCapNow (s : State) : Nat := (lowestCap [s.capTray, s.wm.redfishTray, s.protTrayCap]).getD 0

/-- The effective cap of a package in W, 0 for none (R306). -/
def State.pkgCapNow (s : State) (n : Fin 4) : Nat :=
  ((packageCap [s.capTray, s.wm.redfishTray, s.protTrayCap]
    [NMap.get s.capPkg n.val 0, NMap.get s.wm.redfishPkg n.val 0, s.protPkgCap n]).getD 0) / 1000

/-- POWER_READ: the flags hold STALE of KPn in bit n and capped in bit 4 + n, a layout no rule states (log entry 50). -/
def execPowerRead (r : MReq) (s : State) : Out :=
  .next (s.serve r { opcode := 0x0601, len := 0 } (.powerRead r) noEarly fun s =>
    s.reply r 0x0601 0 (le 4 (s.pointPower 0 48) ++ le 4 s.trayCapNow ++ (allPkgs.flatMap fun n => le 4 (s.pkgInput n))
      ++ (allPkgs.flatMap fun n => le 4 (s.pkgCapNow n))
      ++ le 4 (maskOf ((allPkgs.filter s.pkgStale).map (·.val) ++ (allPkgs.filter s.pkgCapped).map fun n => 4 + n.val))))

/-- Whether caps lie within the ranges of R306; 0 sets none. -/
def trayCapOk (w : Nat) : Bool := w = 0 || (5880 ≤ w && w ≤ 10800)
def pkgCapOk (w : Nat) : Bool := w = 0 || (1100 ≤ w && w ≤ 2330)

/-- POWER_CAP: the mailbox's caps; they reach the Stewards by CAP_RECEIVE (R306). -/
def execPowerCap (r : MReq) (tray : Nat) (pkgs : List Nat) (s : State) : Out :=
  .next (s.serve r { opcode := 0x0602, len := 20, need := .tray, acts := some 0 } (.powerCap r tray pkgs) noEarly fun s =>
    if trayCapOk tray ∧ pkgs.length = 4 ∧ pkgs.all pkgCapOk = true then
      ((s.setCapTray tray).setCapPkg ((List.range 4).zip pkgs)).reply r 0x0602 0 []
    else s.reply r 0x0602 ePwrRange [])

/-- FIELD_RUNG: the owner's ceiling; answered once the lowest limit is in force (R16, R296). -/
def execFieldRung (r : MReq) (field ceiling : Nat) (s : State) : Out :=
  .next (s.serve r { opcode := 0x0603, len := 4, need := .scope (fieldScope field), acts := fieldScope field }
    (.fieldRung r field ceiling)
    (fun _ => if (fieldOfNum field).isNone ∨ 7 < ceiling then some eArgRange else none) fun s =>
    match fieldOfNum field with
    | none => s.reply r 0x0603 eArgRange []
    | some f =>
      if !(s.field f).live then s.reply r 0x0603 eFieldState []
      else
        let s := (s.onField f fun x => { x with ceiling := ceiling }).reviewLimits f
        if (s.field f).rung = s.wantedRung f then s.reply r 0x0603 0 (le 1 (s.field f).rung ++ le 3 0)
        else s.holdField f r 0x0603)

/-- CAL_OFF: the expert calibration-off setting of a field (R33, R313). -/
def execCalOff (r : MReq) (field set : Nat) (s : State) : Out :=
  .next (s.serve r { opcode := 0x0604, len := 4, expert := true, need := .either (fieldScope field), acts := fieldScope field }
    (.calOff r field set) (fun _ => if (fieldOfNum field).isNone ∨ 1 < set then some eArgRange else none) fun s =>
    match fieldOfNum field with
    | none => s.reply r 0x0604 eArgRange []
    | some f =>
      if !(s.field f).live then s.reply r 0x0604 eFieldState []
      else (s.onField f fun x => { x with calOff := set = 1 }).reply r 0x0604 0 [])

end Sys2Proof.Machine
end

