-- ==== Sys2Proof/Machine/Scan.lean ====
section
/-! DEFINITION. Sys2Proof/Machine/Scan.lean: the scan of the 96 monitor points, protective caps, cooling (R325-R327, R333, R339,
R435-R437, Table 13.6). A reading is in mV, mA or degrees (log entry 51); entry 96 of the list, where it is given, is the number
of fan modules that report speed. -/

namespace Sys2Proof.Machine

/-- What a reading is against the limits of its point: beyond the warning, beyond the fault, how long the warning condition must
have held, and how long the fault condition, two scans where no time is stated (R326). -/
structure Verdict where
  warn : Bool := false
  fault : Bool := false
  warnFor : Nat := 0
  faultFor : Option Nat := none
deriving DecidableEq, Repr

/-- The nominal value of a rail of a package in mV; a core rail's is its target (R318). -/
def State.nominal (s : State) (n : Fin 4) (rail : Nat) : Nat :=
  if 4 ≤ rail ∧ rail ≤ 7 then (s.die ⟨s.span.num, n, Fin.ofNat 5 (rail - 3)⟩).pow.target
  else [54000, 800, 750, 750, 0, 0, 0, 0, 1800, 1100, 400].getD rail 0

/-- Whether a rail is judged: enabled and in its window once; a core rail's samples are skipped while its regulator slews (R298,
R318, R326). -/
def State.railLive (s : State) (n : Fin 4) (rail : Nat) : Bool :=
  let k := s.pkg n
  (k.rails.any fun r => r.1 = rail) && (k.inWin.any fun w => w.val = rail) &&
    (!(4 ≤ rail && rail ≤ 7) || (s.die ⟨s.span.num, n, Fin.ofNat 5 (rail - 3)⟩).pow.settled)

/-- The package of a monitor point, for those that have one (R326). -/
def pointPkg (i : Nat) : Fin 4 :=
  if i < 48 then Fin.ofNat 4 ((i - 4) / 11) else if i < 56 then Fin.ofNat 4 (i - 52) else if i < 72 then Fin.ofNat 4 ((i - 56) / 4)
  else if i < 80 then Fin.ofNat 4 (i - 76) else if i < 88 then Fin.ofNat 4 ((i - 80) / 2) else if i < 92 then Fin.ofNat 4 (i - 88)
  else Fin.ofNat 4 (i - 92)

/-- Limits of a point, in hundredths of its unit: beyond a warning limit, beyond a fault limit (Table 13.6). -/
structure Limits where
  warnLow : Option Int := none
  warnHigh : Option Int := none
  faultLow : Option Int := none
  faultHigh : Option Int := none
deriving DecidableEq, Repr

/-- Limits at 3 % and 5 % about a nominal value. -/
def aboutNominal (x : Nat) : Limits :=
  { warnLow := some (97 * x), warnHigh := some (103 * x), faultLow := some (95 * x), faultHigh := some (105 * x) }

/-- An upper warning limit and an upper fault limit of a whole number each. -/
def upTo (w f : Int) : Limits := { warnHigh := some (100 * w), faultHigh := some (100 * f) }

/-- The limits of a point (Table 13.6, R437); `v54` is the input that VHS is held against. -/
def State.limits (s : State) (v54 : Int) (i : Nat) : Limits :=
  if i = 0 then { warnLow := some 4700000, warnHigh := some 5700000, faultLow := some 4600000, faultHigh := some 5800000 }
  else if i ≤ 3 then aboutNominal ([12000, 3300, 1800].getD (i - 1) 0)
  else if i < 48 then
    (if (i - 4) % 11 = 0 then { warnLow := some (95 * v54), faultLow := some (90 * v54) }
     else aboutNominal (s.nominal (pointPkg i) ((i - 4) % 11)))
  else if i = 48 then { warnHigh := some 23500000 }
  else if i = 49 then { warnHigh := some 12500000 }
  else if i = 50 then
    { warnLow := if 20 < s.wm.fanDuty then some (20000 * (s.wm.fansFitted : Int)) else none,
      warnHigh := some (350000 * (s.wm.fansFitted : Int)) }
  else if i = 51 then { warnLow := some 50000, warnHigh := some 800000 }
  else if i < 56 then upTo 52000 60000
  else if i < 72 then upTo 620000 680000
  else if i = 72 then upTo 40 45
  else if i = 73 then upTo 60 65
  else if i = 74 then upTo 35 45
  else if i = 75 then upTo 85 100
  else if i < 80 then upTo 100 125
  else if i < 88 then upTo 105 120
  else if i < 92 then upTo 60 70
  else { warnHigh := some 10000 }

/-- Whether a reading lies beyond a lower or an upper limit. -/
def beyond (x : Int) (low high : Option Int) : Bool :=
  (match low with | some l => decide (100 * x < l) | none => false) || (match high with | some h => decide (h < 100 * x) | none => false)

/-- Whether hardware and not the scan acts on a point's fault: the breaker, the regulators' overcurrent, the gate transistors
(Table 13.6). -/
def hardwareFault (i : Nat) : Bool := (52 ≤ i && i < 72) || (76 ≤ i && i < 80)

/-- How long the warning of a point must have held, and its fault; no time where two scans decide (Table 13.6, R326). -/
def warnTime (i : Nat) : Nat := if i = 48 ∨ (52 ≤ i ∧ i < 56) then sec else if 56 ≤ i ∧ i < 72 then 100 * ms else 0
def faultTime (i : Nat) : Option Nat :=
  if i = 0 then some (100 * ms) else if i = 72 ∨ i = 73 ∨ (88 ≤ i ∧ i < 92) then some (10 * sec) else none

/-- Whether a point is judged now: its rail is live, its die can be reached (R318, R326). -/
def State.judged (s : State) (i : Nat) : Bool :=
  if 4 ≤ i ∧ i < 48 then s.railLive (pointPkg i) ((i - 4) % 11)
  else if 92 ≤ i then (s.pkg (pointPkg i)).sw && (s.pkg (pointPkg i)).st ≠ .unreachable
  else true

/-- A reading against Table 13.6 and R437; none for a point that is not judged now. -/
def State.verdict (s : State) (v54 : Int) (i : Nat) (x : Int) : Option Verdict :=
  if !s.judged i then none
  else
    let l := s.limits v54 i
    some { warn := beyond x l.warnLow l.warnHigh, fault := !hardwareFault i && beyond x l.faultLow l.faultHigh,
           warnFor := warnTime i, faultFor := faultTime i }

/-- A point after a scan: warnings entered once their condition has held, cleared after 10 scans clear of it; the fault condition
counted in scans and time (R326). -/
def Mon.scan (m : Mon) (v : Verdict) (x : Int) (now : Nat) : Mon :=
  let warnSince := if v.warn then some (m.warnSince.getD now) else none
  let faultSince := if v.fault then some (m.faultSince.getD now) else none
  let entered : Bool := match warnSince with | some a => a + v.warnFor ≤ now | none => false
  let clear := if m.warned ∧ !v.warn then m.clear + 1 else 0
  let beyond := if v.fault then m.beyond + 1 else 0
  let held : Bool := match faultSince, v.faultFor with
    | some a, some d => a + d ≤ now
    | some _, none => 2 ≤ beyond
    | none, _ => false
  { reading := x, warned := (m.warned || entered) && clear < 10, clear := if clear < 10 then clear else 0, beyond := beyond,
    faulted := v.fault && (m.faulted || held), warnSince := warnSince, faultSince := faultSince }

/-- A reading as INFO [63:32] holds it. -/
def infoReading (i : Nat) (x : Int) : Nat := i + 4294967296 * (BitVec.ofInt 32 x).toNat

/-- Protective caps reach every Steward that runs and can be reached (R306, R327, R371). -/
def State.sendProtective (s : State) : State :=
  s.forEach allPkgs fun s n => if (s.pkg n).st = .unreachable then s else s.receiveCap n 2 s.protTrayCap (s.protPkgCap n)

/-- The action of a confirmed fault (Table 13.6). -/
def State.faultAction (s : State) (i : Nat) (x : Int) : State :=
  let n := pointPkg i
  let now := s.now
  if i = 0 then s.inputFails
  else if i ≤ 3 then s.wmReport { code := 0xE70D, locKind := 5, location := i }
  else if i < 48 then
    (if (i - 4) % 11 = 0 then s.latchFault n 0b000001 0xE707 ((s.pkg n).latch ||| 1).toNat else s.latchFault n 0b000100 0xE70A i)
  else if i = 72 ∨ i = 73 then (s.onWm fun w => { w with protTray := some now }).sendProtective
  else if i = 74 ∨ i = 75 then s.wmReport { code := 0xE710, locKind := 5, location := i, info := infoReading i x }
  else if 80 ≤ i ∧ i < 88 then s.latchFault n 0b100000 0xE70B i
  else if 88 ≤ i ∧ i < 92 then (s.onWm fun w => { w with protPkg := NMap.set w.protPkg n.val now }).sendProtective
  else s

/-- One point of a scan. A point that is not judged keeps its reading only. -/
def State.scanPoint (s : State) (v54 : Int) (i : Nat) (x : Int) : State :=
  let m := NMap.get s.wm.mon i {}
  match s.verdict v54 i x with
  | none => s.onWm fun w => { w with mon := NMap.set w.mon i { reading := x } }
  | some v =>
    let m' := m.scan v x s.now
    let s := s.onWm fun w => { w with mon := NMap.set w.mon i m' }
    let s := if m'.warned ∧ !m.warned then s.wmReport { code := 0xE70E, locKind := 5, location := i, info := i } else s
    if m'.faulted ∧ !m.faulted then s.faultAction i x else s

/-- A protective cap's 60 s start again at a scan that is not below the warning threshold; two fan modules missing set the tray's
(R327, R436). -/
def State.renewCaps (s : State) : State :=
  let t := fun (i : Nat) => (NMap.get s.wm.mon i {}).reading
  let now := s.now
  let missing : Bool := s.wm.fansFitted ≤ 4
  let new : Bool := missing && s.wm.protTray.isNone
  let hot : Bool := missing || 40 ≤ t 72 || 60 ≤ t 73
  let s := s.onWm fun w =>
    { w with protTray := if new then some now else if hot then w.protTray.map fun _ => now else w.protTray,
             protPkg := w.protPkg.map fun e => if 60 ≤ t (88 + e.1) then (e.1, now) else e }
  if new then s.sendProtective else s

/-- CAP_EXCEEDED: a package's input more than 10 % above its effective cap for 1 s, once (R333). -/
def State.capWatch (s : State) (n : Fin 4) : State :=
  let cap := s.pkgCapNow n
  let now := s.now
  if 0 < cap ∧ 1100 * cap < s.pkgInput n then
    match NMap.get s.wm.capOver n.val (now, false) with
    | (a, told) =>
      let late : Bool := a + sec ≤ now
      let s := s.onWm fun w => { w with capOver := NMap.set w.capOver n.val (a, told || late) }
      if late ∧ !told then s.wmReport { code := 0xE703, locKind := 6, location := n.val } else s
  else s.onWm fun w => { w with capOver := NMap.erase w.capOver n.val }

/-- Fan and pump duty: the hottest of T_PLATE, T_OUTLET and T_AIR against its warning threshold less 10 degrees adds 10 % a degree
to 20 % and 40 %; full duty until 10 scans after a restart; fans full with a module missing (R339, R435, R436, Table 14.6). -/
def State.cool (s : State) : State :=
  let t := fun (i : Nat) => (NMap.get s.wm.mon i {}).reading
  let above : Nat := ([t 73 - 50, t 74 - 25, t 88 - 50, t 89 - 50, t 90 - 50, t 91 - 50].map Int.toNat).foldl max 0
  s.onWm fun w =>
    let n := w.scansSince + 1
    let full : Bool := w.fullCooling && n < 10
    { w with scansSince := n, fullCooling := full,
             fanDuty := if full ∨ w.fansFitted < 6 then 100 else min 100 (20 + 10 * above),
             pumpDuty := if full then 100 else min 100 (40 + 10 * above) }

/-- A whole scan: latches first, then the points in order, caps and cooling (R325-R327, R333, R339, R435-R437). -/
def State.scanAll (s : State) (readings : List Int) : State :=
  let s := s.seeGates
  let s := match readings[96]? with
    | some n => s.onWm fun w => { w with fansFitted := n.toNat }
    | none => s
  let v54 := readings.getD 0 (NMap.get s.wm.mon 0 {}).reading
  let s := (readings.take 96).zipIdx.foldl (fun s e => s.scanPoint v54 e.2 e.1) s
  (s.renewCaps.forEach allPkgs State.capWatch).cool

/-- MONITOR_SCAN: the Watermaster scans the points every 10 ms; not while it is away or runs its recovery image (R326, R335,
R340). -/
def execMonitorScan (readings : List Int) (t : Nat) (s : State) : Out :=
  let s := s.powerClock t
  if s.wmUp then .next (s.scanAll readings) else .next s

/-- PROTECTIVE_CAP_CLEAR: a protective cap is removed after 60 s with every scan below the warning threshold (R327). -/
def execProtectiveCapClear (c : CapTarget) (t : Nat) (s : State) : Out :=
  let s := s.powerClock t
  let since := match c with
    | .tray => s.wm.protTray
    | .pkg n => (s.wm.protPkg.find? fun e => e.1 = n.val).map (·.2)
  match since with
  | none => .next s
  | some a =>
    if !s.wmUp ∨ s.now < a + 60 * sec then .next s
    else
      let s := s.onWm fun w => match c with
        | .tray => { w with protTray := none }
        | .pkg n => { w with protPkg := NMap.erase w.protPkg n.val }
      .next s.sendProtective

end Sys2Proof.Machine
end

