-- ==== Sys2Proof/Machine/Rack.lean ====
section
/-! DEFINITION. Sys2Proof/Machine/Rack.lean: package power commands of the mailbox and the Redfish requests of the rack (R315,
R320, R322, R329-R332, R355, R358). A Redfish request draws one answer: carried out, or refused with an HTTP status. -/

namespace Sys2Proof.Machine

/-! ### Package power (R320, R322) -/

/-- A package is powered up on a command, or has its rails on already (R320, R348). -/
def State.rearm (s : State) (n : Fin 4) : State := if (s.pkg n).st.mayUp then s.powerUpMany [n] else s

/-- PKG_REARM and PKG_POWER on: a faulted package is refused, a power-down is waited for (R320). -/
def State.rearmCommand (s : State) (r : MReq) (opcode : Nat) (n : Fin 4) : State :=
  match (s.pkg n).st with
  | .faulted => s.reply r opcode ePkgFault []
  | .poweringDown =>
    let s := s.onPkg n fun k => { k with asked := true }
    s.setTrayHolder (some { req := r, opcode := opcode })
  | _ => (s.rearm n).reply r opcode 0 []

/-- E_ARG_RANGE for a package byte above 3. -/
def pkgRange (pkg : Nat) (_ : State) : Option Nat := if (pkgOf pkg).isNone then some eArgRange else none

/-- PKG_REARM (R320). -/
def execPkgRearm (r : MReq) (pkg : Nat) (s : State) : Out :=
  .next (s.serve r { opcode := 0x0605, len := 4, need := .tray, acts := some 0, wm := true } (.pkgRearm r pkg) (pkgRange pkg)
    fun s => match pkgOf pkg with
      | some n => s.rearmCommand r 0x0605 n
      | none => s.reply r 0x0605 eArgRange [])

/-- PKG_POWER with on 1 (R320). -/
def execPkgPowerOn (r : MReq) (pkg : Nat) (s : State) : Out :=
  .next (s.serve r { opcode := 0x0606, len := 4, expert := true, need := .tray, acts := some 0, wm := true } (.pkgPowerOn r pkg)
    (pkgRange pkg) fun s => match pkgOf pkg with
      | some n => s.rearmCommand r 0x0606 n
      | none => s.reply r 0x0606 eArgRange [])

/-- PKG_POWER with on 0: E_FIELD_BUSY while a field holds a die of the package; else the power-down to state 7 begins (R322,
Table 10.6). -/
def execPkgPowerOff (r : MReq) (pkg : Nat) (s : State) : Out :=
  .next (s.serve r { opcode := 0x0606, len := 4, expert := true, need := .tray, acts := some 0, wm := true } (.pkgPowerOff r pkg)
    (pkgRange pkg) fun s => match pkgOf pkg with
      | none => s.reply r 0x0606 eArgRange []
      | some n =>
        if (s.pkgFields n).isEmpty then (s.reply r 0x0606 0 []).powerDown n .heldOff else s.reply r 0x0606 eFieldBusy [])

/-! ### Redfish reset actions (R331) -/

/-- A Redfish request: no answer while the Watermaster restarts or, but for updates, runs its recovery image (R336, R340). -/
def State.rack (s : State) (t : Nat) (body : State → State) : Out :=
  let s := s.powerClock t
  if s.wmUp then .next (body s) else .next s

/-- The answer of a request that is carried out, and of one that is refused. -/
def State.done (s : State) : State := s.emit (.redfish none)
def State.refused (s : State) (http : Nat) : State := s.emit (.redfish (some http))

/-- The tray On action: every package in state 0, 5 or 7 is powered up, one at a time; a halted tray starts a new series with the
count at 0 (R331, R351). -/
def State.trayOn (s : State) : State :=
  let s := if s.wm.halted then s.onWm fun w => { w with halted := false, failedBringups := 0 } else s
  let l := allPkgs.filter fun n => (s.pkg n).st.mayUp
  if l.isEmpty then s else s.powerUpMany l

/-- The tray ForceOff action: every package goes to state 7; a bring-up in progress is at an end (R331; log entry 54). -/
def State.trayOff (s : State) : State :=
  (s.downAll .heldOff).onWm fun w => { w with firstGate := none, retryFrom := none, owed := none, cycleFrom := none }

/-- REDFISH_TRAY_ON (R331). -/
def execRedfishTrayOn (t : Nat) (s : State) : Out := s.rack t fun s => s.done.trayOn

/-- REDFISH_TRAY_FORCEOFF (R331). -/
def execRedfishTrayForceoff (t : Nat) (s : State) : Out := s.rack t fun s => s.trayOff.done

/-- REDFISH_TRAY_POWERCYCLE: ForceOff, then On after 1 s (R331). -/
def execRedfishTrayPowercycle (t : Nat) (s : State) : Out :=
  s.rack t fun s => let now := s.now; (s.trayOff.onWm fun w => { w with cycleFrom := some now }).done

/-- POWERCYCLE_ON_DELAY (R331). -/
def execPowercycleOnDelay (t : Nat) (s : State) : Out :=
  let s := s.powerClock t
  match s.wm.cycleFrom with
  | some a =>
    if !s.wmUp ∨ s.now < a + sec then .next s
    else .next ((s.onWm fun w => { w with cycleFrom := none }).trayOn)
  | none => .next s

/-- REDFISH_PKG_ON, as PKG_REARM; a request for a package in state 3 is answered when it is decided (R320). -/
def execRedfishPkgOn (pkg : Fin 4) (t : Nat) (s : State) : Out :=
  s.rack t fun s => match (s.pkg pkg).st with
    | .faulted => s.refused Config.redfishRefusal
    | .poweringDown => s.onPkg pkg fun k => { k with redfishWaits := k.redfishWaits + 1 }
    | _ => s.done.rearm pkg

/-- REDFISH_PKG_FORCEOFF (R331). -/
def execRedfishPkgForceoff (pkg : Fin 4) (t : Nat) (s : State) : Out := s.rack t fun s => (s.powerDown pkg .heldOff).done

/-- REDFISH_PKG_GRACEFULSHUTDOWN: 409 while any field holds a die of the package (R331). -/
def execRedfishPkgGracefulshutdown (pkg : Fin 4) (t : Nat) (s : State) : Out :=
  s.rack t fun s => if (s.pkgFields pkg).isEmpty then (s.powerDown pkg .heldOff).done else s.refused 409

/-- REDFISH_PKG_FORCERESTART: a warm reset of the package's five dies (R328, R331). -/
def execRedfishPkgForcerestart (pkg : Fin 4) (t : Nat) (s : State) : Out :=
  s.rack t fun s => (s.forEach (packageDies s.span.num pkg) State.warmReset).done

/-- REDFISH_RESET_UNSUPPORTED: 400 (R331). -/
def execRedfishResetUnsupported (s : State) : Out := if s.wmUp then .next (s.refused 400) else .next s

/-! ### Caps, faults, locates (R315, R332, R358) -/

/-- The Redfish caps reach every Steward that runs and can be reached (R332, R371). -/
def State.sendRedfish (s : State) : State :=
  s.forEach allPkgs fun s n =>
    if (s.pkg n).st = .unreachable then s else s.receiveCap n 1 s.wm.redfishTray (NMap.get s.wm.redfishPkg n.val 0)

/-- REDFISH_CAP: 400 outside the ranges of R306; an accepted cap reaches the Stewards before the answer (R332). -/
def execRedfishCap (c : CapTarget) (watts : Nat) (t : Nat) (s : State) : Out :=
  s.rack t fun s => match c with
    | .tray =>
      if trayCapOk watts then ((s.onWm fun w => { w with redfishTray := watts }).sendRedfish).done else s.refused 400
    | .pkg n =>
      if pkgCapOk watts then
        ((s.onWm fun w => { w with redfishPkg := NMap.set w.redfishPkg n.val watts }).sendRedfish).done
      else s.refused 400

/-- WMP_PKGFAULT [5:0] of a package are cleared: state 4 becomes state 7, and nothing powers up (R315). -/
def State.clearLatch (s : State) (n : Fin 4) : State :=
  s.onPkg n fun k =>
    { k with latch := 0, scanned := 0, railId := 0, st := if k.st = .faulted then .heldOff else k.st,
             after := if k.after = .faulted then .heldOff else k.after }

/-- REDFISH_CLEAR_FAULT (R315). -/
def execRedfishClearFault (pkg : Fin 4) (t : Nat) (s : State) : Out := s.rack t fun s => (s.clearLatch pkg).done

/-- A locate is set at an instant, or cleared (R358). -/
def Wm.locate (w : Wm) (l : LocateTarget) (at_ : Option Nat) : Wm :=
  let put := fun (m : NMap Nat) (k : Nat) => match at_ with | some a => NMap.set m k a | none => NMap.erase m k
  match l with
  | .tray => { w with locTray := at_ }
  | .pkg n => { w with locPkg := put w.locPkg n.val }
  | .cage n => { w with locCage := put w.locCage n.val }

/-- REDFISH_LOCATE (R358). -/
def execRedfishLocate (l : LocateTarget) (on : Bool) (t : Nat) (s : State) : Out :=
  s.rack t fun s => let now := s.now; (s.onWm fun w => w.locate l (if on then some now else none)).done

/-! ### The update service (R329, R345, R348, R353, R355) -/

/-- A request of the update service, which the recovery image serves as well (R336, R340). -/
def State.update (s : State) (t : Nat) (body : State → State) : Out :=
  let s := s.powerClock t
  if s.wmAlive then .next (body s) else .next s

/-- Whether a bring-up is in progress: under way, between two attempts, or about to begin in a pending bank (R345, R350). -/
def Wm.bringingUp (w : Wm) : Bool := w.firstGate.isSome || w.retryFrom.isSome || w.owed.isSome

/-- Whether a staging is refused as busy; `mailbox` for one from the mailbox (R345). -/
def Wm.stagingBusy (w : Wm) (mailbox : Bool) : Bool :=
  w.staging.isSome || w.active.st = .trial || w.bringingUp || (w.recovery && mailbox)

/-- A staging begins: the other bank is overwritten, whatever its state (R345). -/
def State.stage (s : State) (len : Option Nat) : State :=
  s.onWm fun w => { w.onOther (fun _ => { st := .staging }) with staging := some len }

/-- The STAGED other bank becomes PENDING, or the status that refuses it: E_FW_BUSY while a staging runs, E_FW_NONE where there is
no STAGED bank (R264, R348; log entry 61). -/
def Wm.activate (w : Wm) : Nat ⊕ Wm :=
  if w.staging.isSome then .inl eFwBusy
  else if w.other.st = .staged then .inr (w.onOther fun b => { b with st := .pending })
  else .inl eFwNone

/-- The previously active bank becomes PENDING, if it is valid; E_FW_BUSY while a staging overwrites it (R264, R353; log entry
61). -/
def Wm.rollback (w : Wm) : Nat ⊕ Wm :=
  if w.staging.isSome then .inl eFwBusy
  else if w.other.valid then .inr (w.onOther fun b => { b with st := .pending })
  else .inl eFwNone

/-- REDFISH_UPDATE_PUSH: a one-time image, or a staging; 409 where FW_STAGE would be busy (R354, R355). -/
def execRedfishUpdatePush (oneTime : Bool) (bundle : Dword) (t : Nat) (s : State) : Out :=
  s.update t fun s =>
    if s.wm.stagingBusy false then s.refused 409
    else if oneTime then (s.onWm fun w => { w with oneTime := some bundle }).done
    else (s.stage none).done

/-- REDFISH_FW_ACTIVATE (R355). -/
def execRedfishFwActivate (t : Nat) (s : State) : Out :=
  s.update t fun s => match s.wm.activate with
    | .inr w => (s.setWm w).done
    | .inl _ => s.refused Config.redfishRefusal

/-- REDFISH_FW_ROLLBACK (R355). -/
def execRedfishFwRollback (t : Nat) (s : State) : Out :=
  s.update t fun s => match s.wm.rollback with
    | .inr w => (s.setWm w).done
    | .inl _ => s.refused Config.redfishRefusal

/-- REDFISH_RECOVERY_REQUEST: the recovery image at the next tray power-up (R329). -/
def execRedfishRecoveryRequest (s : State) : Out :=
  if s.wmAlive then .next ((s.onWm fun w => { w with recoveryAsked := true }).done) else .next s

end Sys2Proof.Machine
end

