-- ==== Sys2Proof/Machine/Service.lean ====
section
/-! DEFINITION. Sys2Proof/Machine/Service.lean: the Watermaster's service: firmware commands 0x0901-0x0905, restarts, the watchdog,
heartbeats, the button, locates and staging (R334-R359). -/

namespace Sys2Proof.Machine

/-! ### Firmware commands (R343-R348, R353) -/

/-- Bank state codes (Table 14.4). -/
def BankSt.code : BankSt → Nat
  | .empty => 0
  | .staging => 1
  | .staged => 2
  | .pending => 3
  | .trial => 4
  | .invalid => 5
  | .active => 6

/-- What the firmware commands state of themselves; they need the Watermaster (R259, R340). -/
def fwCmd (opcode len : Nat) (expert : Bool) : Cmd :=
  { opcode := opcode, len := len, expert := expert, need := .tray, acts := some 0, wm := true }

/-- FW_STATUS (R343, Table 10.6). The progress of a staging is a free value (log entry 53). -/
def execFwStatus (r : MReq) (s : State) : Out :=
  .next (s.serve r { opcode := 0x0901, len := 0, wm := true } (.fwStatus r) noEarly fun s =>
    let w := s.wm
    let progress : Byte := if w.staging.isSome then Config.progress s.now else 0
    s.reply r 0x0901 0
      (le 1 (if w.bootsrc = 2 ∨ w.recovery = true then 2 else if w.activeB then 1 else 0) ++ le 1 w.other.st.code ++ [progress]
        ++ le 1 w.failedBringups ++ le 2 w.lastResult ++ le 2 0 ++ le 8 w.bankA.bundle.toNat ++ le 8 w.bankB.bundle.toNat ++ le 24 0))

/-- The host port a bundle is read through: the requester's, or the serving one for the Watermaster (R344). -/
def State.stagePort (s : State) (r : MReq) : Fin 4 := (s.portDie r).pkg

/-- FW_STAGE: answered once staging has begun; the server reads the bundle from host memory (R344, R345). -/
def execFwStage (r : MReq) (host len : Nat) (s : State) : Out :=
  .next (s.serve r (fwCmd 0x0902 16 false) (.fwStage r host len) noEarly fun s =>
    if s.wm.stagingBusy true then s.reply r 0x0902 eFwBusy []
    else ((s.stage (some len)).emit (.hostRead (s.stagePort r) host len)).reply r 0x0902 0 [])

/-- A firmware operation that is carried out leaves last result OK (R343; log entry 56). -/
def State.fwOk (s : State) (w : Wm) : State := s.setWm { w with lastResult := 0 }

/-- FW_ACTIVATE (R348). -/
def execFwActivate (r : MReq) (s : State) : Out :=
  .next (s.serve r (fwCmd 0x0903 0 false) (.fwActivate r) noEarly fun s =>
    match s.wm.activate with
    | .inr w => (s.fwOk w).reply r 0x0903 0 []
    | .inl e => s.reply r 0x0903 e [])

/-- FW_ROLLBACK (R353). -/
def execFwRollback (r : MReq) (s : State) : Out :=
  .next (s.serve r (fwCmd 0x0904 0 true) (.fwRollback r) noEarly fun s =>
    match s.wm.rollback with
    | .inr w => (s.fwOk w).reply r 0x0904 0 []
    | .inl e => s.reply r 0x0904 e [])

/-- FW_ABORT: ends a staging, or returns a PENDING bank to STAGED (R347). -/
def execFwAbort (r : MReq) (s : State) : Out :=
  .next (s.serve r (fwCmd 0x0905 0 false) (.fwAbort r) noEarly fun s =>
    let s := if s.wm.staging.isSome then s.fwOk { s.wm.onOther (fun _ => { st := .empty }) with staging := none }
      else if s.wm.other.st = .pending then s.fwOk (s.wm.onOther fun b => { b with st := .staged }) else s
    s.reply r 0x0905 0 [])

/-- The component of a type in a bundle's directory: offset, length and CRC-32 (R342, Table 14.2). -/
def bundlePart (x : List Byte) (type : Nat) : List (Nat × Nat × Nat) :=
  ((List.range 4).map fun i => slice x (fieldAt x 0x14 4 + 16 * i) 16).filterMap fun e =>
    if fieldAt e 0 2 = type then some (fieldAt e 4 4, fieldAt e 8 4, fieldAt e 12 4) else none

/-- BUNDLE_ID of a bundle (Table 14.3). -/
def bundleId (x : List Byte) : Dword := BitVec.ofNat 64 (fieldAt x 8 8)

/-- Whether a bundle passes every check: header, BUNDLE_LEN against the bytes received, directory with one component of each type,
their CRC-32, the signature (R342, R346, Tables 14.2, 14.3; log entry 153). -/
def bundleOk (x : List Byte) : Bool :=
  let n := x.length
  let dir := fieldAt x 0x14 4
  65536 ≤ n && n ≤ 67108864 && fieldAt x 0 4 = 0x42564E4F && fieldAt x 4 2 = 1 && fieldAt x 6 2 = 4 && bundleId x ≠ 0
    && fieldAt x 0x10 4 = n && 64 ≤ dir && dir + 64 ≤ n - 96
    && ([1, 2, 3, 4].all fun type =>
      match bundlePart x type with
      | [(ofs, len, crc)] => 64 ≤ ofs && ofs + len ≤ n - 96 && crc32 (slice x ofs len) = crc
      | _ => false)
    && Config.bundleSigned x

/-- STAGING_COMPLETE: the last byte of a bundle has come; the checks of R346, and how the flash took it, decide the bank's state and the
last result; vector 29 goes to the tray owner (R344, R346). -/
def execStagingComplete (image : List Byte) (flashOk : Bool) (t : Nat) (s : State) : Out :=
  let s := s.powerClock t
  match s.wm.staging with
  | none => .next s
  | some len =>
    if !s.wmAlive then .next s
    else
      let put := fun (b : Bank) (status : Nat) =>
        (s.onWm fun w => { w.onOther (fun _ => b) with staging := none, lastResult := status }).notify 0 29
      let whole : Bool := match len with | some n => n = image.length | none => true
      if !flashOk then .next (put {} eFwFlash)
      else if whole ∧ bundleOk image = true then .next (put { st := .staged, bundle := bundleId image } 0)
      else .next (put {} eFwImage)

/-! ### Restarts (R334-R340) -/

/-- WATCHDOG_EXPIRY: the restart; one within 60 s of a boot counts, and the third in a row starts the recovery image, unless the
active bundle is on trial (R338, R340). -/
def execWatchdogExpiry (t : Nat) (s : State) : Out :=
  let s := s.powerClock t
  if !s.wmAlive then .next s
  else
    let early : Bool := s.now < s.wm.bootedAt + 60 * sec
    let trial : Bool := s.wm.active.st = .trial
    let n := if trial then s.wm.earlyExpiries else if early then s.wm.earlyExpiries + 1 else 0
    .next ((s.wmRestart .watchdog).onWm fun w => { w with earlyExpiries := n, recovery := !trial && decide (3 ≤ n) })

/-- WM_FIRMWARE_FAULT (R334). -/
def execWmFirmwareFault (t : Nat) (s : State) : Out :=
  let s := s.powerClock t
  if s.wmAlive then .next (s.wmRestart .fault) else .next s

/-- BUTTON_HOLD: a restart; ignored while one is under way (R359). -/
def execButtonHold (t : Nat) (s : State) : Out :=
  let s := s.powerClock t
  if s.wmAlive then .next (s.wmRestart .button) else .next s

/-- The Watermaster heartbeats every scope it owns (R337). -/
def State.wmBeats (s : State) : State :=
  let now := s.now
  let s := s.settleOwn
  let s := s.forEach (List.finRange 9) fun s n => if (s.scope n).owned ∧ (s.scope n).src = 4 then s.beat n else s
  s.onWm fun w => { w with lastBeat := now }

/-- The caps in force are read back from the Stewards that run and can be reached (R332, R337). -/
def State.readCaps (s : State) : State :=
  let up := allPkgs.filter fun n => s.stewardUp n && (s.pkg n).st ≠ .unreachable
  let cap := fun (src : Nat) => (up.map fun n => NMap.get (s.pkg n).trayCaps src 0).foldl max 0
  let pkg := fun (src : Nat) => (up.map fun n => (n.val, NMap.get (s.pkg n).pkgCaps src 0)).filter fun e => e.2 ≠ 0
  let now := s.now
  let tray := cap 1
  let prot : Option Nat := if cap 2 = 0 then none else some now
  let pkgs := pkg 1
  let protPkgs := (pkg 2).map fun e => (e.1, now)
  s.onWm fun w => { w with redfishTray := tray, redfishPkg := pkgs, protTray := prot, protPkg := protPkgs, capOver := [] }

/-- Packages found short of power good are powered down without a latch and then up again (R337). -/
def State.resumeSequences (s : State) : State :=
  let short := allPkgs.filter fun n => (s.pkg n).st = .poweringUp && (s.pkg n).seq < 8
  (s.forEach short fun s n => s.powerDown n .off).powerUpAll short

/-- WM_SERVICE_RESUMED: latches, caps, interrupted sequences, service, WM_RESTART, heartbeats; a watchdog expiry in a bring-up has
failed it, a power-up owed to a new bank begins; the recovery image holds every output and reports WM_RECOVERY (R332, R337, R340,
R349, R350, R352). -/
def execWmServiceResumed (t : Nat) (s : State) : Out :=
  let s := s.clock t
  match s.wm.restarting with
  | none => .next s
  | some c =>
    let now := s.now
    let s := s.onWm fun w => { w with restarting := none, bootedAt := now, scansSince := 0, heldPanel := none }
    if s.wm.recovery then .next (s.wmReport { code := 0xE802 })
    else
      let s := s.seeGates.readCaps
      let s := match s.wm.owed with
        | some l => (s.onWm fun w => { w with owed := none }).startTray l
        | none => if c = RestartCause.watchdog ∧ s.wm.firstGate.isSome then s.failBringup else s.resumeSequences
      .next (s.wmReport { code := 0xE801, info := Config.restartInfo c }).wmBeats

/-- WM_HEARTBEAT_DUE: each scope the Watermaster owns, at least once every second (R337). -/
def execWmHeartbeatDue (t : Nat) (s : State) : Out :=
  let s := s.powerClock t
  if s.wmUp ∧ s.wm.lastBeat + sec ≤ s.now then .next s.wmBeats else .next s

/-- BOOT_EXPIRY_COUNT_RESET: the firmware has run for 60 s (R340). -/
def execBootExpiryCountReset (t : Nat) (s : State) : Out :=
  let s := s.powerClock t
  if s.wmAlive ∧ s.wm.bootedAt + 60 * sec ≤ s.now then .next (s.onWm fun w => { w with earlyExpiries := 0 }) else .next s

/-! ### Button and locates (R358) -/

/-- BUTTON_PRESS: 0.1 to 2 s toggles tray locate and clears the other locates (R358). -/
def execButtonPress (ms_ : Nat) (t : Nat) (s : State) : Out :=
  let s := s.powerClock t
  let now := s.now
  if s.wmUp ∧ 100 ≤ ms_ ∧ ms_ ≤ 2000 then
    .next (s.onWm fun w => { w with locTray := if w.locTray.isSome then none else some now, locPkg := [], locCage := [] })
  else .next s

/-- When a locate was set. -/
def Wm.located (w : Wm) (l : LocateTarget) : Option Nat :=
  match l with
  | .tray => w.locTray
  | .pkg n => (w.locPkg.find? fun e => e.1 = n.val).map (·.2)
  | .cage n => (w.locCage.find? fun e => e.1 = n.val).map (·.2)

/-- LOCATE_TIMEOUT: a locate clears itself after 30 min (R358). -/
def execLocateTimeout (l : LocateTarget) (t : Nat) (s : State) : Out :=
  let s := s.powerClock t
  match s.wm.located l with
  | some a => if s.wmUp ∧ a + 1800 * sec ≤ s.now then .next (s.onWm fun w => w.locate l none) else .next s
  | none => .next s

end Sys2Proof.Machine
end

