-- ==== Sys2Proof/Machine/Registers.lean ====
section
/-! DEFINITION. Sys2Proof/Machine/Registers.lean: the test block of a port (R219-R224, Tables 8.7-8.9, 18.10), a die's management
space (R428, Table 18.8), and writes of registers by their access codes (R4, R204, R423). -/

namespace Sys2Proof.Machine

/-! ### Test block (R219-R223) -/

/-- MODE of TST_CTRL (Table 8.7). -/
def Tst.mode (x : Tst) : Nat := x.ctrl.toNat % 8

/-- Modes a tray, or the carrier, permits (Table 8.7). -/
def modeOk (carrier : Bool) (m : Nat) : Bool := m ≤ 3 || m = (if carrier then 4 else 5)

/-- Physical lanes of a port (R221, Table 18.10). -/
def lanesOf (p : PortId) : Nat := (dataLanes p + spareLanes p) * bundlesOf p

/-- Physical lanes of a port's test block: those of the link's adapter, or of the one selected in its place (Table 18.10). -/
def State.testLanes (s : State) (p : PortId) : Nat :=
  let a := s.adapter p
  if a = profileOf p ∧ !s.inCarrier p.die then lanesOf p else if a = 2 then 16 else if a = 1 then 144 else if a = 0 then lanesOf p else 0

/-- The other end of a port's link, by the tray's wiring or its cable. -/
def State.otherEnd (s : State) (p : PortId) : Option PortId :=
  match wired p with
  | some q => some q
  | none => (s.port p).link.peer

/-- Whether the peer of a port is in FAR (R220). -/
def State.peerFar (s : State) (p : PortId) : Bool := match s.otherEnd p with | some q => (s.port q).tst.mode = 3 | none => false

/-- Whether a pattern comes back to a port's checkers: not in FAR, in REMOTE only from a peer in FAR, in CARRIER through the fixture
(R219, R220). -/
def State.patternBack (s : State) (p : PortId) : Bool :=
  let m := (s.port p).tst.mode
  m = 1 || m = 2 || (m = 4 && s.inCarrier p.die) || (m = 5 && s.peerFar p)

/-- Whether a run is under way. -/
def Tst.running (x : Tst) : Bool := x.ctrl.getLsbD 8

/-- The last run of a port whose pattern comes back: its number and how many ticks it has run; none where none ran or none came
back. -/
def State.checkedRun (s : State) (p : PortId) : Option (Nat × Nat) :=
  let x := (s.port p).tst
  match x.run with
  | none => none
  | some n => if (if x.running then !s.patternBack p else x.blind) then none else some (n, x.ended.getD s.now - x.startAt)

/-- Ticks at a rate, as a whole number. -/
def atRate (ticks : Nat) (r : Nat × Nat) : Nat := ticks * r.1 / r.2

/-- UI the checkers have had since the run began (R221, R222). -/
def State.uiSoFar (s : State) (p : PortId) : Nat :=
  match s.checkedRun p with
  | some (_, ticks) => atRate ticks (uiRate (s.adapter p) (s.port p).link.kl2)
  | none => 0

/-- TST_UI: the UI checked so far; the run length once the limit ended the run (R222). -/
def State.tstUi (s : State) (p : PortId) : Nat :=
  let x := (s.port p).tst
  if x.limited then x.uiLimit else s.uiSoFar p % 2 ^ 48

/-- PATTERN and INVERT of TST_CTRL (Table 8.9). -/
def Tst.pattern (x : Tst) : Nat := x.ctrl.toNat / 8 % 16
def Tst.invert (x : Tst) : Bool := x.ctrl.getLsbD 7

/-- Whether the n-th run received bit `i` of lane `l` in error: it differs from the pattern (R221). -/
def State.bitWrong (s : State) (p : PortId) (n l i : Nat) : Bool :=
  let x := (s.port p).tst
  let a := s.adapter p
  Config.testRx n l i != patternBit a (s.port p).link.kl2 x.pattern x.invert x.user (l % (if a = 2 then 8 else 18)) i

/-- Bits a lane has received since the run began. -/
def State.bitsSoFar (s : State) (p : PortId) (ticks : Nat) : Nat := atRate ticks (laneRate (s.adapter p) (s.port p).link.kl2)

/-- TST_FLITFAIL and TST_CORR count under pattern 7 alone, a flit a slot (R221). -/
def State.tstFlit (s : State) (p : PortId) (g : Nat → Nat → Nat) : Nat :=
  match s.checkedRun p with
  | some (n, ticks) =>
    if (s.port p).tst.pattern = 7 then
      let (a, b) := wheelFrac (s.adapter p) (s.port p).link.kl2
      min 0xFFFFFFFF (((List.range (ticks * 256 * b / a * bundlesOf p)).map (g n)).foldl (· + ·) 0)
    else 0
  | none => 0

/-- TST_FLITFAIL and TST_CORR (R221). -/
def State.tstFlitFail (s : State) (p : PortId) : Nat := s.tstFlit p fun n j => if Config.testFlitBad n j then 1 else 0
def State.tstCorr (s : State) (p : PortId) : Nat := s.tstFlit p Config.testFlitCorr

/-- TST_ERR of a lane: its bits in error after the checker's lock; an eye scan counts none (R221, R222). -/
def State.tstErr (s : State) (p : PortId) (l : Nat) : Nat :=
  match s.checkedRun p with
  | some (n, ticks) =>
    if s.testLanes p ≤ l ∨ (s.port p).tst.ctrl.getLsbD 12 then 0
    else min 0xFFFFFFFF (errorBits (s.bitWrong p n l) (s.bitsSoFar p ticks))
  | none => 0

/-- Whether a lane is locked: 64 bits in a row without error have come (R220, R221). -/
def State.tstLock (s : State) (p : PortId) (l : Nat) : Bool :=
  match s.checkedRun p with
  | some (n, ticks) => l < s.testLanes p && (lockBit (s.bitWrong p n l) (s.bitsSoFar p ticks)).isSome
  | none => false

/-- A word of TST_LOCK. -/
def State.tstLockWord (s : State) (p : PortId) (w : Nat) : Nat :=
  ((List.range 32).map fun i => if s.tstLock p (32 * w + i) then 2 ^ i else 0).foldl (· + ·) 0

/-- An entry of TST_EYEMAP, once the scan has dwelt 2^20 UI at its point, the points in the order of the map (R222; log entry 145). -/
def State.tstEye (s : State) (p : PortId) (k : Nat) : Nat :=
  match s.checkedRun p with
  | some (n, _) =>
    if (s.port p).tst.ctrl.getLsbD 12 ∧ (k + 1) * 2 ^ 20 ≤ s.uiSoFar p then min (2 ^ 21) (Config.testEye n k) else 0
  | none => 0

/-- TST_CTRL as it reads: LOCKED from the lanes; ADAPTER as the carrier selects or EDGE_USE enables (Table 8.9). -/
def State.tstCtrl (s : State) (p : PortId) : Nat :=
  ((s.port p).tst.ctrl &&& ~~~(0x2000 : Word)).toNat
    + (if 0 < s.testLanes p ∧ (List.range (s.testLanes p)).all (s.tstLock p) then 0x800 else 0)
    + (if s.adapter p = 2 then 0x2000 else 0)

/-- A word of a port's test block (Table 18.10). -/
def State.tstWord (s : State) (p : PortId) (o : Nat) : Nat :=
  let x := (s.port p).tst
  if o = 0 then s.tstCtrl p
  else if o = 4 then x.user.toNat
  else if o = 8 then x.uiLimit % 4294967296
  else if o = 0xC then x.uiLimit / 4294967296
  else if o = 0x10 then s.tstUi p % 4294967296
  else if o = 0x14 then s.tstUi p / 4294967296
  else if o = 0x18 then s.tstFlitFail p
  else if o = 0x1C then s.tstCorr p
  else if o = 0x20 then x.eyesel.toNat
  else if 0x100 ≤ o ∧ o < 0x340 then s.tstErr p ((o - 0x100) / 4)
  else if 0x340 ≤ o ∧ o < 0x354 then s.tstLockWord p ((o - 0x340) / 4)
  else if 0x4000 ≤ o ∧ o < 0x4000 + 4 * 8385 then s.tstEye p ((o - 0x4000) / 4)
  else 0

/-- A run or an eye scan starts: its results begin anew; in MODE 4 the pattern takes the lanes from the training (R222, R226). -/
def State.startRun (s : State) (p : PortId) : State :=
  let x := (s.port p).tst
  if x.mode = 0 ∨ x.running then s
  else
    let s := if x.mode = 4 then s.portIdle p else s
    let n := s.free
    let now := s.now
    (s.onPort p fun y =>
      { y with tst := { y.tst with ctrl := setBit (y.tst.ctrl &&& ~~~(0x400 : Word)) 8, run := some n, startAt := now, ended := none,
                                   limited := false, blind := false } }).spend

/-- A run ends: START clears. -/
def State.quitRun (s : State) (p : PortId) : State :=
  if (s.port p).tst.running then
    let back := s.patternBack p
    let now := s.now
    s.onPort p fun y => { y with tst := { y.tst with ctrl := y.tst.ctrl &&& ~~~(0x100 : Word), ended := some now, blind := !back } }
  else s

/-- A run ends by STOP or by its limit: DONE is set, and a port in MODE 4 trains to itself again (R222, R226). -/
def State.endRun (s : State) (p : PortId) (limited : Bool) : State :=
  if (s.port p).tst.running then
    let s := (s.quitRun p).onPort p fun y => { y with tst := { y.tst with ctrl := setBit y.tst.ctrl 10, limited := limited } }
    if (s.port p).tst.mode = 4 then s.startTraining p else s
  else s

/-- A port whose MODE changes: it goes down as a test begins and trains when MODE returns to 0, which ends a run, or becomes 4 in the
carrier (R223, R226; log entry 144). -/
def State.modeChanged (s : State) (p : PortId) (old : Nat) : State :=
  let m := (s.port p).tst.mode
  if m = old then s
  else if m = 0 ∨ m = 4 then ((s.quitRun p).portIdle p).startTraining p
  else if old = 0 ∨ old = 4 then s.portIdle p
  else s

/-- A write of TST_CTRL: its RW fields, DONE as W1C, START and STOP as they act. MODE stays as it is for a mode not permitted here, for
FAR opposite a peer in FAR, and on a port of a tray on which a loaded plan holds a slot. ADAPTER takes a write in the carrier while MODE
is 0 (R223, R225, Table 8.9; 08, When things coincide; log entry 144). -/
def State.writeTst (s : State) (p : PortId) (v : Word) : State :=
  let old := (s.port p).tst.mode
  let m := v.toNat % 8
  let carrier := s.inCarrier p.die
  let keep : Bool := !modeOk carrier m || (m = 3 && s.peerFar p) || (old = 0 && s.planned p)
  let mask : Word := (if keep then 0x10F8 else 0x10FF) ||| (if carrier ∧ old = 0 then 0x2000 else 0)
  let done : Word := if v.getLsbD 10 then 0x400 else 0
  let s := s.onPort p fun y => { y with tst := { y.tst with ctrl := rwMask mask y.tst.ctrl v &&& ~~~done } }
  let s := s.modeChanged p old
  let s := if v.getLsbD 8 then s.startRun p else s
  if v.getLsbD 9 then s.endRun p false else s

/-- TST_CTRL_START (R222). -/
def execTstCtrlStart (p : PortId) (s : State) : Out := if s.dieUp p.die || s.inCarrier p.die then .next (s.startRun p) else .next s

/-- TST_CTRL_STOP (R222). -/
def execTstCtrlStop (p : PortId) (s : State) : Out := .next (s.endRun p false)

/-- TEST_RUN_LIMIT: TST_UI reaches TST_UI_LIMIT; a limit of 0 never does (R222). -/
def execTestRunLimit (p : PortId) (s : State) : Out :=
  if (s.port p).tst.uiLimit = 0 then .next s else .next (s.endRun p true)

/-! ### Test commands (R223, R224) -/

/-- TEST_START: takes the port down and starts a run in the given mode and pattern (R223). -/
def execTestStart (r : MReq) (p : PRef) (ctrl : Word) (uiLimit : Nat) (user : Word) (s : State) : Out :=
  .next (s.serve r { opcode := 0x0A01, len := 20, need := .tray, acts := some 0 } (.testStart r p ctrl uiLimit user) noEarly fun s =>
    match s.portRef p with
    | none => s.reply r 0x0A01 eArgRange []
    | some q =>
      let m := ctrl.toNat % 8
      if 16384 ≤ ctrl.toNat then s.reply r 0x0A01 eArgReserved []
      else if m = 6 ∨ m = 7 ∨ 8 ≤ ctrl.toNat / 8 % 16 ∨ 2 ^ 48 ≤ uiLimit then s.reply r 0x0A01 eArgRange []
      else if s.planned q then s.reply r 0x0A01 ePortPlanned []
      else if m = 4 ∨ (m = 3 ∧ s.peerFar q = true) then s.reply r 0x0A01 ePortTest []
      else
        let s := (s.quitRun q).portIdle q
        let s := s.onPort q fun y =>
          { y with tst := { y.tst with ctrl := rwMask 0x10FF y.tst.ctrl ctrl, uiLimit := uiLimit, user := user } }
        (if m = 0 then s.startTraining q else s.startRun q).reply r 0x0A01 0 [])

/-- TEST_STOP: the run ends; the port trains once MODE is 0 (R222, R223). -/
def execTestStop (r : MReq) (p : PRef) (s : State) : Out :=
  .next (s.serve r { opcode := 0x0A02, len := 4, need := .tray, acts := some 0 } (.testStop r p) noEarly fun s =>
    match s.portRef p with
    | none => s.reply r 0x0A02 eArgRange []
    | some q => (s.endRun q false).reply r 0x0A02 0 [])

/-- TEST_READ: the registers of Table 10.6 for a lane, each in the width of Table 18.10, and of the eye map as many entries as a
response holds (log entry 60). -/
def execTestRead (r : MReq) (p : PRef) (lane : Nat) (s : State) : Out :=
  .next (s.serve r { opcode := 0x0A03, len := 8 } (.testRead r p lane) noEarly fun s =>
    match s.portRef p with
    | none => s.reply r 0x0A03 eArgRange []
    | some q =>
      if s.testLanes q ≤ lane then s.reply r 0x0A03 eArgRange []
      else s.reply r 0x0A03 0 (le 4 (s.tstCtrl q) ++ le 8 (s.tstUi q) ++ le 4 (s.tstErr q lane) ++ le 4 (s.tstLockWord q (lane / 32))
        ++ le 4 (s.tstFlitFail q) ++ le 4 (s.tstCorr q)
        ++ (List.range 1013).flatMap fun k => le 4 (s.tstEye q k)))

/-- The ports a PORTREF of REPAIR_CLEAR names: one, or with port 0xFF every port of the die (Table 10.6). -/
def State.repairPorts (s : State) (p : PRef) : Option (List PortId) :=
  if p.port = 0xFF then (s.dieRef p.tray p.die).map diePorts else (s.portRef p).map fun q => [q]

/-- REPAIR_CLEAR: soft retirements leave the Watermaster's records; a port keeps its working map until it trains (R224). -/
def execRepairClear (r : MReq) (p : PRef) (s : State) : Out :=
  .next (s.serve r { opcode := 0x0A04, len := 4, expert := true, need := .tray, acts := some 0, wm := true } (.repairClear r p)
    (fun s => if (s.repairPorts p).isNone then some eArgRange else none) fun s =>
    match s.repairPorts p with
    | none => s.reply r 0x0A04 eArgRange []
    | some l =>
      let mine := fun (x : SoftRet) => l.any fun q => x.key.uid = (s.die q.die).ident.uid && x.key.port = q.port.val
      (s.onWm fun w => { w with soft := w.soft.filter fun x => !mine x }).reply r 0x0A04 0 [])

/-! ### Management space (R428, Table 18.8) -/

/-- An entry of the alarm FIFO, 64 bytes (R428). -/
def AlarmCopy.bytes (c : AlarmCopy) : List Byte :=
  let data := if c.opcode = 0x51 then le 1 c.field ++ le 1 c.port ++ le 6 0 ++ le 8 c.boundary else c.record.bytes
  le 1 c.opcode ++ le 1 c.field ++ le 14 0 ++ slice data 0 32 ++ le 16 0

/-- TRB_LOGHEAD (Table 18.8). -/
def Trb.head (t : Trb) : Nat := t.log.length + (if t.ovf then 256 else 0) + 65536 * t.ovfCount

/-- TRB_HANDLING (R398). -/
def Trb.handlingBits (t : Trb) : Nat := maskOf (t.handling.map (·.1))

/-- HG_ALMCTL (Table 18.8). -/
def Trb.almctl (t : Trb) : Nat := t.fifo.length + 16 * t.fifoHead

/-- Slot `j` of the alarm FIFO; HEAD names the oldest entry. -/
def Trb.fifoSlot (t : Trb) (j : Nat) : List Byte :=
  match t.fifo[(j + 8 - t.fifoHead) % 8]? with | some c => c.bytes | none => le 64 0

/-- One byte of a die's management space; what no table assigns reads 0 (Table 18.8). -/
def State.mgmtByte (s : State) (d : DieId) (a : Nat) : Byte :=
  let x := s.die d
  if a < 0x40 then x.ident.bytes.getD a 0
  else if a < 0x44 then (if d.isCompute then (le 4 x.boot.plcCtrl.toNat).getD (a - 0x40) 0 else 0)
  else if 0x48 ≤ a ∧ a < 0x70 then
    (if d.isCompute then (le 8 (NMap.get x.boot.plcPeer ((a - 0x48) / 8) 0).toNat).getD (a % 8) 0 else 0)
  else if 0x80 ≤ a ∧ a < 0xF0 then (if d.isCompute then 0 else x.place.bytes.getD (a - 0x80) 0)
  else if 0x100 ≤ a ∧ a < 0x198 then (fuseBytes x.boot).getD (a - 0x100) 0
  else if 0x1000 ≤ a ∧ a < 0x1020 then (match x.trb.fec with | some r => r.bytes.getD (a - 0x1000) 0 | none => 0)
  else if 0x1020 ≤ a ∧ a < 0x102C then
    (le 4 x.trb.head ++ le 4 x.trb.handlingBits ++ le 4 x.trb.epoch.toNat).getD (a - 0x1020) 0
  else if 0x1100 ≤ a ∧ a < 0x1500 then
    (match x.trb.log[(a - 0x1100) / 32]? with | some r => r.bytes.getD (a % 32) 0 | none => 0)
  else if 0x2000 ≤ a ∧ a < 0x2004 then (le 4 x.trb.almctl).getD (a - 0x2000) 0
  else if 0x2100 ≤ a ∧ a < 0x2300 then (x.trb.fifoSlot ((a - 0x2100) / 64)).getD (a % 64) 0
  else if h : 0x100000 ≤ a ∧ a < 0x150000 then
    let p : PortId := ⟨d, ⟨(a - 0x100000) / 0x10000, by omega⟩⟩
    if portExists p then (le 4 (s.tstWord p ((a - 0x100000) % 0x10000 / 4 * 4))).getD (a % 4) 0 else 0
  else 0

/-- Bytes of a die's management space. -/
def State.mgmtRead (s : State) (d : DieId) (a len : Nat) : List Byte := (List.range len).map fun i => s.mgmtByte d (a + i)

/-- The register a 4-byte offset of the management space holds, for those that take writes (Tables 18.8, 18.10). -/
def mgmtReg (d : DieId) (a : Nat) : Reg :=
  if a = 0x40 then .plcCtrl d
  else if h : 0x48 ≤ a ∧ a < 0x70 then .plcPeer d ⟨(a - 0x48) / 8, by omega⟩ (a % 8 = 4)
  else if a = 0x1020 then .logHead d
  else if h : 0x100000 ≤ a ∧ a < 0x150000 then
    let p : PortId := ⟨d, ⟨(a - 0x100000) / 0x10000, by omega⟩⟩
    let o := (a - 0x100000) % 0x10000
    if o = 0 then .tstCtrl p
    else if o = 4 then .tstUser p
    else if o = 8 then .tstUiLimit p false
    else if o = 0xC then .tstUiLimit p true
    else if o = 0x20 then .tstEyesel p
    else .other
  else .other

/-- The register a 4-byte offset of a port's link configuration space holds, for those that take writes (Table 18.11). -/
def klcReg (p : PortId) (o : Nat) : Reg :=
  if o = 0x40 then .trState p
  else if o = 0x128 then .cntSat p
  else if h : 0x200 ≤ o ∧ o < 0x218 ∧ o % 4 = 0 then .thr p ⟨(o - 0x200) / 4, by omega⟩
  else if o = 0x280 then .dryEn p
  else if o = 0x284 then .dryIdle p
  else .other

/-! ### Register writes (R4) -/

/-- Whether a path reaches the management space of a die. -/
def reachesMgmt (x : Path) (d : DieId) : Bool :=
  match x with
  | .local e _ => e = d
  | .chain e => e = d
  | .debug e => e = d
  | .host _ _ => false

/-- Whether a path reaches the link configuration space of a die's ports: the die itself, or a debug access (R204). -/
def reachesKlc (x : Path) (d : DieId) : Bool :=
  match x with
  | .local e _ => e = d
  | .debug e => e = d
  | _ => false

/-- Whether a path writes what needs expert level. -/
def asExpert (x : Path) : Bool :=
  match x with
  | .local _ e => e
  | .debug _ => true
  | _ => false

/-- The 32-bit word of a 64-bit value replaced. -/
def setWord (old : Dword) (high : Bool) (v : Word) : Dword :=
  if high then BitVec.ofNat 64 (old.toNat % 4294967296 + 4294967296 * v.toNat)
  else BitVec.ofNat 64 (old.toNat / 4294967296 * 4294967296 + v.toNat)

/-- A mask bit of the MSI-X table: clearing it sends a message that is pending (R249, R255). -/
def State.writeMask (s : State) (n : Fin 4) (v : Fin 64) (mask : Bool) : State :=
  let h := s.host n
  if mask then s.setHost n { h with msixMask := setBit h.msixMask v.val }
  else
    let h' := { h with msixMask := h.msixMask &&& ~~~BitVec.twoPow 64 v.val, pba := h.pba &&& ~~~BitVec.twoPow 64 v.val }
    if h.pba.getLsbD v.val then (s.setHost n h').emit (.msix n v.val) else s.setHost n h'

/-- The bits of a base address register that take a write: those above its size (Table 10.3). -/
def barMask (i : Fin 6) : Word :=
  if i = 0 then 0xFFFC0000 else if i = 2 then 0xFFFF0000 else if i = 4 then 0 else if i = 5 then 0xFFFFFF00 else 0xFFFFFFFF

/-- Device Control written: max payload size 128 to 512 B and max read request size 128 to 4,096 B; another size leaves the one set
(R248; log entry 151). -/
def PcieCfg.setDevCtl (c : PcieCfg) (v : Word) : PcieCfg :=
  let p := v.toNat / 32 % 8
  let r := v.toNat / 4096 % 8
  { c with mps := if p ≤ 2 then 128 * 2 ^ p else c.mps, mrrs := if r ≤ 5 then 128 * 2 ^ r else c.mrrs }

/-- A write to a host port's configuration space, which D3hot and bring-up leave open (R248-R250; log entry 151). -/
def State.cfgWrite (s : State) (n : Fin 4) (f : PcieCfg → PcieCfg) : Option State :=
  if s.portLive n then some (s.onHost n fun h => { h with cfg := f h.cfg }) else none

/-- A write to a register of a host port (Tables 18.2, 18.4): none before ready but to channel M, none in D3hot but to configuration
space (R249, R252, R256). -/
def State.hostWrite (s : State) (n : Fin 4) (rid : Half) (reg : Reg) (v : Word) : Option State :=
  match reg with
  | .irqCause high =>
    if s.barsLive n then
      some (s.onHost n fun h => { h with cause := h.cause &&& ~~~setWord 0 high v })
    else none
  | .launchErr =>
    if s.barsLive n then some (s.onHost n fun h => { h with launchErr := w1c h.launchErr (v.setWidth 9 &&& 0x1FE) }) else none
  | .msixMask k => if s.barsLive n then some (s.writeMask n k (v.getLsbD 0)) else none
  | .msixWord k w =>
    if s.barsLive n then some (s.onHost n fun h => { h with msix := NMap.set h.msix (4 * k.val + w.val) v }) else none
  | .cfgBar i => s.cfgWrite n fun c => { c with bars := NMap.set c.bars i.val (v &&& barMask i) }
  | .cfgDevCtl => s.cfgWrite n fun c => c.setDevCtl v
  | .cfgDevCtl2 => s.cfgWrite n fun c => { c with tag10 := v.getLsbD 12 }
  | .reqBuffer k o len =>
    let c := s.chan n k
    if s.chanLive n k ∧ !(s.host n).d3 ∧ c.held ∧ c.holder = rid ∧ 1 ≤ len ∧ len ≤ 4 ∧ o + len ≤ 4096 then
      some (s.setChan n k { c with req := Memory.write c.req o (le len v.toNat) })
    else none
  | _ => none

/-- A write to a register of a port's link configuration space (Table 18.11, R170, R204). -/
def State.writeKlc (s : State) (p : PortId) (x : Path) (reg : Reg) (v : Word) : Option State :=
  if !reachesKlc x p.die ∨ !portExists p ∨ !s.dieUp p.die then none
  else match reg with
    | .trState _ =>
      some (if v.getLsbD 24 then s.onLink p fun l => { l with collided := false, collisions := 0 } else s)
    | .cntSat _ => some (s.onPort p fun y => { y with err := { y.err with sat := w1c y.err.sat (v.setWidth 10) } })
    | .thr _ j =>
      if asExpert x ∧ 1 ≤ v.toNat ∧ v.toNat ≤ thrMax j.val then
        some (s.onPort p fun y => { y with err := { y.err with thr := NMap.set y.err.thr j.val v.toNat } })
      else none
    | .dryEn _ =>
      let on := v.getLsbD 0
      let s := s.onPort p fun y => { y with dry := { y.dry with enabled := on } }
      some (if on then s else s.wakePort p)
    | .dryIdle _ =>
      if 10 ≤ v.toNat ∧ v.toNat ≤ 10000 then some (s.onPort p fun y => { y with dry := { y.dry with idleUs := v.toNat } }) else none
    | _ => none

/-- A write to a register of a port's test block (Table 18.10). -/
def State.writeTstReg (s : State) (p : PortId) (x : Path) (reg : Reg) (v : Word) : Option State :=
  if !reachesMgmt x p.die ∨ !portExists p ∨ !(s.dieUp p.die || s.inCarrier p.die) then none
  else match reg with
    | .tstCtrl _ => some (s.writeTst p v)
    | .tstUser _ => some (s.onPort p fun y => { y with tst := { y.tst with user := v } })
    | .tstUiLimit _ high =>
      some (s.onPort p fun y =>
        { y with tst := { y.tst with uiLimit := (setWord (BitVec.ofNat 64 y.tst.uiLimit) high v).toNat % 2 ^ 48 } })
    | .tstEyesel _ => some (s.onPort p fun y => { y with tst := { y.tst with eyesel := rwMask 0x7FF y.tst.eyesel v } })
    | _ => none

/-- Whether a die's headgate agent answers: its management rail is up, its package's switch closed, and the package reachable, for the
Watermaster; in the carrier, for the tester (R225, R364, R366, R371). -/
def State.agentUp (s : State) (d : DieId) : Bool :=
  s.inCarrier d ||
    (d.tray = s.span.num && s.wmUp && (s.pkg d.pkg).sw && (s.pkg d.pkg).st ≠ .unreachable && (s.die d).boot.st ≠ .off)

/-- Whether EDGE_USE of a placed die enables the adapter a port's place has; with 0 the edge stays DOWN (R213, Table 18.9). -/
def State.edgeEnabled (s : State) (p : PortId) : Bool :=
  !(s.die p.die).boot.testMode && (s.adapter p = 1 || s.adapter p = 2)

/-- Whether a compute die may train edge ports: HBM trained and scrubbed, and qualified for every rung (R208, R373). -/
def State.edgeReady (s : State) (d : DieId) : Bool := s.dieUp d && s.hbmReady d && (s.die d).ident.maxRung = 7

/-- An edge port starts DETECT once the dies at both ends are ready; at a cage the own end alone decides (R373). -/
def State.enableEdge (s : State) (p : PortId) : State :=
  let go := fun (s : State) (q : PortId) => (s.onLink q fun l => { l with enabled := true }).startTraining q
  if !s.edgeReady p.die ∨ !s.edgeEnabled p then s
  else match wired p with
    | some q => if s.edgeReady q.die && s.edgeEnabled q then go (go s p) q else s
    | none => go s p

/-- The edge ports of a die start DETECT (R373). -/
def State.enableEdges (s : State) (d : DieId) : State := s.forEach ((diePorts d).filter fun p => p.port ≠ 4) State.enableEdge

/-- PLC_CTRL written: an edge whose adapter changes goes down, leaves the ledger where it has none now, and trains anew where it has
one (R213; log entry 146). -/
def State.writePlc (s : State) (d : DieId) (v : Word) : State :=
  let before := s
  let s := s.onDie d fun y => { y with boot := { y.boot with plcCtrl := rwMask 0xFFFF y.boot.plcCtrl v } }
  s.forEach ((diePorts d).filter fun p => s.adapter p ≠ before.adapter p) fun s p =>
    let gone : Bool := s.adapter p = 3 && (s.port p).link.inLedger
    let s := (s.portIdle p).onLink p fun l => { l with enabled := false, inLedger := l.inLedger && !gone }
    (if gone then s.setLedgerEpoch ((s.ledgerEpoch + 1) % 0x100000000) else s).enableEdge p

/-- A write of a register as its access code states; none where it is ignored (R4, R428, Tables 18.2, 18.8-18.11). -/
def State.regWrite (s : State) (x : Path) (reg : Reg) (v : Word) : Option State :=
  match reg with
  | .plcCtrl d =>
    if x = .chain d ∧ d.isCompute ∧ s.agentUp d then
      some (s.writePlc d v)
    else none
  | .plcPeer d q high =>
    if x = .chain d ∧ d.isCompute ∧ s.agentUp d then
      some (s.onDie d fun y =>
        { y with boot := { y.boot with plcPeer := NMap.set y.boot.plcPeer q.val (setWord (NMap.get y.boot.plcPeer q.val 0) high v) } })
    else none
  | .logHead d =>
    if reachesMgmt x d ∧ (x ≠ .chain d ∨ s.agentUp d) then
      some (if v.getLsbD 8 then s.onDie d fun y => { y with trb := { y.trb with ovf := false } } else s)
    else none
  | .trState p => s.writeKlc p x reg v
  | .cntSat p => s.writeKlc p x reg v
  | .thr p _ => s.writeKlc p x reg v
  | .dryEn p => s.writeKlc p x reg v
  | .dryIdle p => s.writeKlc p x reg v
  | .tstCtrl p => s.writeTstReg p x reg v
  | .tstUser p => s.writeTstReg p x reg v
  | .tstUiLimit p _ => s.writeTstReg p x reg v
  | .tstEyesel p => s.writeTstReg p x reg v
  | .other => none
  | .irqCause _ => (match x with | .host n rid => s.hostWrite n rid reg v | _ => none)
  | .launchErr => (match x with | .host n rid => s.hostWrite n rid reg v | _ => none)
  | .msixMask _ => (match x with | .host n rid => s.hostWrite n rid reg v | _ => none)
  | .msixWord _ _ => (match x with | .host n rid => s.hostWrite n rid reg v | _ => none)
  | .cfgBar _ => (match x with | .host n rid => s.hostWrite n rid reg v | _ => none)
  | .cfgDevCtl => (match x with | .host n rid => s.hostWrite n rid reg v | _ => none)
  | .cfgDevCtl2 => (match x with | .host n rid => s.hostWrite n rid reg v | _ => none)
  | .reqBuffer _ _ _ => (match x with | .host n rid => s.hostWrite n rid reg v | _ => none)

/-- REGISTER_WRITE (R4). -/
def execRegisterWrite (path : Path) (reg : Reg) (value : Word) (s : State) : Out := .next ((s.regWrite path reg value).getD s)

end Sys2Proof.Machine
end

