-- ==== Sys2Proof/Machine/Record.lean ====
section
/-! DEFINITION. Sys2Proof/Machine/Record.lean: trouble commands, alarms at their receivers, chain copies, handling, and the errors of
dies (R102, R166, R191, R386-R406). -/

namespace Sys2Proof.Machine

/-! ### TRB_READ and TRB_CLEAR (R404, R405) -/

/-- Entries of a log from an index on, 0 where none is in use (R405). -/
def entryBytes (l : List Rec) (first count : Nat) : List Byte :=
  (List.range count).flatMap fun i => match l[first + i]? with | some r => r.bytes | none => le 32 0

/-- TRB_READ (R405). The record of another tray is held by its own sink: free values (log entry 59). -/
def execTrbRead (r : MReq) (tray die first count : Nat) (s : State) : Out :=
  .next (s.serve r { opcode := 0x0701, len := 4 } (.trbRead r tray die first count) noEarly fun s =>
    if count = 0 ∨ 32 < count then s.reply r 0x0701 eArgRange []
    else if die = 0 then
      (if s.trays.length ≤ tray ∨ 63 < first then s.reply r 0x0701 eArgRange []
       else if tray = s.span.num.val then
         let t := s.trouble
         s.reply r 0x0701 0 (le 1 t.records.length ++ le 1 (if t.ovf then 1 else 0) ++ le 2 t.ovfCount ++ le 4 0 ++ le 32 0
           ++ entryBytes t.records first count)
       else
         let n := s.free
         (s.spend).reply r 0x0701 0 ((List.range (40 + 32 * count)).map fun k => Config.peerRecord n k))
    else match s.dieRef tray die with
      | none => s.reply r 0x0701 eArgRange []
      | some d =>
        if 31 < first then s.reply r 0x0701 eArgRange []
        else
          let t := (s.die d).trb
          s.reply r 0x0701 0 (le 1 t.log.length ++ le 1 ((if t.ovf then 1 else 0) + (if t.fec.isSome then 2 else 0))
            ++ le 2 t.ovfCount ++ le 2 t.handlingBits ++ le 2 0 ++ (match t.fec with | some x => x.bytes | none => le 32 0)
            ++ entryBytes t.log first count))

/-- The ring intake held by tray-level containment opens as TRAY_FATAL is cleared (R391). -/
def State.openIntake (s : State) : State := s.forEach allFields fun s f => s.onField f fun x => { x with intakeHeld := false }

/-- A TRB_CLEAR of the tray record and the trouble summary (Table 16.7). -/
def State.clearTrayRecord (s : State) (mask : Half) : State :=
  let s := if mask.getLsbD 0 then s.setTrouble { s.trouble with records := [] } else s
  let s := if mask.getLsbD 2 then s.setTrouble { s.trouble with ovf := false, ovfCount := 0 } else s
  if mask.getLsbD 3 then
    let s := if s.trouble.summary.getLsbD 0 then s.openIntake else s
    s.setTrouble { s.trouble with summary := 0 }
  else s

/-- A TRB_CLEAR of a die's record (Table 16.7). -/
def State.clearDieRecord (s : State) (d : DieId) (mask : Half) : State :=
  let s := s.onDie d fun x =>
    let t := x.trb
    let t := if mask.getLsbD 0 then { t with log := [] } else t
    let t := if mask.getLsbD 1 then { t with fec := none } else t
    { x with trb := if mask.getLsbD 2 then { t with ovf := false, ovfCount := 0 } else t }
  let s := if mask.getLsbD 3 ∧ d.tray = s.span.num then
      s.setTrouble { s.trouble with summary := s.trouble.summary &&& ~~~BitVec.twoPow 64 (17 + (d.addr - 0x10)) }
    else s
  if mask.getLsbD 4 then s.clearLatch d.pkg else s

/-- TRB_CLEAR: its whole mask or not at all; bit 4 names an X of this tray and needs the Watermaster (R404, Table 16.7). -/
def execTrbClear (r : MReq) (tray die : Nat) (mask : Half) (s : State) : Out :=
  .next (s.serve r { opcode := 0x0702, len := 4, need := .tray, acts := some 0, wm := mask.getLsbD 4 } (.trbClear r tray die mask)
    (fun s =>
      if 32 ≤ mask.toNat then some eArgReserved
      else if die = 0 then (if s.trays.length ≤ tray ∨ mask.getLsbD 4 then some eArgRange else none)
      else match s.dieRef tray die with
        | none => some eArgRange
        | some d => if mask.getLsbD 4 ∧ (d.slot ≠ 0 ∨ d.tray ≠ s.span.num) then some eArgRange else none) fun s =>
    if die = 0 then (if tray = s.span.num.val then s.clearTrayRecord mask else s).reply r 0x0702 0 []
    else match s.dieRef tray die with
      | none => s.reply r 0x0702 eArgRange []
      | some d => (s.clearDieRecord d mask).reply r 0x0702 0 [])

/-! ### Alarms at their receivers (R191, R389, R401, R406) -/

/-- Whether a record's action is FC: its code's, or that of a deferred error escalated to contained (R389, R399). -/
def Rec.isFC (r : Rec) : Bool := codeFC r.code || (r.nested && r.sev = 2)

/-- A die receives a record once: the sink writes it, a die of the field closes the field (R389, R401, R406). -/
def State.takeAlarm (s : State) (d : DieId) (r : Rec) : State :=
  if s.actedOn d r.key then s
  else
    let s := s.noteActed d r.key
    let s := if d = s.sink then s.sinkTake r else s
    match fieldOfNum r.field with
    | some f => if r.isFC ∧ (s.field f).dies.contains d then s.containField f else s
    | none => s

/-- ALARM: an alarm sink receives an error record (R191). -/
def execAlarm (h : Hdr) (data : List Byte) (t : Nat) (s : State) : Out :=
  let s := s.clock t
  if !s.dieUp h.dst then .next s
  else
    let s := s.arrive h
    if h.opcode ≠ 0x50 ∨ h.dstUnit ≠ 0x1C ∨ h.len ≠ 32 ∨ data.length ≠ 32 then .next (s.sfDiscard h.dst h.field)
    else .next (s.takeAlarm h.dst (recOf data))

/-- A SLUICE copy reaches a die of its field, once (R166, R406). -/
def State.takeSluice (s : State) (d src : DieId) (c : AlarmCopy) : State :=
  match fieldOfNum c.field with
  | some f =>
    let k : ActedKey := { die := src.key, code := 0x51 + 256 * c.field + 65536 * c.port, tally := c.boundary }
    if s.actedOn d k then s else (s.noteActed d k).sluiceAct d f c.boundary
  | none => s

/-- The die a record names, for a warm reset: a fatal one of die scope, or of tray scope (R390, R391). -/
def Rec.resets (r : Rec) (tray : Fin 4) : Option DieId := if r.sev = 3 ∧ (r.scope = 2 ∨ r.scope = 4) then dieOf tray.val r.die else none

/-- The Watermaster acts on one chain copy (R406): to the sink, to the field's dies on the tray, a warm reset once per die and
TALLY, a power-down once per package and TALLY. -/
def State.actCopy (s : State) (src : DieId) (c : AlarmCopy) : State :=
  let near := match fieldOfNum c.field with
    | some f => (s.field f).dies.filter fun d => d.tray = s.span.num && d ≠ src
    | none => []
  if c.opcode = 0x51 then s.forEach near fun s d => s.takeSluice d src c
  else
    let r := c.record
    let s := s.sinkOnce r
    let s := if r.isFC then s.forEach near fun s d => s.takeAlarm d r else s
    let s := match r.resets s.span.num with
      | some d =>
        let k : ActedKey := { die := r.die, code := 0, tally := r.tally }
        if s.actedOn s.sink k then s else (s.noteActed s.sink k).warmReset d
      | none => s
    if r.sev = 3 ∧ r.scope = 3 then
      let k := s.pkg src.pkg
      if k.st = .on ∧ !k.downFor.contains r.tally then
        (s.onPkg src.pkg fun k => { k with downFor := k.downFor ++ [r.tally] }).powerDown src.pkg .heldOff
      else s
    else s

/-- The Watermaster reads one die's alarm FIFO until it is empty. -/
def State.pollDie (s : State) (d : DieId) : State :=
  let l := (s.die d).trb.fifo
  let s := s.forEach l fun s _ => s.popAlarm d
  s.forEach l fun s c => s.actCopy d c

/-- CHAIN_ALARM_POLL: every reachable FIFO, each 1 ms (R336, R371, R406). -/
def execChainAlarmPoll (t : Nat) (s : State) : Out :=
  let s := s.powerClock t
  .next (s.forEach s.ownDies fun s d => if s.agentUp d then s.pollDie d else s)

/-! ### Handling (R398, R400) -/

/-- The class a HANDLING bit stands for. -/
def classOf (c : Fin 9) : Nat := c.val + 1

/-- A HANDLING bit cleared. -/
def State.clearHandling (s : State) (d : DieId) (c : Nat) : State :=
  s.onDie d fun x => { x with trb := { x.trb with handling := x.trb.handling.filter fun e => e.1 ≠ c } }

/-- HANDLING_DONE: rider firmware clears the bit (R398). -/
def execHandlingDone (d : DieId) (cls : Fin 9) (t : Nat) (s : State) : Out := .next ((s.clock t).clearHandling d (classOf cls))

/-- HANDLING_TIMEOUT: a bit set for 100 ms is cleared and HANDLER_HUNG raised (R400). -/
def execHandlingTimeout (d : DieId) (cls : Fin 9) (t : Nat) (s : State) : Out :=
  let s := s.clock t
  match (s.die d).trb.handling.find? fun e => e.1 = classOf cls with
  | some e =>
    if e.2 + 100 * ms ≤ s.now then .next ((s.clearHandling d (classOf cls)).report d { code := 0xE808, field := s.fieldByte d, info := classOf cls })
    else .next s
  | none => .next s

/-! ### Errors of dies (R102, R393) -/

/-- RIDER_FAULT (R390, R393). -/
def execRiderFault (d : DieId) (core : Nat) (t : Nat) (s : State) : Out :=
  let s := s.clock t
  if s.dieUp d then .next (s.report d { code := 0xE807, field := s.fieldByte d, locKind := 4, location := core }) else .next s

/-- DIE_UE (R390, R393). -/
def execDieUe (d : DieId) (t : Nat) (s : State) : Out :=
  let s := s.clock t
  if s.dieUp d then .next (s.report d { code := 0xE904, field := s.fieldByte d }) else .next s

/-- FABRIC_UE (R390, R391, R393). -/
def execFabricUe (d : DieId) (t : Nat) (s : State) : Out :=
  let s := s.clock t
  if s.dieUp d then .next (s.report d { code := 0xE905 }) else .next s

/-- PINNING_PAD_OVERFLOW: pinning is lost, its fields' sluices are named, and the port retrains at once (R102, R104). -/
def execPinningPadOverflow (p : PortId) (t : Nat) (s : State) : Out :=
  let s := s.clock t
  if (s.port p).link.st ≠ .up ∨ !s.dieUp p.die then .next s else .next ((s.portIdle p).startTraining p)

end Sys2Proof.Machine
end

