-- ==== Sys2Proof/Machine/Observe.lean ====
section
/-! DEFINITION. Sys2Proof/Machine/Observe.lean: histograms, per-field counters, traces and debug space (R190, R409-R421, Tables
17.2-17.4). -/

namespace Sys2Proof.Machine

/-! ### Histograms (R409-R411) -/

/-- The bin of a depth in its quadrant (R409). -/
def depthBin (n : Nat) : Nat := min 15 (log2Floor 64 (n + 1))

/-- Adds 1 to a bin; a bin that is full stops the instance (R411). -/
def Hist.add (h : Hist) (k : Nat) : Hist :=
  let v := NMap.get h.bins k 0 + 1
  { h with bins := NMap.set h.bins k v, stopped := h.stopped || v = 0xFFFFFFFF }

/-- One sample in each quadrant an instance that runs counts; a quadrant without a depth keeps its bins (R409, R410). -/
def Hist.sample (h : Hist) (depths : List (Option Nat)) : Hist :=
  let one := fun (h : Hist) (e : Option Nat × Nat) => match e.1 with | some n => h.add (16 * e.2 + depthBin n) | none => h
  if h.armed ∧ !h.stopped then depths.zipIdx.foldl one h else h

/-- The four depths of a port. A ROOT port counts no planned depth, so its bins 0-31 stay 0; `own` names the field of a field
instance, whose bins 32-47 stay 0 (R409, R410, Table 17.2). -/
def Port.depths (y : Port) (root : Bool) (own : Option Nat) : List (Option Nat) :=
  [if root then none else some y.planned.egress.length, if root then none else some y.planned.rxq.length,
   if own.isSome then none else some y.side.unacked.length,
   some (match own with | some f => y.held f | none => y.side.hold.length)]

/-- A port's sampler takes one sample (R409, R410). -/
def State.samplePort (s : State) (p : PortId) : State :=
  let own := (s.portField p).map fnum
  s.onPort p fun y =>
    { y with histTray := y.histTray.sample (y.depths (profileOf p = 0) none),
             histField := if own.isSome then y.histField.sample (y.depths (profileOf p = 0) own) else y.histField }

/-- HISTOGRAM_SAMPLE: each port of a die whose tally is a multiple of 1,024 (R409). -/
def execHistogramSample (t : Nat) (s : State) : Out :=
  let s := s.clock t
  .next (s.forEach (s.allDies.filter fun d => s.dieUp d && (s.die d).tally.counting && s.tallyOf d % 1024 = 0) fun s d =>
    s.forEach (diePorts d) State.samplePort)

/-- The 64 bins of an instance (R411). -/
def Hist.bytes (h : Hist) : List Byte := (List.range 64).flatMap fun k => le 4 (NMap.get h.bins k 0)

/-- The scope of the field of a port reference (R275). -/
def State.refScope (s : State) (p : PRef) : Option (Fin 9) := ((s.portRef p).bind s.portField).map fscope

/-- OBS_HIST op 0: the tray owner arms the tray instance, the owner of the port's field the field instance (R410, R411). -/
def execObsHistArm (r : MReq) (p : PRef) (s : State) : Out :=
  .next (s.serve r { opcode := 0x0802, len := 8, need := .either (s.refScope p), acts := some 0 } (.obsHistArm r p) noEarly fun s =>
    match s.portRef p with
    | none => s.reply r 0x0802 eArgRange []
    | some q =>
      let fresh : Hist := { armed := true }
      (s.onPort q fun y => if (s.scope 0).ownedBy r then { y with histTray := fresh } else { y with histField := fresh }).reply r
        0x0802 0 [])

/-- OBS_HIST op 1 (R410, R411). -/
def execObsHistRead (r : MReq) (p : PRef) (s : State) : Out :=
  .next (s.serve r { opcode := 0x0802, len := 8, need := .either (s.refScope p), acts := some 0 } (.obsHistRead r p) noEarly fun s =>
    match s.portRef p with
    | none => s.reply r 0x0802 eArgRange []
    | some q =>
      let y := s.port q
      s.reply r 0x0802 0 (if (s.scope 0).ownedBy r then y.histTray else y.histField).bytes)

/-! ### Counters (R412, R413) -/

/-- The record of a member die: counters in the order of R284 (R412). -/
def State.cntRecord (s : State) (d : DieId) : List Byte :=
  let c := (s.die d).cnt
  let l := [c.planned, c.poison, c.refusals, c.sourced, c.holdFull, c.contained]
  le 1 d.tray.val ++ le 1 d.addr ++ le 1 (if l.contains 0xFFFFFFFF then 1 else 0) ++ le 1 0 ++ le 8 (s.tallyOf d) ++ l.flatMap (le 4)

/-- OBS_COUNTERS (R412, R413). -/
def execObsCounters (r : MReq) (field : Nat) (s : State) : Out :=
  .next (s.serve r { opcode := 0x0801, len := 4, need := .either (fieldScope field), acts := fieldScope field }
    (.obsCounters r field) (fun _ => if (fieldOfNum field).isNone then some eArgRange else none) fun s =>
    match fieldOfNum field with
    | none => s.reply r 0x0801 eArgRange []
    | some f =>
      let x := s.field f
      if !x.live then s.reply r 0x0801 eFieldState []
      else s.reply r 0x0801 0 (le 1 field ++ le 1 x.dies.length ++ le 2 0 ++ le 8 (s.tallyOf s.server) ++ x.dies.flatMap s.cntRecord))

/-! ### Traces (R416-R418) -/

/-- The scope whose ownership a trace request uses: the one its token names, else the first it owns (R417, R418). -/
def State.traceScope (s : State) (r : MReq) : Option (Fin 9) :=
  let mine := (List.finRange 9).filter fun n => (s.scope n).ownedBy r
  match mine.find? fun n => (s.scope n).token = r.token with
  | some n => some n
  | none => mine.head?

/-- What the trace operations state of themselves. -/
def State.traceCmd (s : State) (r : MReq) : Cmd :=
  { opcode := 0x0803, len := 8, expert := true, need := .either (s.traceScope r), acts := some 0 }

/-- Whether the claim under which a recorder was started still stands (17, When things coincide). -/
def State.starterOwns (s : State) (x : Trace) : Bool :=
  let n : Fin 9 := match x.only.bind fieldOfNum with | some f => fscope f | none => 0
  match x.starter with
  | some (rid, src) => (s.scope n).owned && (s.scope n).rid = rid && (s.scope n).src = src
  | none => false

/-- Whether the requester started a recorder. -/
def Trace.startedBy (x : Trace) (r : MReq) : Bool := x.starter = some (r.rid, r.port)

/-- OBS_TRACE op 0: clears and starts the recorder (R417, R418). -/
def execObsTraceStart (r : MReq) (p : PRef) (s : State) : Out :=
  .next (s.serve r (s.traceCmd r) (.obsTraceStart r p) noEarly fun s =>
    match s.portRef p with
    | none => s.reply r 0x0803 eArgRange []
    | some q =>
      let x := (s.port q).trace
      if x.running ∧ !x.startedBy r ∧ s.starterOwns x then s.reply r 0x0803 eObsBusy []
      else
        let only := match s.traceScope r with | some n => (chanField n).map fnum | none => none
        let only := if (s.scope 0).ownedBy r then none else only
        (s.onPort q fun y => { y with trace := { running := true, starter := some (r.rid, r.port), only := only } }).reply r 0x0803 0 [])

/-- The 32 bytes of a trace record (Table 17.3). -/
def TraceRec.bytes (x : TraceRec) : List Byte :=
  le 8 x.tally ++ le 1 x.dir ++ le 1 x.cls ++ le 1 (if x.retx then 1 else 0) ++ le 1 0 ++ le 2 x.seq.toNat ++ le 2 0
    ++ slice x.header 0 16

/-- OBS_TRACE op 1: up to 127 of the oldest records leave the buffer (R417). -/
def execObsTraceRead (r : MReq) (p : PRef) (s : State) : Out :=
  .next (s.serve r (s.traceCmd r) (.obsTraceRead r p) noEarly fun s =>
    match s.portRef p with
    | none => s.reply r 0x0803 eArgRange []
    | some q =>
      let x := (s.port q).trace
      if x.starter.isSome ∧ !x.startedBy r then s.reply r 0x0803 eObsBusy []
      else
        let l := x.records.take 127
        (s.onPort q fun y => { y with trace := { y.trace with records := x.records.drop 127 } }).reply r 0x0803 0
          (le 2 l.length ++ le 4 x.lost ++ le 2 0 ++ l.flatMap TraceRec.bytes))

/-- OBS_TRACE op 2: the recorder stops (R417). -/
def execObsTraceStop (r : MReq) (p : PRef) (s : State) : Out :=
  .next (s.serve r (s.traceCmd r) (.obsTraceStop r p) noEarly fun s =>
    match s.portRef p with
    | none => s.reply r 0x0803 eArgRange []
    | some q =>
      let x := (s.port q).trace
      if x.running ∧ !x.startedBy r then s.reply r 0x0803 eObsBusy []
      else (s.onPort q fun y => { y with trace := { y.trace with running := false } }).reply r 0x0803 0 [])

/-! ### Debug space (R190, R419-R421) -/

/-- A tile's registers as debug space shows them: V0-V63, S0-S15, T0 at 0x2100; the pairing table and poison marks behind it have
no stated layout (Table 17.4; log entry 58). -/
def Tile.debugByte (x : Tile) (o n : Nat) : Byte :=
  if o < 0x2000 then (le 128 (NMap.get x.v (o / 128) 0).toNat).getD (o % 128) 0
  else if o < 0x2040 then (le 4 (NMap.get x.s ((o - 0x2000) / 4) 0).toNat).getD (o % 4) 0
  else if o < 0x2100 then 0
  else if o = 0x2100 then x.t0
  else Config.debugByte n o

/-- Bytes of a die's debug space, within one 64-byte unit; none for an address the die does not implement. `n` names the free
values of this access (R419, Table 17.4). -/
def State.debugRead (s : State) (d : DieId) (a len n : Nat) : Option (List Byte) :=
  if a < 0x1000000 then some (s.mgmtRead d a len)
  else if 0x8000000 ≤ a ∧ a < 0x9000000 then some ((List.range len).map fun i => Config.debugByte n i)
  else if d.isCompute ∧ 0x10000000 ≤ a ∧ a < 0x20000000 then
    some (Memory.read ((s.die d).tile ((a - 0x10000000) / 0x40000)).sram (a % 0x40000) len)
  else if d.isCompute ∧ 0x20000000 ≤ a ∧ a < 0x21000000 then
    some ((List.range len).map fun i => ((s.die d).tile ((a - 0x20000000) / 0x4000)).debugByte ((a + i) % 0x4000) n)
  else if h : 0x30000000 ≤ a ∧ a < 0x30005000 then
    let p : PortId := ⟨d, ⟨(a - 0x30000000) / 0x1000, by omega⟩⟩
    if portExists p then some (s.klcRead p (a % 0x1000) len) else none
  else none

/-- A tile register written by debug, 4 bytes at an aligned offset (Table 17.4). What lies behind T0 has no stated layout, and a
write there changes no state the model names (log entry 58). -/
def Tile.debugWrite (x : Tile) (o : Nat) (bs : List Byte) : Tile :=
  let v := ofLe bs
  if o < 0x2000 then
    let old := (NMap.get x.v (o / 128) 0).toNat
    let k := 8 * (o % 128)
    let cut := old / 2 ^ k % 2 ^ 32 * 2 ^ k
    { x with v := NMap.set x.v (o / 128) (BitVec.ofNat 1024 (old - cut + v * 2 ^ k)) }
  else if o < 0x2040 then { x with s := NMap.set x.s ((o - 0x2000) / 4) (BitVec.ofNat 32 v) }
  else if o = 0x2100 then { x with t0 := BitVec.ofNat 8 v }
  else x

/-- One aligned 4-byte write to debug space: the state after it, none where the write is ignored (Table 17.4, R428). -/
def State.debugWord (s : State) (d : DieId) (a : Nat) (bs : List Byte) : Option State :=
  let v : Word := BitVec.ofNat 32 (ofLe bs)
  if a = 0x2000 then (if v.getLsbD 8 then some (s.popAlarm d) else none)
  else if a < 0x1000000 then s.regWrite (.debug d) (mgmtReg d a) v
  else if 0x10000000 ≤ a ∧ a < 0x20000000 then
    some (s.onTile d ((a - 0x10000000) / 0x40000) fun x =>
      { x with sram := Memory.write x.sram (a % 0x40000) bs })
  else if 0x20000000 ≤ a ∧ a < 0x21000000 then
    some (s.onTile d ((a - 0x20000000) / 0x4000) fun x => x.debugWrite (a % 0x4000) bs)
  else if h : 0x30000000 ≤ a ∧ a < 0x30005000 then
    s.regWrite (.debug d) (klcReg ⟨d, ⟨(a - 0x30000000) / 0x1000, by omega⟩⟩ (a % 0x1000)) v
  else none

/-- A debug write: none for an address the die does not implement; the state after it and whether any of it was performed. -/
def State.debugWrite (s : State) (d : DieId) (a : Nat) (data : List Byte) : Option (State × Bool) :=
  if (s.debugRead d a data.length 0).isNone then none
  else some ((List.range (data.length / 4)).foldl (fun x i =>
    match x.1.debugWord d (a + 4 * i) (slice data (4 * i) 4) with
    | some s' => (s', true)
    | none => x) (s, false))

/-- Whether an access is aligned, of 4 to 64 bytes and within a 64-byte unit (R190, R419). -/
def debugShape (a len : Nat) : Bool := a % 4 = 0 && len % 4 = 0 && 4 ≤ len && len ≤ 64 && a % 64 + len ≤ 64

/-- Bytes a debug message to a die may carry (Table 7.10). -/
def debugMax (d : DieId) : Nat := if d.isCompute then 64 else 16

/-- What the debug commands state of themselves; a misshapen access is out of range. -/
def debugCmd (opcode len : Nat) : Cmd := { opcode := opcode, len := len, expert := true, need := .tray, acts := some 0 }

/-- A flag of R293 set for the field that holds a die. -/
def State.flagField (s : State) (d : DieId) (g : Field → Field) : State := match s.fieldOf d with | some f => s.onField f g | none => s

/-- DBG_READ: reads a die's debug space and sets READ for its field (R419, R421). A die that does not run gives no answer. -/
def execDbgRead (r : MReq) (tray die addr len : Nat) (s : State) : Out :=
  .next (s.serve r (debugCmd 0x0804 12) (.dbgRead r tray die addr len) noEarly fun s =>
    match s.dieRef tray die with
    | none => s.reply r 0x0804 eArgRange []
    | some d =>
      if !debugShape addr len then s.reply r 0x0804 eArgRange []
      else if !s.dieUp d then s.reply r 0x0804 eSfTimeout []
      else if debugMax d < len then s.reply r 0x0804 eSfUnsupported []
      else match s.debugRead d addr len s.free with
        | none => s.reply r 0x0804 eSfUnsupported []
        | some bs => ((s.spend).flagField d fun x => { x with read := true }).reply r 0x0804 0 bs)

/-- DBG_WRITE: writes a die's debug space and sets TOUCHED for its field where the write is performed (R419-R421). -/
def execDbgWrite (r : MReq) (tray die addr : Nat) (data : List Byte) (s : State) : Out :=
  .next (s.serve r (debugCmd 0x0805 (12 + data.length)) (.dbgWrite r tray die addr data) noEarly fun s =>
    match s.dieRef tray die with
    | none => s.reply r 0x0805 eArgRange []
    | some d =>
      if !debugShape addr data.length then s.reply r 0x0805 eArgRange []
      else if !s.dieUp d then s.reply r 0x0805 eSfTimeout []
      else if debugMax d < data.length then s.reply r 0x0805 eSfUnsupported []
      else match s.debugWrite d addr data with
        | none => s.reply r 0x0805 eSfUnsupported []
        | some (s', done) => (if done then s'.flagField d fun x => { x with touched := true } else s').reply r 0x0805 0 [])

/-- Whether a debug message is one its agent serves: F0, unit, shape, size (R190, R419, Table 7.10). -/
def debugOk (h : Hdr) : Bool := h.field = 0 && h.dstUnit = 0x18 && debugShape h.addr h.len && h.len ≤ debugMax h.dst

/-- DBG_RD (R190). -/
def execDbgRd (h : Hdr) (t : Nat) (s : State) : Out :=
  let s := s.clock t
  if !s.dieUp h.dst then .next s
  else
    let s := s.arrive h
    if !debugOk h then .next (s.unsupported h)
    else match s.debugRead h.dst h.addr h.len s.free with
      | none => .next (s.unsupported h)
      | some bs => .next ((s.spend).respond h 0x48 0 bs)

/-- DBG_WR (R190). -/
def execDbgWr (h : Hdr) (data : List Byte) (t : Nat) (s : State) : Out :=
  let s := s.clock t
  if !s.dieUp h.dst then .next s
  else
    let s := s.arrive h
    if !debugOk h ∨ data.length ≠ h.len then .next (s.unsupported h)
    else match s.debugWrite h.dst h.addr data with
      | none => .next (s.unsupported h)
      | some (s', _) => .next (s'.respond h 0x48 0 [])

/-- DBG_RSP: a requester receives debug data or an acknowledgement (R184, R190). -/
def execDbgRsp (h : Hdr) (data : List Byte) (t : Nat) (s : State) : Out :=
  let s := s.clock t
  if s.dieUp h.dst then .next (s.complete h data) else .next s

end Sys2Proof.Machine
end

