-- ==== Sys2Proof/Machine/Plans.lean ====
section
/-! DEFINITION. Sys2Proof/Machine/Plans.lean: the plan and launch commands 0x0401-0x0407 (R24, R36, R105, R106, R137, R168,
R229-R231, R237-R239, R244). Each acts on the field of the channel it arrives on (R261). -/

namespace Sys2Proof.Machine

/-- What Table 10.6 states of a plan command of the field owner. -/
def planCmd (r : MReq) (opcode len : Nat) : Cmd :=
  { opcode := opcode, len := len, need := .scope (if r.chan = 0 then none else some r.chan),
    acts := if r.chan = 0 then none else some r.chan }

/-- Links a plan needs a slot on that stand in Dry, or enter it past the commit point, at this tray's ends (R137). -/
def State.dryPorts (s : State) (p : Plan) : List PortId :=
  ((p.ports.filter p.holds).flatMap s.linkEnds).eraseDups.filter fun q =>
    q.die.tray = s.span.num && ((s.port q).link.st = .dry || (s.port q).dry.phase = .committed)

/-- PLAN_LOAD: the range, the field, the staged position, then the loader's stages; the plan is staged and its contents copied. A
link in Dry is woken, and the command completes once it is UP (R24, R25, R36, R137). -/
def execPlanLoad (r : MReq) (ofs len : Nat) (s : State) : Out :=
  .next (s.serve r (planCmd r 0x0401 16) (.planLoad r ofs len)
    (fun s => match chanField r.chan with
      | some f => if (s.field f).loadRange ofs len then s.refuses (some f) false else some eArgRange
      | none => some eArgChannel) fun s =>
    match chanField r.chan with
    | none => s.reply r 0x0401 eArgChannel []
    | some f =>
      let x := s.field f
      if !x.live ∨ x.st = .disabled then s.reply r 0x0401 eFieldState []
      else if !x.loadRange ofs len then s.reply r 0x0401 eArgRange []
      else if x.staged.isSome then s.reply r 0x0401 ePlanBusy []
      else
        let s := s.syncCaches f
        match s.load f ofs len with
        | .refuse st => s.reply r 0x0401 st []
        | .deficit st l => s.reply r 0x0401 st (deficitBytes l)
        | .ok p =>
          let s := (s.copyInits p).onField f fun x => { x with staged := some p }
          let dry := s.dryPorts p
          let s := s.forEach ((p.ports.filter p.holds).flatMap s.linkEnds).eraseDups fun s q =>
            if q.die.tray = s.span.num then s.wakePort q else s
          if dry.isEmpty then s.reply r 0x0401 0 (le 8 p.id.toNat)
          else (s.onField f fun x => { x with waking := dry }).holdField f r 0x0401)

/-- The plan in a position: 0 staged, 1 active. -/
def Field.planAt (x : Field) (pos : Nat) : Option Plan := if pos = 0 then x.staged else x.active

/-- PLAN_UNLOAD (R230, Table 10.6). -/
def execPlanUnload (r : MReq) (pos : Nat) (s : State) : Out :=
  .next (s.serve r (planCmd r 0x0402 4) (.planUnload r pos)
    (fun s => if 1 < pos then some eArgRange else s.refuses (chanField r.chan) false) fun s =>
    match chanField r.chan with
    | none => s.reply r 0x0402 eArgChannel []
    | some f =>
      let x := s.field f
      if (x.planAt pos).isNone then s.reply r 0x0402 eNoStaged []
      else if pos = 1 ∧ x.inFlight ≠ 0 then s.reply r 0x0402 eFieldBusy []
      else
        let s := s.onField f fun x =>
          if pos = 0 then { x with staged := none, reloadDue := if x.reloadDue = some true then none else x.reloadDue }
          else { x with active := none, reloadDue := if x.reloadDue = some false then none else x.reloadDue }
        s.settleForced.reply r 0x0402 0 [])

/-- PLAN_ACTIVATE: the staged plan becomes active without a launch, by still-water where Table 9.2 allows it, else by reload; a
stale one does not become active (R106, R229, R237, R238). -/
def execPlanActivate (r : MReq) (s : State) : Out :=
  .next (s.serve r (planCmd r 0x0403 0) (.planActivate r) (fun s => s.refuses (chanField r.chan) false) fun s =>
    match chanField r.chan with
    | none => s.reply r 0x0403 eArgChannel []
    | some f =>
      let x := s.field f
      match x.staged with
      | none => s.reply r 0x0403 eNoStaged []
      | some p =>
        if x.inFlight ≠ 0 then s.reply r 0x0403 eFieldBusy []
        else if p.stale then s.reply r 0x0403 ePlanLedger (deficitBytes (s.ledgerDeficits p))
        else
          let soonest := s.leadTally f + leadTime
          let s := (s.onField f fun x => { x with notBefore := soonest, ended := none }).holdField f r 0x0403
          if p.fastFits ∧ x.dies.all s.dieDrained = true then s.startSwitch f .still true
          else s.startReload f true)

/-- PLAN_RELOAD: the active plan in place, or the staged plan, by reload; refused while a launch is running (R230, R239). -/
def execPlanReload (r : MReq) (pos : Nat) (s : State) : Out :=
  .next (s.serve r (planCmd r 0x0404 4) (.planReload r pos)
    (fun s => if 1 < pos then some eArgRange else s.refuses (chanField r.chan) false) fun s =>
    match chanField r.chan with
    | none => s.reply r 0x0404 eArgChannel []
    | some f =>
      let x := s.field f
      match x.planAt pos with
      | none => s.reply r 0x0404 eNoStaged []
      | some p =>
        if x.run.isSome then s.reply r 0x0404 eFieldBusy []
        else if pos = 0 ∧ p.stale then s.reply r 0x0404 ePlanLedger (deficitBytes (s.ledgerDeficits p))
        else
          let soonest := s.leadTally f + leadTime
          let s := (s.onField f fun x => { x with notBefore := soonest, ended := none }).holdField f r 0x0404
          s.startReload f (pos = 0))

/-- A cancel of the running launch: it stops at the next boundary; at once while the field is frozen, with STEP_REACHED at the lowest
boundary that every die passed (R105, R168, R244). -/
def State.cancelRun (s : State) (f : Fin 8) : State :=
  let x := s.field f
  match x.run with
  | some r => if x.frozen then s.stopCancelled f (x.lowest r) (x.frozenAt.getD 0) else s.onField f fun x => { x with run := some { r with cancel := true } }
  | none => if x.frozen then (s.onField f fun x => { x with stepClosed := true }).startDrain f .cancel else s

/-- Whether ring entry `i` is in flight and not yet taken (R41). -/
def Field.waitsInRing (x : Field) (i : Nat) : Bool :=
  (List.range (x.prod - x.taken).toNat).any fun k => (x.taken.toNat + k) % 64 = i

/-- LAUNCH_CANCEL: a launch named by its ring index and SEQ, or every launch in flight; one already completed is left as it is
(R244, Table 10.6). -/
def execLaunchCancel (r : MReq) (idx : Nat) (all : Bool) (seq : Half) (s : State) : Out :=
  .next (s.serve r (planCmd r 0x0405 4) (.launchCancel r idx all seq) noEarly fun s =>
    match chanField r.chan with
    | none => s.reply r 0x0405 eArgChannel []
    | some f =>
      let x := s.field f
      if !all ∧ (64 ≤ idx ∨ fieldAt (x.entryBytes idx) 0 2 ≠ seq.toNat) then s.reply r 0x0405 eArgRange []
      else
        let waiting := (List.range 64).filter fun i => x.waitsInRing i && (all || i = idx)
        let mine : Bool := all || (match x.run with | some q => q.idx = idx | none => false)
        let s := s.onField f fun x => { x with cancels := (x.cancels ++ waiting).eraseDups }
        let s := if mine then s.cancelRun f else s
        s.reply r 0x0405 0 [])

/-- PLAN_INFO (Table 10.6). -/
def execPlanInfo (r : MReq) (pos : Nat) (s : State) : Out :=
  .next (s.serve r { opcode := 0x0406, len := 4 } (.planInfo r pos) noEarly fun s =>
    match chanField r.chan with
    | none => s.reply r 0x0406 eArgChannel []
    | some f =>
      if 1 < pos then s.reply r 0x0406 eArgRange []
      else
        match (s.field f).planAt pos with
        | none => s.reply r 0x0406 eNoStaged []
        | some p =>
          s.reply r 0x0406 0 (le 8 p.id.toNat ++ le 8 p.ofs ++ le 4 p.len ++ le 4 p.steps.length ++ le 1 p.entries.length
            ++ le 2 p.flags ++ le 5 0))

/-- The plan a frozen field's launches run: the staged one while its switch is unfinished. -/
def Field.resumePlan (x : Field) : Option Plan :=
  match x.run with
  | some r => if r.kind = .switch ∧ x.reloadDue ≠ some false then x.staged else x.active
  | none => x.active

/-- LAUNCH_RESUME: the lead die names the resume tally; a field frozen in a switch step first completes the switch by reload
(R105, R106, R168, R239). -/
def execLaunchResume (r : MReq) (s : State) : Out :=
  .next (s.serve r (planCmd r 0x0407 0) (.launchResume r) noEarly fun s =>
    match chanField r.chan with
    | none => s.reply r 0x0407 eArgChannel []
    | some f =>
      let x := s.field f
      let stale := x.resumePlan.filter fun p => p.stale
      if !x.frozen then s.reply r 0x0407 eFieldState []
      else if x.split then s.reply r 0x0407 eSluiceSplit []
      else
        match stale with
        | some p => s.reply r 0x0407 ePlanLedger (deficitBytes (s.ledgerDeficits p))
        | none =>
          match x.run with
          | some q =>
            if q.kind = .switch then (s.holdField f r 0x0407).startReload f (x.reloadDue ≠ some false)
            else
              let s := (s.abandonChange f).nameChange f .resume
              s.reply r 0x0407 0 (le 8 (match (s.field f).change with | some c => c.boundary | none => 0))
          | none =>
            let s := (s.abandonChange f).nameChange f .resume
            s.reply r 0x0407 0 (le 8 (match (s.field f).change with | some c => c.boundary | none => 0)))

end Sys2Proof.Machine
end

