-- ==== Sys2Proof/Machine/Startup.lean ====
section
/-! DEFINITION. Sys2Proof/Machine/Startup.lean: the tray power-up, failed bring-ups, the headgate chain and its isolation, firmware
loads, HBM, ready and degraded (R350, R362-R386). -/

namespace Sys2Proof.Machine

/-! ### Tray power-up and bring-ups (R350, R362) -/

/-- TRAY_POWER_UP: the input comes into range, the Watermaster's firmware runs and powers the packages up (R362, R348, R349). A tray
whose Watermaster runs already sees only time pass. -/
def execTrayPowerUp (t : Nat) (s : State) : Out :=
  let s := s.powerClock t
  if s.input.present ∧ s.wm.running = true then .next s
  else
    let now := s.now
    let s := s.setInput { present := true }
    .next ((s.onWm fun w => { w with running := true, restarting := none, recovery := false, bootedAt := now, lastBeat := now }).trayUp
      allPkgs)

/-- BRINGUP_DEADLINE: neither ready nor degraded 180 s after the first gate enable (R350, R363). -/
def execBringupDeadline (t : Nat) (s : State) : Out :=
  let s := s.powerClock t
  match s.wm.firstGate with
  | some a => if s.wmUp ∧ a + 180 * sec ≤ s.now then .next s.failBringup else .next s
  | none => .next s

/-- BRINGUP_RETRY: 10 s after a failed bring-up the tray is powered up again (R350). -/
def execBringupRetry (t : Nat) (s : State) : Out :=
  let s := s.powerClock t
  match s.wm.retryFrom with
  | some a => if s.wmUp ∧ a + 10 * sec ≤ s.now then .next (s.startTray allPkgs) else .next s
  | none => .next s

/-! ### Frames on the headgate chain (R365-R367) -/

/-- The address a die's agent answers at: 0x08 under TESTMODE, else the one it was assigned, 0 before (R225, R366). -/
def Boot.answersAt (b : Boot) : Byte := if b.testMode then 0x08 else b.addr

/-- A chain frame: address, command, a 2-byte length, the data and the CRC-16 over what precedes it (R365; log entry 155). -/
def chainFrame (addr cmd : Byte) (data : List Byte) : List Byte :=
  let body := [addr, cmd] ++ le 2 data.length ++ data
  body ++ le 2 (crc16 body)

/-- The four bits that stand on HG_DAT[3:0] clock by clock: one clock with HG_DAT[0] alone low, then each byte, low half first (R365;
log entry 155). -/
def chainClocks (bs : List Byte) : List (BitVec 4) :=
  0xE#4 :: bs.flatMap fun b => [b.extractLsb' 0 4, b.extractLsb' 4 4]

/-- The HG_SEL input of a die: the switch drives X, each die the next (R364). -/
def State.selIn (s : State) (d : DieId) : Bool :=
  if d.slot = 0 then (s.pkg d.pkg).sw else (s.die ⟨d.tray, d.pkg, Fin.ofNat 5 (d.slot.val - 1)⟩).boot.selOut

/-- Whether a die's agent answers frames: reachable, and assigned, selected or under TESTMODE (R225, R366). -/
def State.answers (s : State) (d : DieId) : Bool :=
  let b := (s.die d).boot
  s.agentUp d && b.fitted && (b.testMode || b.addr ≠ 0 || s.selIn d)

/-- An agent's answer frame: its address, 0x80 plus the command, a status byte first (R365; log entry 57). -/
def State.chainAnswer (s : State) (d : DieId) (cmd : Byte) (ok : Bool) (data : List Byte) : State :=
  s.emit (.chain (s.die d).boot.answersAt (0x80 + cmd) (Config.chainStatus ok :: data))

/-- The Watermaster keeps what an answered ASSIGN gave it: the next slot's identity; with five, the checks follow (R367). -/
def State.assigned (s : State) (d : DieId) : State :=
  let k := s.pkg d.pkg
  if k.enumDone ∨ k.enumerated ≠ d.slot.val ∨ (s.die d).boot.addr.toNat ≠ d.addr then s
  else
    let x := s.die d
    let s := s.onPkg d.pkg fun k => { k with enumerated := k.enumerated + 1, stored := NMap.set k.stored d.slot.val x.ident, tries := 0 }
    if d.slot = 4 then s.checkPlacement d.pkg else s

/-- CHAIN_ASSIGN: an unassigned agent whose HG_SEL input is asserted takes the address and asserts its HG_SEL output (R366,
R367). -/
def execChainAssign (d : DieId) (addr : Byte) (s : State) : Out :=
  let b := (s.die d).boot
  if !s.agentUp d ∨ !b.fitted ∨ b.testMode ∨ b.addr ≠ 0 ∨ !s.selIn d then .next s
  else
    let s := s.onDie d fun x => { x with boot := { x.boot with addr := addr, selOut := true } }
    .next ((s.chainAnswer d 0x01 true []).assigned d)

/-- CHAIN_READ: data of the management space, 16 MiB of it (R365, R428). -/
def execChainRead (d : DieId) (ofs len : Nat) (s : State) : Out :=
  if !s.answers d then .next s
  else if ofs + len ≤ 0x1000000 ∧ len < 65536 then .next (s.chainAnswer d 0x02 true (s.mgmtRead d ofs len))
  else .next (s.chainAnswer d 0x02 false [])

/-- The words of a WRITE, each to the register at its offset; POP of HG_ALMCTL acts (R365, R428). -/
def State.chainWrite (s : State) (d : DieId) (ofs : Nat) (data : List Byte) : State :=
  s.forEach (List.range (data.length / 4)) fun s i =>
    let a := ofs + 4 * i
    let v : Word := BitVec.ofNat 32 (fieldAt data (4 * i) 4)
    if a = 0x2000 then (if v.getLsbD 8 then s.popAlarm d else s) else (s.regWrite (.chain d) (mgmtReg d a) v).getD s

/-- CHAIN_WRITE: whole aligned words within the management space (R365, R428). -/
def execChainWrite (d : DieId) (ofs : Nat) (data : List Byte) (s : State) : Out :=
  if !s.answers d then .next s
  else if ofs % 4 = 0 ∧ data.length % 4 = 0 ∧ ofs + data.length ≤ 0x1000000 then
    .next ((s.chainWrite d ofs data).chainAnswer d 0x03 true [])
  else .next (s.chainAnswer d 0x03 false [])

/-- A frame reaches the agent of die d: the command it spells runs; nothing answers one whose address is not the agent's, whose
length or CRC is wrong, or whose command is none of the three (R365; log entry 155). -/
def State.takeFrame (s : State) (d : DieId) (bs : List Byte) : Out :=
  let n := fieldAt bs 2 2
  let data := slice bs 4 n
  let addr : Byte := BitVec.ofNat 8 (fieldAt bs 0 1)
  let cmd := fieldAt bs 1 1
  if bs.length ≠ n + 6 ∨ bs ≠ chainFrame addr (BitVec.ofNat 8 cmd) data ∨ addr ≠ (s.die d).boot.answersAt then .next s
  else if cmd = 1 ∧ n = 1 then execChainAssign d (BitVec.ofNat 8 (fieldAt data 0 1)) s
  else if cmd = 2 ∧ n = 6 then execChainRead d (fieldAt data 0 4) (fieldAt data 4 2) s
  else if cmd = 3 ∧ 4 ≤ n then execChainWrite d (fieldAt data 0 4) (slice data 4 (n - 4)) s
  else .next s

/-! ### A chain line stuck low (R369-R371) -/

/-- A package's switch opens: it is UNREACHABLE; one that powers down keeps powering down. The root and the serving instance leave
with a package that leaves state 2 (R364, R369, R374). -/
def State.isolate (s : State) (n : Fin 4) : State :=
  let k := s.pkg n
  if !k.sw then s
  else if k.st = .poweringDown then s.onPkg n fun k => { k with sw := false }
  else
    let s := s.onPkg n fun k => { k with sw := false, st := .unreachable, beforeIsolation := k.st }
    if k.st = .on then (s.rootLost ⟨s.span.num, n, 0⟩).serverLost n else s

/-- CHAIN_STUCK: recovery clocks mend it, the tray side fails as a whole, or the packages found stuck or changed are isolated, each
reported (R369). -/
def execChainStuck (x : StuckLine) (t : Nat) (s : State) : Out :=
  let s := s.powerClock t
  if !s.wmUp then .next s
  else if x.recovers then .next (s.wmReport { code := 0xE803 })
  else if x.traySide then .next ((s.forEach allPkgs State.isolate).wmReport { code := 0xE805 })
  else
    .next (s.forEach (allPkgs.filter fun n => (x.pkgs.contains n || x.uidChanged.contains n) && (s.pkg n).sw) fun s n =>
      (s.isolate n).wmReport { code := 0xE804, locKind := 6, location := n.val })

/-- CHAIN_RETRY: with every line high and the five UIDs as stored, the package returns to the state it held; an interrupted
enumeration goes on, and the caps of the chain reach its Steward again (R370, R371). -/
def execChainRetry (pkg : Fin 4) (linesHigh uidsMatch : Bool) (t : Nat) (s : State) : Out :=
  let s := s.powerClock t
  let k := s.pkg pkg
  if !s.wmUp ∨ k.st ≠ .unreachable ∨ !linesHigh ∨ !uidsMatch then .next s
  else
    let s := s.onPkg pkg fun k => { k with st := k.beforeIsolation, sw := true, beforeIsolation := .off }
    let s := if k.beforeIsolation = .poweringUp ∧ !k.enumDone then s.enumerate pkg else s
    .next ((s.receiveCap pkg 1 s.wm.redfishTray (NMap.get s.wm.redfishPkg pkg.val 0)).receiveCap pkg 2 s.protTrayCap
      (s.protPkgCap pkg))

/-! ### Firmware (R372, R373, R375, R376) -/

/-- The X of a package runs its firmware: its Bridge ports train with X leading, its Steward starts with the caps in force (R294,
R373, R375, R378). -/
def State.startIo (s : State) (d : DieId) : State :=
  let now := s.now
  let s := s.onDie d fun x => { x with boot := { x.boot with st := .firmware }, pow := { x.pow with lastTelemetry := now, samples := 0 } }
  let s := s.forEach (diePorts d) fun s p => (s.onLink p fun l => { l with enabled := true }).startTraining p
  let n := d.pkg
  let s := s.onPkg n fun k => { k with trayCaps := [], pkgCaps := [] }
  let s := s.receiveCap n 0 s.capTray (NMap.get s.capPkg n.val 0)
  (s.receiveCap n 1 s.wm.redfishTray (NMap.get s.wm.redfishPkg n.val 0)).receiveCap n 2 s.protTrayCap (s.protPkgCap n)

/-- Whether a component can reach a die now: over the chain to an X, over its Bridge link to a compute die; a die in the carrier runs
test firmware alone (R226, R372). -/
def State.canLoad (s : State) (d : DieId) : Bool :=
  d.tray = s.span.num && (s.die d).boot.st = .bootRom && !(s.die d).boot.loadFailed &&
    !(s.die d).boot.testMode && (if d.isCompute then s.runs (ioOf d) && s.linkUp ⟨d, 4⟩ else s.agentUp d)

/-- A component fails its CRC for the third time: FW_LOAD_FAIL, the Watermaster's report for an X, the X's for a compute die
(R372). -/
def State.loadFails (s : State) (d : DieId) : State :=
  let s := s.onDie d fun x => { x with boot := { x.boot with loadFailed := true } }
  let e : Err := { code := 0xE806, location := d.addr }
  if d.isCompute then s.report (ioOf d) e else s.wmReport e

/-- FIRMWARE_COMPONENT_ARRIVAL: a component is checked; a bad one is loaded again at most twice; a die with all of its components
runs, and a reload its field waited for starts (R239, R372). An X takes two, HX-1 and HC-2, a compute die one. -/
def execFirmwareComponentArrival (d : DieId) (crcOk : Bool) (t : Nat) (s : State) : Out :=
  let s := s.powerClock t
  let b := (s.die d).boot
  if !s.canLoad d then .next s
  else if !crcOk then
    let s := s.onDie d fun x => { x with boot := { x.boot with loads := x.boot.loads + 1 } }
    if b.loads + 1 < 3 then .next s else .next (s.loadFails d)
  else
    let s := s.onDie d fun x => { x with boot := { x.boot with comps := x.boot.comps + 1, loads := 0 } }
    if d.isCompute then
      let s := s.onDie d fun x => { x with boot := { x.boot with st := .firmware } }
      .next (match s.fieldOf d with | some f => s.reloadNow f | none => s)
    else if 2 ≤ b.comps + 1 then .next (s.startIo d)
    else .next s

/-! ### HBM (R373) -/

/-- HBM_TRAINING_DONE: both stacks trained, or HBM_FAIL: the die trains no edge port (R373). -/
def execHbmTrainingDone (d : DieId) (ok : Bool) (t : Nat) (s : State) : Out :=
  let s := s.powerClock t
  let b := (s.die d).boot
  if !d.isCompute ∨ !s.runs d ∨ d.tray ≠ s.span.num ∨ b.hbmTrained = true ∨ b.hbmFailed = true then .next s
  else if ok then .next (s.onDie d fun x => { x with boot := { x.boot with hbmTrained := true } })
  else .next ((s.onDie d fun x => { x with boot := { x.boot with hbmFailed := true } }).report d { code := 0xE205, location := d.addr })

/-- HBM_SCRUB_DONE: all of HBM is 0 with fresh ECC, and the edge ports follow (R279, R373). -/
def execHbmScrubDone (d : DieId) (t : Nat) (s : State) : Out :=
  let s := s.powerClock t
  let b := (s.die d).boot
  if !d.isCompute ∨ !s.runs d ∨ d.tray ≠ s.span.num ∨ b.hbmTrained = false ∨ b.hbmScrubbed = true then .next s
  else .next ((s.onDie d fun x => { x with mem := [], poison := [], boot := { x.boot with hbmScrubbed := true } }).enableEdges d)

/-! ### Ready and degraded (R379-R383) -/

/-- The serving instance declares a tray state. The first one after a tray power-up ends the bring-up and confirms a trial bundle
(R350); later ones raise vector 25 to the tray owner, or leave it undelivered where no host agent is (R14, R381). -/
def State.declare (s : State) (x : TraySt) : State :=
  let first : Bool := s.tray = .bringUp
  let s := s.setTray x
  if first then
    s.onWm fun w =>
      let w := { w with firstGate := none }
      if w.bootsrc = 0 then { (w.onActive fun b => if b.st = .trial then { b with st := .active } else b) with failedBringups := 0 }
      else w
  else s.notify 0 25

/-- TRAY_READY: every criterion of R379 holds (R377, R379, R381). -/
def execTrayReady (t : Nat) (s : State) : Out :=
  let s := s.clock t
  if s.serving.isSome ∧ s.tray ≠ .ready ∧ s.readyNow = true then .next (s.declare .ready) else .next s

/-- TRAY_DEGRADED: bring-up has settled with an exception and a package meets its criteria; later, a criterion fails (R380,
R381). -/
def execTrayDegraded (t : Nat) (s : State) : Out :=
  let s := s.clock t
  if s.serving.isSome ∧ s.tray ≠ .degraded ∧ s.degradedNow = true then .next (s.declare .degraded) else .next s

end Sys2Proof.Machine
end

