-- ==== Sys2Proof/Machine/Dispatch.lean ====
section
/-! DEFINITION. Sys2Proof/Machine/Dispatch.lean: one arm per command, one direct call of its meaning. -/

namespace Sys2Proof.Machine

/-- The effect of a command on everything but the queue. -/
def exec (i : Instr) (s : State) : Host.Outcome State Fault Refusal :=
  match i with
  | .idTray r => Sys2Proof.Machine.execIdTray r s
  | .idDie r tray die => Sys2Proof.Machine.execIdDie r tray die s
  | .status r => Sys2Proof.Machine.execStatus r s
  | .placement r pkg => Sys2Proof.Machine.execPlacement r pkg s
  | .ownClaim r scope => Sys2Proof.Machine.execOwnClaim r scope s
  | .ownRelease r scope => Sys2Proof.Machine.execOwnRelease r scope s
  | .ownHeartbeat r scope => Sys2Proof.Machine.execOwnHeartbeat r scope s
  | .ownHandover r scope succRid succSrc => Sys2Proof.Machine.execOwnHandover r scope succRid succSrc s
  | .ownAccept r scope => Sys2Proof.Machine.execOwnAccept r scope s
  | .ownQuery r => Sys2Proof.Machine.execOwnQuery r s
  | .ownNolapse r scope set => Sys2Proof.Machine.execOwnNolapse r scope set s
  | .ownSeize r scope => Sys2Proof.Machine.execOwnSeize r scope s
  | .ownExpert r field enable => Sys2Proof.Machine.execOwnExpert r field enable s
  | .fieldCreate r b => Sys2Proof.Machine.execFieldCreate r b s
  | .fieldResize r b => Sys2Proof.Machine.execFieldResize r b s
  | .fieldDestroy r field => Sys2Proof.Machine.execFieldDestroy r field s
  | .fieldDisable r field => Sys2Proof.Machine.execFieldDisable r field s
  | .fieldEnable r field => Sys2Proof.Machine.execFieldEnable r field s
  | .fieldStatus r field => Sys2Proof.Machine.execFieldStatus r field s
  | .planLoad r ofs len => Sys2Proof.Machine.execPlanLoad r ofs len s
  | .planUnload r pos => Sys2Proof.Machine.execPlanUnload r pos s
  | .planActivate r => Sys2Proof.Machine.execPlanActivate r s
  | .planReload r pos => Sys2Proof.Machine.execPlanReload r pos s
  | .launchCancel r idx all seq => Sys2Proof.Machine.execLaunchCancel r idx all seq s
  | .planInfo r pos => Sys2Proof.Machine.execPlanInfo r pos s
  | .launchResume r => Sys2Proof.Machine.execLaunchResume r s
  | .ledgerRead r first count => Sys2Proof.Machine.execLedgerRead r first count s
  | .linkCfgRead r p ofs len => Sys2Proof.Machine.execLinkCfgRead r p ofs len s
  | .linkRetrain r p => Sys2Proof.Machine.execLinkRetrain r p s
  | .linkDisable r p => Sys2Proof.Machine.execLinkDisable r p s
  | .linkDisableForce r p => Sys2Proof.Machine.execLinkDisableForce r p s
  | .linkEnable r p => Sys2Proof.Machine.execLinkEnable r p s
  | .linkDry r p enable idleUs => Sys2Proof.Machine.execLinkDry r p enable idleUs s
  | .linkPond r p pond holds => Sys2Proof.Machine.execLinkPond r p pond holds s
  | .linkThresh r p figs => Sys2Proof.Machine.execLinkThresh r p figs s
  | .linkCntClear r p mask => Sys2Proof.Machine.execLinkCntClear r p mask s
  | .sfTimer r ms => Sys2Proof.Machine.execSfTimer r ms s
  | .spanForm r shape info => Sys2Proof.Machine.execSpanForm r shape info s
  | .spanDissolve r info => Sys2Proof.Machine.execSpanDissolve r info s
  | .powerRead r => Sys2Proof.Machine.execPowerRead r s
  | .powerCap r tray pkgs => Sys2Proof.Machine.execPowerCap r tray pkgs s
  | .fieldRung r field ceiling => Sys2Proof.Machine.execFieldRung r field ceiling s
  | .calOff r field set => Sys2Proof.Machine.execCalOff r field set s
  | .pkgRearm r pkg => Sys2Proof.Machine.execPkgRearm r pkg s
  | .pkgPowerOn r pkg => Sys2Proof.Machine.execPkgPowerOn r pkg s
  | .pkgPowerOff r pkg => Sys2Proof.Machine.execPkgPowerOff r pkg s
  | .trbRead r tray die first count => Sys2Proof.Machine.execTrbRead r tray die first count s
  | .trbClear r tray die mask => Sys2Proof.Machine.execTrbClear r tray die mask s
  | .obsCounters r field => Sys2Proof.Machine.execObsCounters r field s
  | .obsHistArm r p => Sys2Proof.Machine.execObsHistArm r p s
  | .obsHistRead r p => Sys2Proof.Machine.execObsHistRead r p s
  | .obsTraceStart r p => Sys2Proof.Machine.execObsTraceStart r p s
  | .obsTraceRead r p => Sys2Proof.Machine.execObsTraceRead r p s
  | .obsTraceStop r p => Sys2Proof.Machine.execObsTraceStop r p s
  | .dbgRead r tray die addr len => Sys2Proof.Machine.execDbgRead r tray die addr len s
  | .dbgWrite r tray die addr data => Sys2Proof.Machine.execDbgWrite r tray die addr data s
  | .fwStatus r => Sys2Proof.Machine.execFwStatus r s
  | .fwStage r host len => Sys2Proof.Machine.execFwStage r host len s
  | .fwActivate r => Sys2Proof.Machine.execFwActivate r s
  | .fwRollback r => Sys2Proof.Machine.execFwRollback r s
  | .fwAbort r => Sys2Proof.Machine.execFwAbort r s
  | .testStart r p ctrl uiLimit user => Sys2Proof.Machine.execTestStart r p ctrl uiLimit user s
  | .testStop r p => Sys2Proof.Machine.execTestStop r p s
  | .testRead r p lane => Sys2Proof.Machine.execTestRead r p lane s
  | .repairClear r p => Sys2Proof.Machine.execRepairClear r p s
  | .dbiMbxLockRead port k rid t => Sys2Proof.Machine.execDbiMbxLockRead port k rid t s
  | .mbxSubmit port k rid t => Sys2Proof.Machine.execMbxSubmit port k rid t s
  | .mbxRelease port k rid t => Sys2Proof.Machine.execMbxRelease port k rid t s
  | .mbxResponsePosted port k t => Sys2Proof.Machine.execMbxResponsePosted port k t s
  | .mbxLockSubmitTimeout port k t => Sys2Proof.Machine.execMbxLockSubmitTimeout port k t s
  | .mbxLockDoneTimeout port k t => Sys2Proof.Machine.execMbxLockDoneTimeout port k t s
  | .wmAbsentTimeout port k t => Sys2Proof.Machine.execWmAbsentTimeout port k t s
  | .ownClaimWindowClose scope t => Sys2Proof.Machine.execOwnClaimWindowClose scope t s
  | .ownerLapse scope t => Sys2Proof.Machine.execOwnerLapse scope t s
  | .handoverExpiry scope t => Sys2Proof.Machine.execHandoverExpiry scope t s
  | .ownBeatWrite port rid bits t => Sys2Proof.Machine.execOwnBeatWrite port rid bits t s
  | .launchDoorbell port rid f prod t => Sys2Proof.Machine.execLaunchDoorbell port rid f prod t s
  | .launchRingWrite port rid f ofs data => Sys2Proof.Machine.execLaunchRingWrite port rid f ofs data s
  | .hostBar4Read port rid ofs len => Sys2Proof.Machine.execHostBar4Read port rid ofs len s
  | .hostBar4Write port rid ofs data => Sys2Proof.Machine.execHostBar4Write port rid ofs data s
  | .hostPortReset port => Sys2Proof.Machine.execHostPortReset port s
  | .pciePowerStateChange port d3 => Sys2Proof.Machine.execPciePowerStateChange port d3 s
  | .idsTallyLoRead port => Sys2Proof.Machine.execIdsTallyLoRead port s
  | .idsTallyHiRead port => Sys2Proof.Machine.execIdsTallyHiRead port s
  | .trbSummaryWrite port rid value => Sys2Proof.Machine.execTrbSummaryWrite port rid value s
  | .hgAlmctlPop d => Sys2Proof.Machine.execHgAlmctlPop d s
  | .tstCtrlStart p => Sys2Proof.Machine.execTstCtrlStart p s
  | .tstCtrlStop p => Sys2Proof.Machine.execTstCtrlStop p s
  | .registerWrite path reg value => Sys2Proof.Machine.execRegisterWrite path reg value s
  | .testRunLimit p => Sys2Proof.Machine.execTestRunLimit p s
  | .stepBoundary f t => Sys2Proof.Machine.execStepBoundary f t s
  | .launchTake f t => Sys2Proof.Machine.execLaunchTake f t s
  | .homeRecallDone f d t => Sys2Proof.Machine.execHomeRecallDone f d t s
  | .routerForward d idx cycle err => Sys2Proof.Machine.execRouterForward d idx cycle err s
  | .meshPacketArrival d tile p => Sys2Proof.Machine.execMeshPacketArrival d tile p s
  | .ruleFire d tile => Sys2Proof.Machine.execRuleFire d tile s
  | .iterationComplete d tile tag => Sys2Proof.Machine.execIterationComplete d tile tag s
  | .creditReturn d src dst channel => Sys2Proof.Machine.execCreditReturn d src dst channel s
  | .memoryReadRequest d ep addr p reply t => Sys2Proof.Machine.execMemoryReadRequest d ep addr p reply t s
  | .memoryWrite d ep addr p t => Sys2Proof.Machine.execMemoryWrite d ep addr p t s
  | .memoryReadResponse d ep t => Sys2Proof.Machine.execMemoryReadResponse d ep t s
  | .ingressInject p => Sys2Proof.Machine.execIngressInject p s
  | .drainMarkerArrival d tile channel => Sys2Proof.Machine.execDrainMarkerArrival d tile channel s
  | .tileDrained d tile => Sys2Proof.Machine.execTileDrained d tile s
  | .configPacketArrival d tile p => Sys2Proof.Machine.execConfigPacketArrival d tile p s
  | .tileSwitch d tile => Sys2Proof.Machine.execTileSwitch d tile s
  | .switchStepEnd f d t => Sys2Proof.Machine.execSwitchStepEnd f d t s
  | .dieSwitchReport f d t => Sys2Proof.Machine.execDieSwitchReport f d t s
  | .reloadDeadline f d t => Sys2Proof.Machine.execReloadDeadline f d t s
  | .fieldDrained f t => Sys2Proof.Machine.execFieldDrained f t s
  | .drainLimit f t => Sys2Proof.Machine.execDrainLimit f t s
  | .flushComplete f t => Sys2Proof.Machine.execFlushComplete f t s
  | .tallyMarkSend p t => Sys2Proof.Machine.execTallyMarkSend p t s
  | .tallyMark p m frac t => Sys2Proof.Machine.execTallyMark p m frac t s
  | .slewStep d t => Sys2Proof.Machine.execSlewStep d t s
  | .parentSilence d t => Sys2Proof.Machine.execParentSilence d t s
  | .holdoverDescendantEnd d t => Sys2Proof.Machine.execHoldoverDescendantEnd d t s
  | .holdoverVacant d t => Sys2Proof.Machine.execHoldoverVacant d t s
  | .holdoverFault d t => Sys2Proof.Machine.execHoldoverFault d t s
  | .leaderClaim c t => Sys2Proof.Machine.execLeaderClaim c t s
  | .leaderClaimWindowClose t => Sys2Proof.Machine.execLeaderClaimWindowClose t s
  | .referenceInputFail t => Sys2Proof.Machine.execReferenceInputFail t s
  | .rootTallyStart t => Sys2Proof.Machine.execRootTallyStart t s
  | .fieldChangeNotice f d t => Sys2Proof.Machine.execFieldChangeNotice f d t s
  | .fieldChangeConfirm f d t => Sys2Proof.Machine.execFieldChangeConfirm f d t s
  | .commitDeadline f t => Sys2Proof.Machine.execCommitDeadline f t s
  | .fieldChangeCommit f d t => Sys2Proof.Machine.execFieldChangeCommit f d t s
  | .stewardLimit f t => Sys2Proof.Machine.execStewardLimit f t s
  | .trainingTimeout p t => Sys2Proof.Machine.execTrainingTimeout p t s
  | .trainingBackoffEnd p t => Sys2Proof.Machine.execTrainingBackoffEnd p t s
  | .detectAnswer p t => Sys2Proof.Machine.execDetectAnswer p t s
  | .clockLocked p t => Sys2Proof.Machine.execClockLocked p t s
  | .eqRecordAnswer p t => Sys2Proof.Machine.execEqRecordAnswer p t s
  | .eqFetchTimeout p t => Sys2Proof.Machine.execEqFetchTimeout p t s
  | .equaliseDone p passed t => Sys2Proof.Machine.execEqualiseDone p passed t s
  | .repairDone p peerMaps failing t => Sys2Proof.Machine.execRepairDone p peerMaps failing t s
  | .alignDone p lanesReversed bundlesReversed t => Sys2Proof.Machine.execAlignDone p lanesReversed bundlesReversed t s
  | .configDone p peer t => Sys2Proof.Machine.execConfigDone p peer t s
  | .pinDone p trips t => Sys2Proof.Machine.execPinDone p trips t s
  | .eqRecordStore p flashOk t => Sys2Proof.Machine.execEqRecordStore p flashOk t s
  | .roleSwap r t => Sys2Proof.Machine.execRoleSwap r t s
  | .modulePresenceChange cage m t => Sys2Proof.Machine.execModulePresenceChange cage m t s
  | .laneSilent p l t => Sys2Proof.Machine.execLaneSilent p l t s
  | .substitutionTxSwitch p t => Sys2Proof.Machine.execSubstitutionTxSwitch p t s
  | .substitutionRxSwitch r t => Sys2Proof.Machine.execSubstitutionRxSwitch r t s
  | .clockPairLoss p t => Sys2Proof.Machine.execClockPairLoss p t s
  | .linkDown p cause t => Sys2Proof.Machine.execLinkDown p cause t s
  | .dryIdleElapsed p t => Sys2Proof.Machine.execDryIdleElapsed p t s
  | .dryReq p t => Sys2Proof.Machine.execDryReq p t s
  | .dryAck p t => Sys2Proof.Machine.execDryAck p t s
  | .dryNak p t => Sys2Proof.Machine.execDryNak p t s
  | .dryCommit p t => Sys2Proof.Machine.execDryCommit p t s
  | .dryEntered p t => Sys2Proof.Machine.execDryEntered p t s
  | .wake p cause t => Sys2Proof.Machine.execWake p cause t s
  | .dryExitDone p dead pinOk t => Sys2Proof.Machine.execDryExitDone p dead pinOk t s
  | .plannedPositionSend p bundle slot => Sys2Proof.Machine.execPlannedPositionSend p bundle slot s
  | .sidePositionSend p bundle slot t => Sys2Proof.Machine.execSidePositionSend p bundle slot t s
  | .plannedFlitReceive p bundle slot rx t => Sys2Proof.Machine.execPlannedFlitReceive p bundle slot rx t s
  | .sideFlitReceive p bundle slot rx t => Sys2Proof.Machine.execSideFlitReceive p bundle slot rx t s
  | .nak p expected t => Sys2Proof.Machine.execNak p expected t s
  | .ackTimerExpiry p t => Sys2Proof.Machine.execAckTimerExpiry p t s
  | .replaySync p expected next t => Sys2Proof.Machine.execReplaySync p expected next t s
  | .lcRequestRepeat p => Sys2Proof.Machine.execLcRequestRepeat p s
  | .cfgRd p ofs count => Sys2Proof.Machine.execCfgRd p ofs count s
  | .cfgRsp p ofs stat data => Sys2Proof.Machine.execCfgRsp p ofs stat data s
  | .errorWindowEnd p t => Sys2Proof.Machine.execErrorWindowEnd p t s
  | .sluice d f port boundary from_ t => Sys2Proof.Machine.execSluice d f port boundary from_ t s
  | .messageForward d m arrival t => Sys2Proof.Machine.execMessageForward d m arrival t s
  | .credit h data => Sys2Proof.Machine.execCredit h data s
  | .creditSendDue a t => Sys2Proof.Machine.execCreditSendDue a t s
  | .census h data t => Sys2Proof.Machine.execCensus h data t s
  | .censusDue a => Sys2Proof.Machine.execCensusDue a s
  | .lostNotice h data t => Sys2Proof.Machine.execLostNotice h data t s
  | .routeHold h t => Sys2Proof.Machine.execRouteHold h t s
  | .routeClear h t => Sys2Proof.Machine.execRouteClear h t s
  | .memRd h t => Sys2Proof.Machine.execMemRd h t s
  | .memWr h data t => Sys2Proof.Machine.execMemWr h data t s
  | .memWrNp h data t => Sys2Proof.Machine.execMemWrNp h data t s
  | .memAtomic h data t => Sys2Proof.Machine.execMemAtomic h data t s
  | .memCpl h data t => Sys2Proof.Machine.execMemCpl h data t s
  | .memCplNd h t => Sys2Proof.Machine.execMemCplNd h t s
  | .ownReq h t => Sys2Proof.Machine.execOwnReq h t s
  | .ownGrant h data t => Sys2Proof.Machine.execOwnGrant h data t s
  | .inval h => Sys2Proof.Machine.execInval h s
  | .invalAck h data => Sys2Proof.Machine.execInvalAck h data s
  | .release h data t => Sys2Proof.Machine.execRelease h data t s
  | .intMsg h data t => Sys2Proof.Machine.execIntMsg h data t s
  | .dbgRd h t => Sys2Proof.Machine.execDbgRd h t s
  | .dbgWr h data t => Sys2Proof.Machine.execDbgWr h data t s
  | .dbgRsp h data t => Sys2Proof.Machine.execDbgRsp h data t s
  | .alarm h data t => Sys2Proof.Machine.execAlarm h data t s
  | .sfTimerExpiry d unit tag t => Sys2Proof.Machine.execSfTimerExpiry d unit tag t s
  | .sfCeilingExpiry d unit tag t => Sys2Proof.Machine.execSfCeilingExpiry d unit tag t s
  | .telemetryRecord d x t => Sys2Proof.Machine.execTelemetryRecord d x t s
  | .telemetryLost d t => Sys2Proof.Machine.execTelemetryLost d t s
  | .thermalLevelLeave d t => Sys2Proof.Machine.execThermalLevelLeave d t s
  | .limitRaiseDue f d k t => Sys2Proof.Machine.execLimitRaiseDue f d k t s
  | .thermalTrip d t => Sys2Proof.Machine.execThermalTrip d t s
  | .capReceive pkg source trayCap pkgCap t => Sys2Proof.Machine.execCapReceive pkg source trayCap pkgCap t s
  | .regulatorSettled d t => Sys2Proof.Machine.execRegulatorSettled d t s
  | .calWindowMeasure d railMa t => Sys2Proof.Machine.execCalWindowMeasure d railMa t s
  | .calStale d t => Sys2Proof.Machine.execCalStale d t s
  | .inputLockout t => Sys2Proof.Machine.execInputLockout t s
  | .breakerTrip pkg t => Sys2Proof.Machine.execBreakerTrip pkg t s
  | .rampTimeout pkg t => Sys2Proof.Machine.execRampTimeout pkg t s
  | .hsOvertemp pkg t => Sys2Proof.Machine.execHsOvertemp pkg t s
  | .vhsRampDone pkg t => Sys2Proof.Machine.execVhsRampDone pkg t s
  | .powerupSequenceStep pkg t => Sys2Proof.Machine.execPowerupSequenceStep pkg t s
  | .railInWindow pkg rail t => Sys2Proof.Machine.execRailInWindow pkg rail t s
  | .railWindowTimeout pkg rail t => Sys2Proof.Machine.execRailWindowTimeout pkg rail t s
  | .powerdownSequenceStep pkg slow t => Sys2Proof.Machine.execPowerdownSequenceStep pkg slow t s
  | .vhsDischarged pkg t => Sys2Proof.Machine.execVhsDischarged pkg t s
  | .pkgDown d t => Sys2Proof.Machine.execPkgDown d t s
  | .monitorScan readings t => Sys2Proof.Machine.execMonitorScan readings t s
  | .inputFault t => Sys2Proof.Machine.execInputFault t s
  | .inputReturn t => Sys2Proof.Machine.execInputReturn t s
  | .regulatorHiccup pkg rail t => Sys2Proof.Machine.execRegulatorHiccup pkg rail t s
  | .hiccupWindowEnd pkg inWindow t => Sys2Proof.Machine.execHiccupWindowEnd pkg inWindow t s
  | .regulatorLatchoff pkg rail t => Sys2Proof.Machine.execRegulatorLatchoff pkg rail t s
  | .protectiveCapClear c t => Sys2Proof.Machine.execProtectiveCapClear c t s
  | .dieWarmReset d t => Sys2Proof.Machine.execDieWarmReset d t s
  | .dieResetRelease d t => Sys2Proof.Machine.execDieResetRelease d t s
  | .redfishTrayOn t => Sys2Proof.Machine.execRedfishTrayOn t s
  | .redfishTrayForceoff t => Sys2Proof.Machine.execRedfishTrayForceoff t s
  | .redfishTrayPowercycle t => Sys2Proof.Machine.execRedfishTrayPowercycle t s
  | .powercycleOnDelay t => Sys2Proof.Machine.execPowercycleOnDelay t s
  | .redfishPkgOn pkg t => Sys2Proof.Machine.execRedfishPkgOn pkg t s
  | .redfishPkgForceoff pkg t => Sys2Proof.Machine.execRedfishPkgForceoff pkg t s
  | .redfishPkgGracefulshutdown pkg t => Sys2Proof.Machine.execRedfishPkgGracefulshutdown pkg t s
  | .redfishPkgForcerestart pkg t => Sys2Proof.Machine.execRedfishPkgForcerestart pkg t s
  | .redfishResetUnsupported => Sys2Proof.Machine.execRedfishResetUnsupported s
  | .redfishCap c watts t => Sys2Proof.Machine.execRedfishCap c watts t s
  | .redfishClearFault pkg t => Sys2Proof.Machine.execRedfishClearFault pkg t s
  | .redfishLocate l on t => Sys2Proof.Machine.execRedfishLocate l on t s
  | .redfishUpdatePush oneTime bundle t => Sys2Proof.Machine.execRedfishUpdatePush oneTime bundle t s
  | .redfishFwActivate t => Sys2Proof.Machine.execRedfishFwActivate t s
  | .redfishFwRollback t => Sys2Proof.Machine.execRedfishFwRollback t s
  | .redfishRecoveryRequest => Sys2Proof.Machine.execRedfishRecoveryRequest s
  | .watchdogExpiry t => Sys2Proof.Machine.execWatchdogExpiry t s
  | .wmFirmwareFault t => Sys2Proof.Machine.execWmFirmwareFault t s
  | .wmServiceResumed t => Sys2Proof.Machine.execWmServiceResumed t s
  | .wmHeartbeatDue t => Sys2Proof.Machine.execWmHeartbeatDue t s
  | .bootExpiryCountReset t => Sys2Proof.Machine.execBootExpiryCountReset t s
  | .buttonPress ms t => Sys2Proof.Machine.execButtonPress ms t s
  | .buttonHold t => Sys2Proof.Machine.execButtonHold t s
  | .locateTimeout l t => Sys2Proof.Machine.execLocateTimeout l t s
  | .stagingComplete image flashOk t => Sys2Proof.Machine.execStagingComplete image flashOk t s
  | .trayPowerUp t => Sys2Proof.Machine.execTrayPowerUp t s
  | .bringupDeadline t => Sys2Proof.Machine.execBringupDeadline t s
  | .bringupRetry t => Sys2Proof.Machine.execBringupRetry t s
  | .vmgtInWindow pkg t => Sys2Proof.Machine.execVmgtInWindow pkg t s
  | .chainAssign d addr => Sys2Proof.Machine.execChainAssign d addr s
  | .chainRead d ofs len => Sys2Proof.Machine.execChainRead d ofs len s
  | .chainWrite d ofs data => Sys2Proof.Machine.execChainWrite d ofs data s
  | .assignNoAnswer pkg slot t => Sys2Proof.Machine.execAssignNoAnswer pkg slot t s
  | .chainStuck x t => Sys2Proof.Machine.execChainStuck x t s
  | .chainRetry pkg linesHigh uidsMatch t => Sys2Proof.Machine.execChainRetry pkg linesHigh uidsMatch t s
  | .chainAlarmPoll t => Sys2Proof.Machine.execChainAlarmPoll t s
  | .firmwareComponentArrival d crcOk t => Sys2Proof.Machine.execFirmwareComponentArrival d crcOk t s
  | .hbmTrainingDone d ok t => Sys2Proof.Machine.execHbmTrainingDone d ok t s
  | .hbmScrubDone d t => Sys2Proof.Machine.execHbmScrubDone d t s
  | .trayReady t => Sys2Proof.Machine.execTrayReady t s
  | .trayDegraded t => Sys2Proof.Machine.execTrayDegraded t s
  | .spanReform info t => Sys2Proof.Machine.execSpanReform info t s
  | .handlingDone d cls t => Sys2Proof.Machine.execHandlingDone d cls t s
  | .handlingTimeout d cls t => Sys2Proof.Machine.execHandlingTimeout d cls t s
  | .histogramSample t => Sys2Proof.Machine.execHistogramSample t s
  | .pinningPadOverflow p t => Sys2Proof.Machine.execPinningPadOverflow p t s
  | .auxiliarySupplyLoss t => Sys2Proof.Machine.execAuxiliarySupplyLoss t s
  | .riderFault d core t => Sys2Proof.Machine.execRiderFault d core t s
  | .dieUe d t => Sys2Proof.Machine.execDieUe d t s
  | .fabricUe d t => Sys2Proof.Machine.execFabricUe d t s
  | .scrubComplete f t => Sys2Proof.Machine.execScrubComplete f t s

end Sys2Proof.Machine
end

