-- ==== Sys2Proof/Safety.lean ====
section
/-! DEFINITION. Sys2Proof/Safety.lean: what a run keeps whatever is commanded: every memory in its one canonical form, and no record
or queue beyond the room the spec gives it. -/

namespace Sys2Proof.Machine

/-- A die within its room: HBM or SRAM and the tile memories canonical, 32 log entries (R396), 8 alarm copies (R406), 64 alarms
waiting (R191). -/
def Die.fits (x : Die) : Prop :=
  Memory.wf x.mem = true ∧ (∀ e ∈ x.tiles, Memory.wf e.2.sram = true) ∧ x.trb.log.length ≤ 32 ∧ x.trb.fifo.length ≤ 8 ∧
    x.side.alarms.length ≤ 64

/-- A channel's blocks in canonical form (R256). -/
def Chan.fits (c : Chan) : Prop := Memory.wf c.req = true ∧ Memory.wf c.resp = true

/-- A host port whose channels are in canonical form. -/
def HostPort.fits (h : HostPort) : Prop := ∀ e ∈ h.chans, e.2.fits

/-- A field whose launch ring is in canonical form (R426). -/
def Field.fits (x : Field) : Prop := Memory.wf x.ring = true

/-- The tray within its room: every die, host port and field, and 64 entries in the tray record (R401). -/
def State.fits (s : State) : Prop :=
  (∀ e ∈ s.dies, e.2.fits) ∧ (∀ e ∈ s.ports, e.2.fits) ∧ (∀ e ∈ s.fields, e.2.fits) ∧ s.trouble.records.length ≤ 64

/-- The block goes on from a state: its step answers a next state. -/
def State.goesOn (s : State) : Prop := ∃ t, step s = .next t

/-! ### What a command leaves alone -/

/-- The parts of the tray: the fields of its state. -/
inductive Part where
  | pending
  | waiting
  | resumed
  | wmReply
  | now
  | free
  | effects
  | serial
  | bundle
  | tray
  | span
  | peers
  | serving
  | scopes
  | targets
  | ports
  | fields
  | dies
  | links
  | ledgerEpoch
  | leader
  | cleaner
  | trouble
  | pkgs
  | wm
  | input
  | capTray
  | capPkg
  | sfTimerMs
  | trayHolder
deriving DecidableEq, Repr

/-- Whether two states hold the same in a part. -/
def State.agree (s t : State) : Part → Prop
  | .pending => t.pending = s.pending
  | .waiting => t.waiting = s.waiting
  | .resumed => t.resumed = s.resumed
  | .wmReply => t.wmReply = s.wmReply
  | .now => t.now = s.now
  | .free => t.free = s.free
  | .effects => t.effects = s.effects
  | .serial => t.serial = s.serial
  | .bundle => t.bundle = s.bundle
  | .tray => t.tray = s.tray
  | .span => t.span = s.span
  | .peers => t.peers = s.peers
  | .serving => t.serving = s.serving
  | .scopes => t.scopes = s.scopes
  | .targets => t.targets = s.targets
  | .ports => t.ports = s.ports
  | .fields => t.fields = s.fields
  | .dies => t.dies = s.dies
  | .links => t.links = s.links
  | .ledgerEpoch => t.ledgerEpoch = s.ledgerEpoch
  | .leader => t.leader = s.leader
  | .cleaner => t.cleaner = s.cleaner
  | .trouble => t.trouble = s.trouble
  | .pkgs => t.pkgs = s.pkgs
  | .wm => t.wm = s.wm
  | .input => t.input = s.input
  | .capTray => t.capTray = s.capTray
  | .capPkg => t.capPkg = s.capPkg
  | .sfTimerMs => t.sfTimerMs = s.sfTimerMs
  | .trayHolder => t.trayHolder = s.trayHolder

/-- From one state to another nothing changes but the listed parts. -/
structure State.onlyChanges (s t : State) (l : List Part) : Prop where
  agrees : ∀ p, p ∉ l → s.agree t p

/-- Every field but `f`, every die but `d`, every port but `p`, every package but `n` is as it was. -/
def State.otherFields (s t : State) (f : Fin 8) : Prop := ∀ g, g ≠ f → t.field g = s.field g
def State.otherDies (s t : State) (d : DieId) : Prop := ∀ e, e ≠ d → t.die e = s.die e
def State.otherPorts (s t : State) (p : PortId) : Prop := ∀ q, q ≠ p → t.port q = s.port q
/-- Every port but the two ends of a wired link is as it was. -/
def State.otherLinks (s t : State) (p : PortId) : Prop := ∀ q, q ≠ p → wired p ≠ some q → t.port q = s.port q
def State.otherPkgs (s t : State) (n : Fin 4) : Prop := ∀ m, m ≠ n → t.pkg m = s.pkg m
def State.otherHosts (s t : State) (n : Fin 4) : Prop := ∀ m, m ≠ n → t.host m = s.host m

/-- Every byte of every die's HBM or SRAM is as it was. -/
def State.memoryKept (s t : State) : Prop := ∀ d a, Memory.get (t.die d).mem a = Memory.get (s.die d).mem a

/-- The agent at a host port owns the tray (R266). -/
abbrev State.portOwnsTray (s : State) (port : Fin 4) (rid : Half) : Prop :=
  (s.scope 0).owned = true ∧ (s.scope 0).rid = rid ∧ (s.scope 0).src.val = port.val

/-! ### Links -/

/-- A port has just entered a training state: its timer, of Table 5.3, runs from now (R114). -/
abbrev State.inTraining (s : State) (p : PortId) (st : TrSt) : Prop :=
  (s.port p).link.st = st ∧ (s.port p).link.timerFrom = s.now ∧ (s.port p).link.timer = stateTimer st (s.trainProfile p)

/-- A port in UP went down with a status, 0 for none: it is UP no more, DOWN is counted, nothing is left to send or to switch, the other
ports' links and all memory are as they were, and it is in DETECT where it may train, in the carrier to itself (R115, R162, R169, R226). -/
def State.wentDown (s t : State) (p : PortId) (status : Nat) : Prop :=
  (t.port p).link.st = (if ((s.port p).mayTrain && s.linksAllowed p) || s.trainsAlone p then .detect else .down) ∧
  (t.port p).link.last = (if status = 0 then (s.port p).link.last else status) ∧
  NMap.get (t.port p).err.cnt 9 0 = satAdd 0xFFFFFFFF (NMap.get (s.port p).err.cnt 9 0) 1 ∧
  (t.port p).side.lc = [] ∧ (t.port p).lanes.rx = none ∧ (t.port p).lanes.tx = none ∧ s.otherPorts t p ∧ s.memoryKept t

/-! ### Side flow -/

/-- The request a response names has ended with the status of the response and its data, and its TAG is free (R184). -/
def State.requestEnded (s t : State) (h : Hdr) (data : List Byte) : Prop :=
  (t.die h.dst).req h.dstUnit h.tag = none ∧
  (t.die h.dst).side.results = (s.die h.dst).side.results ++
    [{ unit := h.dstUnit, tag := h.tag, status := requestStatus h.cstatus, data := data }] ∧ s.otherDies t h.dst ∧ s.memoryKept t

/-- Line `n` of a home without a waiting request is HOME again, with the data given back where there is any (R186). -/
def State.lineHome (s t : State) (d : DieId) (n : Nat) (data : List Byte) : Prop :=
  (t.die d).dirLine n = none ∧
  (∀ i, i < data.length → Memory.get (t.die d).mem (64 * n + i) = data.getD i 0) ∧
  (∀ a, (a < 64 * n ∨ 64 * n + data.length ≤ a) → Memory.get (t.die d).mem a = Memory.get (s.die d).mem a) ∧ s.otherDies t d

/-! ### Mailbox requests -/

/-- The tray when a mailbox request arrives: the clock at its arrival, the scopes' claim windows, lapses and offers that have come
due settled (R258, R267, R268, R270). -/
def State.arrived (s : State) (r : MReq) : State := ((s.setResumed false).clock r.t).settleOwn

/-- The tray in which an accepted request is decided: its token has been a heartbeat (R268). -/
def State.atRequest (s : State) (r : MReq) : State := (s.arrived r).tokenBeat r.token

/-- The channel a request came through awaits its response; the Watermaster always does (R257). -/
abbrev State.awaits (s : State) (r : MReq) : Prop := ∀ h : r.port.val < 4, (s.chan ⟨r.port.val, h⟩ r.chan).awaits r = true

/-- The serving instance decides a request of command `c` at once: the die of its port runs, the request passes the checks of R261
and gets no status of Table 11.5, its channel awaits the response, no longer command holds the scope it acts on (or the request
has waited its turn), and the Watermaster serves it where the command needs it (R258, R259, R261, R262). -/
abbrev State.decides (s : State) (r : MReq) (c : Cmd) (early : State → Option Nat) : Prop :=
  (r.port.val < 4 → ((s.setResumed false).clock r.t).portLive (Fin.ofNat 4 r.port.val) = true) ∧
  (s.arrived r).checks r c = none ∧ early (s.arrived r) = none ∧ (s.atRequest r).awaits r ∧
  (∀ n ∈ c.acts, s.resumed = true ∨
    ((s.atRequest r).scopeHeld n (decide (c.opcode = opOwnClaim)) = false ∧ (s.atRequest r).planWaits n c.opcode = false)) ∧
  (c.wm = true → (s.atRequest r).wmFor c.opcode = true)

/-- The response to a request stands decided: in its channel, or at the Watermaster (R257, R260, R262, R267). -/
def State.answered (s : State) (r : MReq) (opcode status : Nat) (body : List Byte) : Prop :=
  if h : r.port.val < 4 then
    (s.chan ⟨r.port.val, h⟩ r.chan).decided =
      some (respOf r (decide ((s.die ⟨s.span.num, ⟨r.port.val, h⟩, 0⟩).boot.st = .bootRom)) opcode status body)
  else s.wmReply = some (respOf r false opcode status body)

/-- What runs is as it was: fields, dies, link ports, packages, the ledger, the span, the trouble record and the tray's own settings
(R269: a claim ending stops no work). -/
def State.workKept (s t : State) : Prop :=
  t.fields = s.fields ∧ t.dies = s.dies ∧ t.links = s.links ∧ t.pkgs = s.pkgs ∧ t.now = s.now ∧ t.tray = s.tray ∧ t.span = s.span ∧
  t.trouble = s.trouble ∧ t.ledgerEpoch = s.ledgerEpoch ∧ t.leader = s.leader ∧ t.input = s.input ∧ t.sfTimerMs = s.sfTimerMs ∧
  t.capTray = s.capTray ∧ t.capPkg = s.capPkg ∧ t.pending = s.pending

/-- What a grant leaves as it was: what runs, and the dies and the trouble record too, unless the Watermaster becomes tray owner while a
rollback owes the next owner vector 29, which is then counted undelivered (R14, R269, R352). -/
def State.grantKept (s t : State) (src : Fin 5) : Prop :=
  t.fields = s.fields ∧ t.links = s.links ∧ t.pkgs = s.pkgs ∧ t.now = s.now ∧ t.tray = s.tray ∧ t.span = s.span ∧
  t.ledgerEpoch = s.ledgerEpoch ∧ t.leader = s.leader ∧ t.input = s.input ∧ t.sfTimerMs = s.sfTimerMs ∧ t.capTray = s.capTray ∧
  t.capPkg = s.capPkg ∧ t.pending = s.pending ∧
  ((src ≠ 4 ∨ s.wm.fwVectorOwed = false) → t.dies = s.dies ∧ t.trouble = s.trouble)

/-- A scope newly granted to a requester: a new non-zero token, the interrupt target its port, no window, no offer (R267, R270, R271). -/
def State.granted (s t : State) (n : Fin 9) (rid : Half) (src : Fin 5) : Prop :=
  (t.scope n).owned = true ∧ (t.scope n).rid = rid ∧ (t.scope n).src = src ∧ (t.scope n).token ≠ 0 ∧
  (t.scope n).token ≠ (s.scope n).token ∧ (t.scope n).win = none ∧ (t.scope n).offer = none ∧ (t.scope n).noLapse = false ∧
  (t.scope n).beat = s.now ∧ NMap.get t.targets n.val none = targetOf src

/-! ### Power -/

/-- Every byte of every die outside a package of this tray is as it was. -/
def State.memoryKeptBut (s t : State) (n : Fin 4) : Prop :=
  ∀ d : DieId, (d.tray = s.span.num ∧ d.pkg = n) ∨ ∀ a, Memory.get (t.die d).mem a = Memory.get (s.die d).mem a

/-- Hardware has opened a package's gate: latch bits set, no rail left, its dies dark; the state is for the Watermaster to change, and
the other packages stay as they are (R314, R315, R325). -/
def State.gateOpened (s t : State) (n : Fin 4) (bits : BitVec 6) : Prop :=
  (t.pkg n).gate = false ∧ (t.pkg n).rails = [] ∧ (t.pkg n).latch = (s.pkg n).latch ||| bits ∧ (t.pkg n).st = (s.pkg n).st ∧
  (∀ d ∈ packageDies s.span.num n, (t.die d).boot.st = .off) ∧ s.otherPkgs t n ∧ s.memoryKeptBut t n

/-- The power-down of a package in state 2 has begun, and leaves a state when it ends (R322). -/
def State.goesDown (s t : State) (n : Fin 4) (after : PkgSt) : Prop :=
  (s.pkg n).st = .on → (s.pkg n).gate = true → (t.pkg n).st = .poweringDown ∧ (t.pkg n).after = after ∧ (t.pkg n).gate = true

/-- A package in state 0, 5 or 7, without a latch bit, powers up or waits its turn (R316, R320). -/
def State.comesUp (s t : State) (n : Fin 4) : Prop :=
  (s.pkg n).st.mayUp = true → (s.pkg n).latch = 0 → (t.pkg n).st = .poweringUp ∨ (t.pkg n).gateDue ≠ none

/-- A command for the whole tray powers packages up at once: one is in state 1 or 2 already, or no PENDING bank waits for the Watermaster
to restart into it (R348, R349). -/
abbrev State.upNow (s : State) : Prop :=
  (∃ m, (s.pkg m).st = .poweringUp ∨ (s.pkg m).st = .on) ∨ s.wm.other.st ≠ .pending ∨ s.wm.source ≠ 0

/-- A package is in a state, or powers down towards it, or is in state 4 for its latch (R322, Table 13.3). -/
def State.headsFor (s : State) (n : Fin 4) (x : PkgSt) : Prop :=
  (s.pkg n).st = x ∨ ((s.pkg n).st = .poweringDown ∧ (s.pkg n).after = x) ∨ ((s.pkg n).latch ≠ 0 ∧ (s.pkg n).st = .faulted)

/-- The resets of a package's dies stand: each that had its rails is in reset (R322, R324). -/
def State.inReset (s t : State) (n : Fin 4) : Prop :=
  ∀ d ∈ packageDies s.span.num n, (t.die d).boot.st = if (s.die d).boot.st = .off then .off else .inReset

/-! ### What each command may change -/

/-- The parts a command may change, the queue apart: every other part is as it was, whatever the state and the operands. -/
def touches (i : Instr) : List Part :=
  match i with
  | .idTray .. | .idDie .. | .status .. | .placement .. | .ownClaim .. | .ownRelease .. | .ownHeartbeat .. | .ownHandover ..
    | .ownAccept .. | .ownQuery .. | .ownNolapse .. | .ownSeize .. | .ownExpert .. | .fieldStatus .. | .planInfo ..
    | .ledgerRead .. | .linkCfgRead .. | .powerRead .. | .trbRead .. | .obsCounters .. | .obsHistRead .. | .fwStatus ..
    | .fwStage .. | .fwActivate .. | .fwRollback .. | .fwAbort .. | .testRead .. | .repairClear .. =>
      [.waiting, .resumed, .wmReply, .now, .free, .effects, .scopes, .targets, .ports, .dies, .trouble, .wm]
  | .fieldCreate .. | .fieldResize .. | .fieldDestroy .. | .planLoad .. | .planUnload .. | .linkRetrain .. | .linkDisable ..
    | .linkDisableForce .. | .testStart .. =>
      [.waiting, .resumed, .wmReply, .now, .free, .effects, .scopes, .targets, .ports, .fields, .dies, .links, .trouble, .wm]
  | .fieldDisable .. | .fieldEnable .. | .planActivate .. | .planReload .. | .launchCancel .. | .launchResume ..
    | .fieldRung .. | .calOff .. | .dbgRead .. =>
      [.waiting, .resumed, .wmReply, .now, .free, .effects, .scopes, .targets, .ports, .fields, .dies, .trouble, .wm]
  | .linkEnable .. | .linkDry .. | .linkPond .. | .linkThresh .. | .linkCntClear .. | .obsHistArm .. | .obsTraceStart ..
    | .obsTraceRead .. | .obsTraceStop .. | .testStop .. =>
      [.waiting, .resumed, .wmReply, .now, .free, .effects, .scopes, .targets, .ports, .dies, .links, .trouble, .wm]
  | .sfTimer .. =>
      [.waiting, .resumed, .wmReply, .now, .free, .effects, .scopes, .targets, .ports, .dies, .trouble, .wm, .sfTimerMs]
  | .spanForm .. =>
      [.waiting, .resumed, .wmReply, .now, .free, .effects, .span, .peers, .scopes, .targets, .ports, .fields, .dies, .links,
       .ledgerEpoch, .leader, .trouble, .wm, .trayHolder]
  | .spanDissolve .. =>
      [.waiting, .resumed, .wmReply, .now, .free, .effects, .span, .peers, .serving, .scopes, .targets, .ports, .fields, .dies,
       .links, .ledgerEpoch, .leader, .cleaner, .trouble, .wm]
  | .powerCap .. =>
      [.waiting, .resumed, .wmReply, .now, .free, .effects, .scopes, .targets, .ports, .dies, .trouble, .wm, .capTray, .capPkg]
  | .pkgRearm .. | .pkgPowerOn .. =>
      [.waiting, .resumed, .wmReply, .now, .free, .effects, .bundle, .tray, .span, .peers, .serving, .scopes, .targets, .ports,
       .fields, .dies, .links, .ledgerEpoch, .leader, .cleaner, .trouble, .pkgs, .wm, .capTray, .capPkg, .sfTimerMs,
       .trayHolder]
  | .pkgPowerOff .. =>
      [.waiting, .resumed, .wmReply, .now, .free, .effects, .serving, .scopes, .targets, .ports, .fields, .dies, .links, .leader,
       .trouble, .pkgs, .wm]
  | .trbClear .. =>
      [.waiting, .resumed, .wmReply, .now, .free, .effects, .scopes, .targets, .ports, .fields, .dies, .trouble, .pkgs, .wm]
  | .dbgWrite .. =>
      [.waiting, .resumed, .wmReply, .now, .free, .effects, .scopes, .targets, .ports, .fields, .dies, .links, .ledgerEpoch,
       .trouble, .wm]
  | .dbiMbxLockRead .. | .mbxRelease .. | .mbxLockSubmitTimeout .. | .mbxLockDoneTimeout .. => [.now, .ports, .dies]
  | .mbxSubmit .. => [.wmReply, .now, .ports, .dies]
  | .mbxResponsePosted .. => [.now, .effects, .ports, .dies]
  | .wmAbsentTimeout .. => [.waiting, .wmReply, .now, .ports, .dies]
  | .ownClaimWindowClose .. | .ownBeatWrite .. =>
      [.wmReply, .now, .free, .effects, .scopes, .targets, .ports, .dies, .trouble, .wm]
  | .ownerLapse .. => [.now, .effects, .scopes, .targets, .ports, .dies]
  | .handoverExpiry .. => [.now, .scopes, .dies]
  | .launchDoorbell .. => [.wmReply, .now, .free, .effects, .scopes, .targets, .ports, .fields, .dies, .trouble, .wm]
  | .launchRingWrite .. | .trbSummaryWrite .. => [.fields, .trouble]
  | .hostBar4Read .. => [.free, .ports, .fields, .dies]
  | .hostBar4Write .. => [.dies, .trouble]
  | .hostPortReset .. | .pciePowerStateChange .. | .idsTallyLoRead .. | .idsTallyHiRead .. => [.ports]
  | .hgAlmctlPop .. | .iterationComplete .. | .creditReturn .. | .tileDrained .. | .tileSwitch .. => [.dies]
  | .tstCtrlStart .. => [.free, .effects, .ports, .fields, .dies, .links, .trouble]
  | .tstCtrlStop .. | .testRunLimit .. | .lcRequestRepeat .. | .cfgRd .. | .cfgRsp .. => [.links]
  | .registerWrite .. | .chainWrite .. => [.free, .effects, .ports, .fields, .dies, .links, .ledgerEpoch, .trouble]
  | .stepBoundary .. | .switchStepEnd .. | .dieSwitchReport .. | .reloadDeadline .. =>
      [.wmReply, .now, .free, .effects, .ports, .fields, .dies, .links, .trouble]
  | .launchTake .. | .plannedFlitReceive .. => [.now, .free, .effects, .ports, .fields, .dies, .links, .trouble]
  | .homeRecallDone .. | .memoryReadRequest .. | .memoryWrite .. | .fieldDrained .. | .drainLimit ..
    | .holdoverDescendantEnd .. | .holdoverFault .. | .fieldChangeNotice .. | .fieldChangeConfirm .. | .fieldChangeCommit ..
    | .sluice .. | .census .. | .lostNotice .. | .routeHold .. | .routeClear .. | .memCpl .. | .memCplNd .. | .ownGrant ..
    | .dbgRsp .. | .sfTimerExpiry .. | .sfCeilingExpiry .. | .telemetryLost .. | .handlingTimeout .. | .riderFault ..
    | .dieUe .. | .fabricUe .. => [.now, .fields, .dies]
  | .routerForward .. | .ingressInject .. => [.free, .fields, .dies, .links]
  | .meshPacketArrival .. | .ruleFire .. | .invalAck .. => [.free, .fields, .dies]
  | .memoryReadResponse .. | .commitDeadline .. | .stewardLimit .. | .ownReq .. | .release .. | .dbgRd .. =>
      [.now, .free, .fields, .dies]
  | .drainMarkerArrival .. | .configPacketArrival .. | .credit .. | .censusDue .. | .inval .. => [.fields, .dies]
  | .flushComplete .. => [.wmReply, .now, .free, .effects, .scopes, .targets, .ports, .fields, .dies, .links, .trouble]
  | .tallyMarkSend .. | .trainingBackoffEnd .. | .eqFetchTimeout .. | .roleSwap .. | .modulePresenceChange ..
    | .substitutionTxSwitch .. | .dryIdleElapsed .. | .dryReq .. | .dryAck .. | .dryNak .. | .dryCommit .. | .wake ..
    | .histogramSample .. => [.now, .dies, .links]
  | .tallyMark .. => [.now, .effects, .fields, .dies, .links, .leader, .cleaner]
  | .slewStep .. | .parentSilence .. | .creditSendDue .. | .thermalLevelLeave .. | .regulatorSettled .. | .handlingDone .. =>
      [.now, .dies]
  | .holdoverVacant .. => [.now, .effects, .dies, .leader]
  | .leaderClaim .. => [.waiting, .wmReply, .now, .effects, .serving, .scopes, .ports, .dies, .leader]
  | .leaderClaimWindowClose .. =>
      [.waiting, .wmReply, .now, .span, .serving, .scopes, .ports, .fields, .dies, .leader, .cleaner, .trayHolder]
  | .referenceInputFail .. => [.now, .dies, .links, .leader, .cleaner]
  | .rootTallyStart .. => [.waiting, .wmReply, .now, .serving, .scopes, .ports, .dies, .leader]
  | .trainingTimeout .. | .detectAnswer .. | .clockLocked .. | .alignDone .. | .configDone .. | .dryEntered ..
    | .messageForward .. => [.now, .fields, .dies, .links]
  | .eqRecordAnswer .. => [.now, .dies, .links, .wm]
  | .equaliseDone .. => [.now, .free, .fields, .dies, .links]
  | .repairDone .. | .substitutionRxSwitch .. => [.now, .fields, .dies, .links, .wm]
  | .pinDone .. => [.wmReply, .now, .effects, .ports, .fields, .dies, .links, .ledgerEpoch, .trouble]
  | .eqRecordStore .. => [.now, .effects, .tray, .ports, .fields, .dies, .links, .trouble, .wm]
  | .laneSilent .. => [.now, .effects, .ports, .fields, .dies, .links, .trouble, .wm]
  | .clockPairLoss .. | .linkDown .. | .sidePositionSend .. | .sideFlitReceive .. | .errorWindowEnd ..
    | .pinningPadOverflow .. => [.now, .effects, .ports, .fields, .dies, .links, .trouble]
  | .dryExitDone .. => [.wmReply, .now, .effects, .ports, .fields, .dies, .links, .trouble, .wm]
  | .plannedPositionSend .. => [.fields, .dies, .links]
  | .nak .. | .ackTimerExpiry .. | .replaySync .. => [.now, .effects, .ports, .dies, .links, .trouble]
  | .memRd .. | .memAtomic .. => [.now, .free, .effects, .fields, .dies]
  | .memWr .. | .memWrNp .. => [.now, .effects, .fields, .dies]
  | .intMsg .. | .limitRaiseDue .. | .calWindowMeasure .. | .calStale .. => [.now, .effects, .ports, .fields, .dies, .trouble]
  | .dbgWr .. => [.now, .free, .effects, .ports, .fields, .dies, .links, .ledgerEpoch, .trouble]
  | .alarm .. => [.now, .effects, .tray, .ports, .fields, .dies, .trouble]
  | .telemetryRecord .. =>
      [.waiting, .wmReply, .now, .effects, .serving, .scopes, .ports, .fields, .dies, .links, .leader, .trouble, .pkgs]
  | .thermalTrip .. | .breakerTrip .. | .rampTimeout .. | .hsOvertemp .. | .vhsRampDone .. | .dieWarmReset .. =>
      [.waiting, .wmReply, .now, .serving, .scopes, .ports, .fields, .dies, .links, .leader, .pkgs]
  | .capReceive .. => [.now, .effects, .ports, .fields, .dies, .trouble, .pkgs]
  | .inputLockout .. => [.waiting, .wmReply, .now, .serving, .scopes, .ports, .fields, .dies, .links, .leader, .pkgs, .input]
  | .powerupSequenceStep .. | .dieResetRelease .. | .hbmScrubDone .. => [.now, .dies, .links, .pkgs]
  | .railInWindow .. | .hiccupWindowEnd .. | .regulatorLatchoff .. => [.now, .dies, .pkgs]
  | .railWindowTimeout .. | .powerdownSequenceStep .. | .regulatorHiccup .. | .chainAlarmPoll .. =>
      [.waiting, .wmReply, .now, .effects, .tray, .serving, .scopes, .ports, .fields, .dies, .links, .leader, .trouble, .pkgs]
  | .vhsDischarged .. | .redfishTrayOn .. | .powercycleOnDelay .. | .redfishPkgOn .. =>
      [.waiting, .wmReply, .now, .effects, .bundle, .tray, .span, .peers, .serving, .scopes, .targets, .ports, .fields, .dies,
       .links, .ledgerEpoch, .leader, .cleaner, .trouble, .pkgs, .wm, .capTray, .capPkg, .sfTimerMs, .trayHolder]
  | .pkgDown .. | .vmgtInWindow .. | .assignNoAnswer .. | .chainRetry .. =>
      [.now, .effects, .tray, .ports, .fields, .dies, .trouble, .pkgs]
  | .monitorScan .. | .inputFault .. =>
      [.waiting, .wmReply, .now, .effects, .tray, .serving, .scopes, .ports, .fields, .dies, .links, .leader, .trouble, .pkgs, .wm,
       .input]
  | .inputReturn .. | .trayPowerUp .. =>
      [.waiting, .wmReply, .now, .effects, .bundle, .tray, .span, .peers, .serving, .scopes, .targets, .ports, .fields, .dies,
       .links, .ledgerEpoch, .leader, .cleaner, .trouble, .pkgs, .wm, .input, .capTray, .capPkg, .sfTimerMs, .trayHolder]
  | .protectiveCapClear .. | .redfishCap .. => [.now, .effects, .ports, .fields, .dies, .trouble, .pkgs, .wm]
  | .redfishTrayForceoff .. | .redfishTrayPowercycle .. =>
      [.waiting, .wmReply, .now, .effects, .serving, .scopes, .ports, .fields, .dies, .links, .leader, .pkgs, .wm]
  | .redfishPkgForceoff .. | .redfishPkgGracefulshutdown .. | .redfishPkgForcerestart .. =>
      [.waiting, .wmReply, .now, .effects, .serving, .scopes, .ports, .fields, .dies, .links, .leader, .pkgs]
  | .redfishResetUnsupported | .chainRead .. => [.effects]
  | .redfishClearFault .. => [.now, .effects, .dies, .pkgs]
  | .redfishLocate .. | .redfishUpdatePush .. | .redfishFwActivate .. | .redfishFwRollback .. =>
      [.now, .effects, .dies, .pkgs, .wm]
  | .redfishRecoveryRequest => [.effects, .wm]
  | .watchdogExpiry .. | .wmFirmwareFault .. | .buttonHold .. | .stagingComplete .. =>
      [.now, .effects, .ports, .dies, .trouble, .pkgs, .wm]
  | .wmServiceResumed .. =>
      [.waiting, .wmReply, .now, .free, .effects, .bundle, .tray, .span, .peers, .serving, .scopes, .targets, .ports, .fields,
       .dies, .links, .ledgerEpoch, .leader, .cleaner, .trouble, .pkgs, .wm, .input, .capTray, .capPkg, .sfTimerMs,
       .trayHolder]
  | .wmHeartbeatDue .. => [.wmReply, .now, .free, .effects, .scopes, .targets, .ports, .dies, .trouble, .pkgs, .wm]
  | .bootExpiryCountReset .. | .buttonPress .. | .locateTimeout .. => [.now, .dies, .pkgs, .wm]
  | .bringupDeadline .. =>
      [.waiting, .wmReply, .now, .effects, .serving, .scopes, .ports, .fields, .dies, .links, .leader, .trouble, .pkgs, .wm]
  | .bringupRetry .. =>
      [.waiting, .wmReply, .now, .bundle, .tray, .span, .peers, .serving, .scopes, .targets, .ports, .fields, .dies, .links,
       .ledgerEpoch, .leader, .cleaner, .trouble, .pkgs, .wm, .capTray, .capPkg, .sfTimerMs, .trayHolder]
  | .chainAssign .. => [.effects, .tray, .ports, .fields, .dies, .trouble, .pkgs]
  | .chainStuck .. =>
      [.waiting, .wmReply, .now, .effects, .tray, .serving, .scopes, .ports, .fields, .dies, .leader, .trouble, .pkgs]
  | .firmwareComponentArrival .. => [.now, .effects, .tray, .ports, .fields, .dies, .links, .trouble, .pkgs]
  | .hbmTrainingDone .. => [.now, .fields, .dies, .pkgs]
  | .trayReady .. | .trayDegraded .. => [.now, .effects, .tray, .ports, .dies, .trouble, .wm]
  | .spanReform .. => [.now, .effects, .span, .peers, .fields, .dies, .links, .ledgerEpoch, .leader]
  | .auxiliarySupplyLoss .. =>
      [.waiting, .wmReply, .now, .serving, .scopes, .ports, .fields, .dies, .links, .leader, .pkgs, .wm, .input]
  | .scrubComplete .. => [.wmReply, .now, .free, .ports, .fields, .dies, .links]

end Sys2Proof.Machine
end

