-- ==== Sys2Proof/Certificates/Slice0/Obligations.lean ====
section
/-! DEFINITION. Sys2Proof/Certificates/Slice0/Obligations.lean: the statements for the provers. A statement about a command says
for which states it has its own effect, and what then holds of the next state. -/

open Sys2Proof Sys2Proof.Machine


/-! ### The block -/

/-- A step with a command in front of the queue is that command's effect on the state with the queue's rest. With an empty queue a step
decides a waiting command that may now be decided, in the state without it; with none, one account tick passes (the model's choice: log
entry 8). -/
def Obligations.StepRunsTheFrontCommand : Prop :=
  (∀ (c : Instr) (rest : List Instr) (s : State), s.pending = c :: rest → step s = exec c { s with pending := rest }) ∧
  (∀ s : State, s.pending = [] →
      (∀ c t, s.nextWaiting = some (c, t) → step s = exec c t) ∧
      (s.nextWaiting = none → step s = .next (s.tick 1) ∧ (s.tick 1).now = s.now + 1 ∧
        ∀ d, (s.tick 1).die d = { s.die d with tally := (s.die d).tally.count 1 }))

/-- Reset: the tray is alone as T0 of a span of one, in bring-up, nothing powered, no owner of any scope, no field, every tally UNSYNCED at
depth 0xFF and not counting, every link port DOWN, every list of trouble empty, and every byte of every memory 0 (R99, R279, R314, R377,
R385, Tables 4.3, 11.5, 13.3). The bundle in bank A, the fused records and the MSI-X masks are the model's choices (log entries 3, 5, 7)
and are not stated here. The tray after reset is in its room, its memories are canonical, and its request timer is 50 ms. -/
def Obligations.ResetIsTheUnpoweredTray : Prop :=
  (State.reset.tray = .bringUp ∧ State.reset.span.num = 0 ∧ State.reset.span.members.length = 1 ∧ State.reset.pending = [] ∧
    (∀ n, (State.reset.pkg n).st = .off) ∧ (∀ n, (State.reset.scope n).owned = false) ∧
    (∀ f, (State.reset.field f).st = .none_) ∧
    (∀ d, (State.reset.die d).tally.st = .unsynced ∧ (State.reset.die d).tally.depth = 0xFF ∧
      (State.reset.die d).tally.counting = false ∧ (State.reset.die d).trb.log = [] ∧ (State.reset.die d).trb.fec = none) ∧
    (∀ p, (State.reset.port p).link.st = .down) ∧ State.reset.trouble.summary = 0 ∧ State.reset.trouble.records = [] ∧
    (∀ d a, Memory.get (State.reset.die d).mem a = 0)) ∧
  (State.reset.fits ∧ 1 ≤ State.reset.sfTimerMs ∧ State.reset.sfTimerMs ≤ 1000)

/-! ### Mailbox: checks and queries -/

/-- The checks of a request, in order, each answered with its status and nothing else changed: neither version, not ready, an opcode the
version lacks, a plan command on channel M, a wrong length, a reserved bit set. `s` is the tray at the request's arrival; the clock and
the scopes' own deadlines are all that moves. After the header: an expert command without LEVEL 1 or without permission answers
E_OWN_LEVEL; otherwise a requester that is not the owner answers E_OWN_NOT_OWNER, and the owner with another token E_OWN_TOKEN; the owner
with its token passes. A request that fails a check is answered that status with an empty body, whatever the command, and changes nothing
else: neither a scope, a field, a die, a port, a package nor a memory moves beyond the clock and the scopes' own deadlines. Said of
OWN_RELEASE, SF_TIMER and FIELD_DESTROY. -/
def Obligations.RequestChecksInOrder : Prop :=
  (∀ (s : State) (r : MReq) (opcode len : Nat),
      (r.version ≠ 1 ∧ r.version ≠ 2 → s.headCheck opcode len r = some 0x0105) ∧
      (r.version = 2 → s.tray = .bringUp → s.headCheck opcode len r = some 0x0402) ∧
      ((r.version = 1 ∨ (r.version = 2 ∧ s.tray ≠ .bringUp)) →
        (opcodeServed r.version opcode = false → s.headCheck opcode len r = some 0x0101) ∧
        (opcodeServed r.version opcode = true →
          (opcode / 256 = 4 → r.chan = 0 → s.headCheck opcode len r = some 0x0106) ∧
          ((opcode / 256 ≠ 4 ∨ r.chan ≠ 0) →
            (r.length ≠ len → s.headCheck opcode len r = some 0x0102) ∧
            (r.length = len →
              (r.rsvd ≠ 0 ∨ r.flags.toNat / 2 ≠ 0 → s.headCheck opcode len r = some 0x0103) ∧
              (r.version = 2 → r.rsvd = 0 → r.flags.toNat / 2 = 0 → s.headCheck opcode len r = none)))))) ∧
  (∀ (s : State) (r : MReq) (c : Cmd) (n : Fin 9), s.headCheck c.opcode c.len r = none → c.need = .scope (some n) →
      (c.expert = true ∧ (r.flags.toNat % 2 = 0 ∨ s.expertOk r c.need = false) → s.checks r c = some 0x0204) ∧
      (c.expert = false ∨ (r.flags.toNat % 2 = 1 ∧ s.expertOk r c.need = true) →
        ((s.scope n).ownedBy r = false → (s.scope n).seizedFrom ≠ some (r.rid, r.port) → s.checks r c = some 0x0202) ∧
        ((s.scope n).ownedBy r = true → (s.scope n).token ≠ r.token → s.checks r c = some 0x0203) ∧
        ((s.scope n).ownedBy r = true → (s.scope n).token = r.token → s.checks r c = none))) ∧
  (∀ (s : State) (r : MReq) (k e : Nat), (r.port.val < 4 → ((s.setResumed false).clock r.t).portLive (Fin.ofNat 4 r.port.val) = true) →
      e ≠ 0x0203 →
      ((s.arrived r).checks r ⟨0x0202, 4, false, .scope (scopeOf k), scopeOf k, false⟩ = some e →
        exec (.ownRelease r k) s = .next ((s.arrived r).reply r 0x0202 e [])) ∧
      ((s.arrived r).checks r ⟨0x050A, 4, false, .tray, some 0, false⟩ = some e →
        exec (.sfTimer r k) s = .next ((s.arrived r).reply r 0x050A e [])) ∧
      ((s.arrived r).checks r ⟨0x0303, 4, false, .tray, fieldScope k, false⟩ = some e →
        exec (.fieldDestroy r k) s = .next ((s.arrived r).reply r 0x0303 e [])))

/-- ID_TRAY, ID_DIE, STATUS, PLACEMENT and OWN_QUERY answer what Table 10.6 and Table 10.7 give, and change nothing but the response (ID_DIE's
die state is a free value: log entry 22; F0 has no state and no rung: log entry 9). The bytes a response states come back whole: the
records of Tables 8.2, 8.3, 15.4, 16.5 and the scope value of Table 18.5 have the lengths the tables give. -/
def Obligations.IdentityQueriesAnswer : Prop :=
  (∀ (s : State) (r : MReq), let u := s.atRequest r
      (s.decides r ⟨0x0101, 0, false, .anyone, none, false⟩ noEarly →
        (r.version = 2 → exec (.idTray r) s = .next (u.reply r 0x0101 0 (le 8 u.serial.toNat ++ le 8 u.bundle.toNat ++
          le 1 u.span.num.val ++ le 1 u.trays.length ++ le 1 u.tray.code ++ le 1 0 ++ le 4 u.placedMask ++ le 8 0))) ∧
        (r.version = 1 → exec (.idTray r) s = .next (u.reply r 0x0101 0 (u.die (u.portDie r)).ident.bytes))) ∧
      (∀ tray die d, s.decides r ⟨0x0102, 4, false, .anyone, none, false⟩ noEarly → u.dieRef tray die = some d →
        (r.version = 2 ∨ d = u.portDie r →
          exec (.idDie r tray die) s = .next (u.spend.reply r 0x0102 0 ((u.die d).ident.bytes ++ le 4 (Config.dieState u.free).toNat))) ∧
        (r.version = 1 → d ≠ u.portDie r → exec (.idDie r tray die) s = .next (u.reply r 0x0102 0x0104 []))) ∧
      (∀ tray die, s.decides r ⟨0x0102, 4, false, .anyone, none, false⟩ noEarly → u.dieRef tray die = none →
        exec (.idDie r tray die) s = .next (u.reply r 0x0102 0x0104 [])) ∧
      (s.decides r ⟨0x0103, 0, false, .anyone, none, false⟩ noEarly →
        (r.version = 2 → exec (.status r) s = .next (u.reply r 0x0103 0 ((allPkgs.flatMap fun n => le 1 (u.pkg n).st.code) ++ le 1 0 ++
          (allFields.flatMap fun f => le 1 (u.field f).st.code) ++ le 1 0 ++ (allFields.flatMap fun f => le 1 (u.field f).rung) ++
          le 2 0 ++ le 8 u.trouble.summary.toNat ++ le 8 (u.tallyOf u.server) ++ le 32 0))) ∧
        (r.version = 1 → exec (.status r) s = .next (u.reply r 0x0103 0 (u.bootStat (u.portDie r).pkg)))) ∧
      (∀ n : Fin 4, s.decides r ⟨0x0104, 4, false, .anyone, none, false⟩ noEarly →
        ((u.pkg n).placed = true →
          exec (.placement r n.val) s = .next (u.reply r 0x0104 0 (u.die ⟨u.span.num, n, 0⟩).place.bytes)) ∧
        ((u.pkg n).placed = false → exec (.placement r n.val) s = .next (u.reply r 0x0104 0x0430 []))) ∧
      (s.decides r ⟨0x0206, 0, false, .anyone, none, false⟩ noEarly →
        exec (.ownQuery r) s = .next (u.reply r 0x0206 0 ((List.finRange 9).flatMap fun n => le 8 (u.scope n).reg)))) ∧
  ((∀ x : Ident, x.bytes.length = 64) ∧ (∀ x : Placement, x.bytes.length = 112) ∧ (∀ x : Rec, x.bytes.length = 32) ∧
    (∀ (s : State) (n : Fin 4), (s.bootStat n).length = 16) ∧ (∀ b : Boot, (fuseBytes b).length = 152) ∧
    (∀ (s : State) (f : Fin 8), (s.lveField f).length = 64))

/-! ### Ownership -/

/-- OWN_RELEASE ends the claim and OWN_HEARTBEAT renews it; OWN_NOLAPSE sets or clears the exemption; each answers OK with no body, and no
other scope moves. A claim ending stops no work. OWN_EXPERT enables or disables the expert permission of a field that exists, and answers
E_FIELD_STATE for one that does not; no other scope moves. An OWN_BEAT write, at a running port of a tray that is ready, renews exactly
the claims whose bit is written and whose owner is the writer; elsewhere it changes nothing. -/
def Obligations.OwnersActOnTheirScopes : Prop :=
  (∀ (s : State) (r : MReq) (n : Fin 9), let u := s.atRequest r
      (s.decides r ⟨0x0202, 4, false, .scope (some n), some n, false⟩ noEarly →
        ∃ t, exec (.ownRelease r n.val) s = .next t ∧ (t.scope n).owned = false ∧ t.answered r 0x0202 0 [] ∧
          (∀ m, m ≠ n → t.scope m = u.scope m) ∧ u.workKept t) ∧
      (s.decides r ⟨0x0203, 4, false, .scope (some n), some n, false⟩ noEarly →
        ∃ t, exec (.ownHeartbeat r n.val) s = .next t ∧ t.scope n = { u.scope n with beat := u.now } ∧ t.answered r 0x0203 0 [] ∧
          (∀ m, m ≠ n → t.scope m = u.scope m) ∧ u.workKept t) ∧
      (∀ b : Nat, b ≤ 1 → s.decides r ⟨0x0207, 4, true, .scope (some n), some n, false⟩ noEarly →
        ∃ t, exec (.ownNolapse r n.val b) s = .next t ∧ t.scope n = { u.scope n with noLapse := decide (b = 1) } ∧
          t.answered r 0x0207 0 [] ∧ (∀ m, m ≠ n → t.scope m = u.scope m) ∧ u.workKept t)) ∧
  (∀ (s : State) (r : MReq) (f : Fin 8) (b : Nat), let u := s.atRequest r
      b ≤ 1 → s.decides r ⟨0x0209, 4, false, .tray, some (fscope f), false⟩ noEarly →
        ((u.field f).live = true → ∃ t, exec (.ownExpert r (f.val + 1) b) s = .next t ∧
          t.scope (fscope f) = { u.scope (fscope f) with expert := decide (b = 1) } ∧ t.answered r 0x0209 0 [] ∧
          (∀ m, m ≠ fscope f → t.scope m = u.scope m) ∧ u.workKept t) ∧
        ((u.field f).live = false → exec (.ownExpert r (f.val + 1) b) s = .next (u.reply r 0x0209 0x0403 []))) ∧
  (∀ (s : State) (p : Fin 4) (rid : Half) (bits : Half) (t : Nat), let u := (s.clock t).settleOwn
      (u.portLive p = true → u.isReady = true → (u.host p).d3 = false → ∃ v, exec (.ownBeatWrite p rid bits t) s = .next v ∧
        (∀ n : Fin 9, v.scope n = if bits.getLsbD n.val = true ∧ (u.scope n).owned = true ∧ (u.scope n).rid = rid ∧ (u.scope n).src.val = p.val
          then { u.scope n with beat := u.now } else u.scope n) ∧ u.workKept v ∧ v.ports = u.ports) ∧
      (u.portLive p = false ∨ u.isReady = false ∨ (u.host p).d3 = true → exec (.ownBeatWrite p rid bits t) s = .next u))

/-- OWN_CLAIM: a vacant scope opens a claim window at that instant, or joins the open one, and nobody is answered yet; an owned scope answers
E_OWN_BUSY with the present owner's ID; a field that does not exist answers E_FIELD_STATE. A claim window that has been open for 1 ms
closes: the claimant with the lowest requester ID, then the lowest source, is granted the scope with a new non-zero token and answered it
with its owner ID; every other claimant is answered E_OWN_BUSY with the winner's owner ID. Before 1 ms nothing but the clock moves. The
claim lapses when more than 15 s pass without a heartbeat, unless no-lapse is set: the scope is vacant, and vector 26 stands at the former
owner's port. At 15 s, or with no-lapse, the claim stays. A lapse stops no work. -/
def Obligations.ClaimsWindowsAndLapses : Prop :=
  (∀ (s : State) (r : MReq) (n : Fin 9), let u := s.atRequest r
      s.decides r ⟨0x0201, 4, false, .anyone, some n, false⟩ noEarly →
        (u.scopeExists n = false → exec (.ownClaim r n.val) s = .next (u.reply r 0x0201 0x0403 [])) ∧
        (u.scopeExists n = true →
          ((u.scope n).owned = true → exec (.ownClaim r n.val) s =
            .next (u.reply r 0x0201 0x0201 (le 8 0 ++ ownerId (u.scope n).rid (u.scope n).src))) ∧
          ((u.scope n).owned = false → (u.scope n).win = none → ∃ t, exec (.ownClaim r n.val) s = .next t ∧
            t.scope n = { u.scope n with win := some ⟨u.now, [⟨r, r.rid, r.port⟩]⟩ } ∧ (∀ m, m ≠ n → t.scope m = u.scope m) ∧
            u.workKept t ∧ t.ports = u.ports) ∧
          (∀ w, (u.scope n).owned = false → (u.scope n).win = some w → ∃ t, exec (.ownClaim r n.val) s = .next t ∧
            t.scope n = { u.scope n with win := some ⟨w.opened, w.claims ++ [⟨r, r.rid, r.port⟩]⟩ } ∧
            (∀ m, m ≠ n → t.scope m = u.scope m) ∧ u.workKept t ∧ t.ports = u.ports))) ∧
  (∀ (s : State) (n : Fin 9) (t : Nat) (w : ClaimWin), let u := s.clock t
      (u.scope n).win = some w →
        (u.now < w.opened + 1000000 → exec (.ownClaimWindowClose n t) s = .next u) ∧
        (∀ c, w.opened + 1000000 ≤ u.now → c ∈ w.claims →
          (∀ o ∈ w.claims, o ≠ c → c.rid.toNat < o.rid.toNat ∨ (c.rid = o.rid ∧ c.src.val < o.src.val)) →
          (∀ o ∈ w.claims, o.req.port.val < 4 ∧ u.awaits o.req) →
          w.claims.Pairwise (fun a b => a.req.port ≠ b.req.port ∨ a.req.chan ≠ b.req.chan) →
          ∃ v, exec (.ownClaimWindowClose n t) s = .next v ∧ u.granted v n c.rid c.src ∧
            v.answered c.req 0x0201 0 (le 8 (v.scope n).token.toNat ++ ownerId c.rid c.src) ∧
            (∀ o ∈ w.claims, o ≠ c → v.answered o.req 0x0201 0x0201 (le 8 0 ++ ownerId c.rid c.src)) ∧
            (∀ m, m ≠ n → v.scope m = u.scope m) ∧ u.grantKept v c.src)) ∧
  (∀ (s : State) (n : Fin 9) (t : Nat), let u := s.clock t
      ((u.scope n).owned = true → (u.scope n).noLapse = false → (u.scope n).beat + 15000000000 < u.now →
        ∃ v, exec (.ownerLapse n t) s = .next v ∧ (v.scope n).owned = false ∧ NMap.get v.targets n.val none = none ∧
          (∀ p : Fin 4, (u.scope n).src.val = p.val → (v.host p).cause.getLsbD 26 = true) ∧
          (∀ m, m ≠ n → v.scope m = u.scope m) ∧ u.workKept v) ∧
      ((u.scope n).owned = false ∨ (u.scope n).noLapse = true ∨ u.now ≤ (u.scope n).beat + 15000000000 →
        exec (.ownerLapse n t) s = .next u))

/-- A handover: OWN_HANDOVER offers the scope to the named successor and raises vector 26 at its port, the owner keeping the scope; OWN_ACCEPT
by that successor takes it with a new token and tells the old owner by vector 26, by another requester or without an offer answers E_OWN_HANDOVER; the offer ends once more
than 1 s has passed. A successor that is the owner, or no agent, answers E_ARG_RANGE. OWN_SEIZE by the tray owner takes a field that
exists from any holder, or vacant, without a window; the Watermaster's takes the tray: a new token, and a former owner that is another
agent is told by vector 26 and remembered, so that its next command answers E_OWN_TOKEN. -/
def Obligations.HandoverAndSeizure : Prop :=
  (∀ (s : State) (r : MReq) (n : Fin 9), let u := s.atRequest r
      (∀ (rid : Half) (src : Nat), s.decides r ⟨0x0204, 8, false, .scope (some n), some n, false⟩ noEarly →
        ((4 < src ∨ (rid = (u.scope n).rid ∧ src = (u.scope n).src.val)) →
          exec (.ownHandover r n.val rid src) s = .next (u.reply r 0x0204 0x0104 [])) ∧
        (src ≤ 4 → (rid ≠ (u.scope n).rid ∨ src ≠ (u.scope n).src.val) → ∃ t, exec (.ownHandover r n.val rid src) s = .next t ∧
          t.scope n = { u.scope n with offer := some ⟨rid, src, u.now⟩ } ∧ t.answered r 0x0204 0 [] ∧
          (∀ p : Fin 4, src = p.val → (t.host p).cause.getLsbD 26 = true) ∧ (∀ m, m ≠ n → t.scope m = u.scope m) ∧ u.workKept t)) ∧
      (s.decides r ⟨0x0205, 4, false, .anyone, some n, false⟩ noEarly →
        (∀ o, (u.scope n).offer = some o → o.rid = r.rid → o.src = r.port.val → ∃ t, exec (.ownAccept r n.val) s = .next t ∧
          u.granted t n r.rid r.port ∧ t.answered r 0x0205 0 (le 8 (t.scope n).token.toNat) ∧
          (∀ p : Fin 4, (u.scope n).src.val = p.val → (t.host p).cause.getLsbD 26 = true) ∧
          (∀ m, m ≠ n → t.scope m = u.scope m) ∧ u.grantKept t r.port) ∧
        ((∀ o, (u.scope n).offer = some o → o.rid ≠ r.rid ∨ o.src ≠ r.port.val) →
          exec (.ownAccept r n.val) s = .next (u.reply r 0x0205 0x0205 []))) ∧
      (∀ t o, ((s.clock t).scope n).offer = some o →
        (o.since + 1000000000 < (s.clock t).now → ∃ v, exec (.handoverExpiry n t) s = .next v ∧
          v.scope n = { (s.clock t).scope n with offer := none } ∧ (∀ m, m ≠ n → v.scope m = (s.clock t).scope m) ∧ (s.clock t).workKept v) ∧
        ((s.clock t).now ≤ o.since + 1000000000 → exec (.handoverExpiry n t) s = .next (s.clock t)))) ∧
  (∀ (s : State) (r : MReq) (n : Fin 9), let u := s.atRequest r
      s.decides r ⟨0x0208, 4, true, .seize (some n), some n, false⟩ noEarly →
        (u.scopeExists n = false → exec (.ownSeize r n.val) s = .next (u.reply r 0x0208 0x0403 [])) ∧
        (u.scopeExists n = true → ∃ t, exec (.ownSeize r n.val) s = .next t ∧
          u.granted t n r.rid r.port ∧ t.answered r 0x0208 0 (le 8 (t.scope n).token.toNat) ∧
          ((u.scope n).owned = true → (u.scope n).rid ≠ r.rid ∨ (u.scope n).src ≠ r.port →
            (t.scope n).seizedFrom = some ((u.scope n).rid, (u.scope n).src) ∧
            ∀ p : Fin 4, (u.scope n).src.val = p.val → (t.host p).cause.getLsbD 26 = true) ∧
          (∀ m, m ≠ n → t.scope m = u.scope m) ∧ u.grantKept t r.port))

/-! ### Fields -/

/-- FIELD_CREATE that passes R286 makes an ENABLED field with the dies, windows and hold share of the body, no plan and no launch, its dies'
counters zero and its hold region on every port of the span, answers OK, and leaves every other field and every byte of memory alone. A
field that exists answers E_FIELD_STATE; a failed check its status, with nothing changed. FIELD_RESIZE: a field that does not exist
answers E_FIELD_STATE and one whose work it would disturb E_FIELD_BUSY; where it passes the checks and releases HBM or dies, the field is
CHANGING and nothing is answered until SCRUB_COMPLETE; then every byte released is 0 and no other byte has changed, the layout is the new
one, and the command is answered OK. -/
def Obligations.FieldCreateAndResize : Prop :=
  (∀ (s : State) (r : MReq) (b : FieldBody) (f : Fin 8), let u := s.atRequest r
      fieldOfNum b.field = some f → b.masks.any maskReserved = false →
      s.decides r ⟨0x0301, 40, false, .tray, some 0, false⟩ (fun v => if v.fieldRange b then none else some 0x0104) →
        ((u.field f).live = true → exec (.fieldCreate r b) s = .next (u.reply r 0x0301 0x0403 [])) ∧
        (∀ e, (u.field f).live = false → u.fieldChecks f b = some e → exec (.fieldCreate r b) s = .next (u.reply r 0x0301 e [])) ∧
        ((u.field f).live = false → u.fieldChecks f b = none → ∃ t, exec (.fieldCreate r b) s = .next t ∧ t.answered r 0x0301 0 [] ∧
          (t.field f).st = .enabled ∧ (t.field f).dies = b.dies ∧ (t.field f).w = b.w ∧ (t.field f).h = b.h ∧
          (t.field f).hold = b.share ∧ (t.field f).active = none ∧ (t.field f).staged = none ∧ (t.field f).run = none ∧
          (∀ d ∈ b.dies, (t.die d).cnt = {}) ∧
          (∀ p ∈ u.allPorts, NMap.get (t.port p).pond.holds (fnum f) 0 = holdOn p b.share) ∧
          u.otherFields t f ∧ u.memoryKept t ∧ u.onlyChanges t [.ports, .wmReply, .free, .fields, .dies, .links])) ∧
  (∀ (s : State) (f : Fin 8) (b : FieldBody),
      (∀ r : MReq, let u := s.atRequest r
        fieldOfNum b.field = some f → b.masks.any maskReserved = false →
        s.decides r ⟨0x0302, 40, false, .tray, some (fscope f), false⟩
          (fun v => if v.fieldRange b then v.refuses (some f) true else some 0x0104) →
        ((u.field f).live = false → exec (.fieldResize r b) s = .next (u.reply r 0x0302 0x0403 [])) ∧
        ((u.field f).live = true → (u.field f).resizeBusy b = true → exec (.fieldResize r b) s = .next (u.reply r 0x0302 0x0404 [])) ∧
        ((u.field f).live = true → (u.field f).resizeBusy b = false → u.fieldChecks f b = none →
          (u.field f).resizeScrubs b ≠ [] → ∃ t, exec (.fieldResize r b) s = .next t ∧ (t.field f).st = .changing ∧
            (t.field f).back = (u.field f).st ∧ (t.field f).resize = some b ∧ (t.field f).scrubs = (u.field f).resizeScrubs b ∧
            (t.field f).holder = some ⟨r, 0x0302⟩ ∧ (t.field f).dies = (u.field f).dies ∧ u.otherFields t f ∧
            u.onlyChanges t [.fields])) ∧
      (∀ t : Nat, let u := s.clock t
        ((u.field f).st ≠ .changing → exec (.scrubComplete f t) s = .next u) ∧
        ((u.field f).st = .changing → (u.field f).resize = some b → ∃ v, exec (.scrubComplete f t) s = .next v ∧
          (v.field f).dies = (u.field f).resizedDies b ∧ (v.field f).w = b.w ∧ (v.field f).h = b.h ∧ (v.field f).hold = b.share ∧
          (v.field f).st = (u.field f).back ∧ (v.field f).scrubs = [] ∧ (v.field f).holder = none ∧
          (∀ z ∈ (u.field f).scrubs, ∀ a, z.ofs ≤ a → a < z.ofs + z.len → Memory.get (v.die z.die).mem a = 0) ∧
          (∀ d a, (∀ z ∈ (u.field f).scrubs, z.die = d → a < z.ofs ∨ z.ofs + z.len ≤ a) →
            Memory.get (v.die d).mem a = Memory.get (u.die d).mem a) ∧
          (∀ w, (u.field f).holder = some w → u.awaits w.req → v.answered w.req w.opcode 0 []) ∧ u.otherFields v f)))

/-- FIELD_DISABLE and FIELD_DESTROY close the ring and the side intake at once and leave the field DISABLING; the step gate closes at the next
boundary of a step that runs, and at once otherwise, which starts the drain; nothing is answered. A DISABLED field answers FIELD_DISABLE
OK at once, and FIELD_DESTROY ends its owner's claim, frees its hold regions and begins to scrub every member's window; its scrub done,
the field is gone, every byte of those windows is 0, and the command is answered OK. FIELD_ENABLE opens the three headgates of a DISABLED
field and makes it ENABLED; a field that is not DISABLED stays as it is; both answer OK, and no other field and no byte of memory changes. -/
def Obligations.FieldEnableDisableDestroy : Prop :=
  (∀ (s : State) (r : MReq) (f : Fin 8), let u := s.atRequest r
      (s.decides r ⟨0x0304, 4, false, .either (some (fscope f)), some (fscope f), false⟩ (fun v => v.refuses (some f) true) →
        ((u.field f).live = false → exec (.fieldDisable r (fnum f)) s = .next (u.reply r 0x0304 0x0403 [])) ∧
        ((u.field f).st = .disabled → exec (.fieldDisable r (fnum f)) s = .next (u.reply r 0x0304 0 [])) ∧
        (∀ q, (u.field f).live = true → (u.field f).st ≠ .disabled → (u.field f).flush = none → (u.field f).run = some q →
          q.started = true → (u.field f).frozen = false →
          exec (.fieldDisable r (fnum f)) s = .next (u.onField f fun x =>
            { x with st := .disabling, ringClosed := true, sideClosed := true, stepClosing := true, holder := some ⟨r, 0x0304⟩ })) ∧
        ((u.field f).live = true → (u.field f).st ≠ .disabled → (u.field f).flush = none → (u.field f).run = none →
          ∃ t, exec (.fieldDisable r (fnum f)) s = .next t ∧ (t.field f).st = .disabling ∧ (t.field f).ringClosed = true ∧
            (t.field f).sideClosed = true ∧ (t.field f).stepClosed = true ∧ (t.field f).drain = some ((u.field f).closeWhy, u.now) ∧
            (t.field f).holder = some ⟨r, 0x0304⟩ ∧ u.otherFields t f ∧ u.memoryKept t ∧ t.ports = u.ports)) ∧
      (s.decides r ⟨0x0303, 4, false, .tray, some (fscope f), false⟩ (fun v => v.refuses (some f) true) →
        ((u.field f).live = false → exec (.fieldDestroy r (fnum f)) s = .next (u.reply r 0x0303 0x0403 [])) ∧
        (∀ q, (u.field f).live = true → (u.field f).st ≠ .disabled → (u.field f).flush = none → (u.field f).run = some q →
          q.started = true → (u.field f).frozen = false →
          exec (.fieldDestroy r (fnum f)) s = .next (u.onField f fun x =>
            { x with st := .disabling, ringClosed := true, sideClosed := true, stepClosing := true, scrub := some .destroy,
                     holder := some ⟨r, 0x0303⟩ })) ∧
        ((u.field f).st = .disabled → ∃ t, exec (.fieldDestroy r (fnum f)) s = .next t ∧ (t.field f).st = .changing ∧
          (t.field f).scrub = some .destroy ∧
          (t.field f).scrubs = (u.field f).dies.map (fun d => { die := d, ofs := 0, len := (u.field f).w, tiles := true }) ∧
          (t.field f).holder = some ⟨r, 0x0303⟩ ∧ (t.scope (fscope f)).owned = false ∧
          (∀ p ∈ u.allPorts, NMap.get (t.port p).pond.holds (fnum f) 0 = 0) ∧ u.memoryKept t ∧
          (∀ m, m ≠ fscope f → t.scope m = u.scope m))) ∧
      (∀ t : Nat, let u := s.clock t
        (u.field f).st = .changing → (u.field f).resize = none → (u.field f).scrub = some .destroy →
        ∃ v, exec (.scrubComplete f t) s = .next v ∧ v.field f = {} ∧ u.otherFields v f ∧
          (∀ z ∈ (u.field f).scrubs, ∀ a, z.ofs ≤ a → a < z.ofs + z.len → Memory.get (v.die z.die).mem a = 0) ∧
          (∀ w, (u.field f).holder = some w → u.awaits w.req → v.answered w.req w.opcode 0 []))) ∧
  (∀ (s : State) (r : MReq) (f : Fin 8), let u := s.atRequest r
      s.decides r ⟨0x0305, 4, false, .either (some (fscope f)), some (fscope f), false⟩ noEarly →
        ((u.field f).live = false → exec (.fieldEnable r (fnum f)) s = .next (u.reply r 0x0305 0x0403 [])) ∧
        ((u.field f).live = true → (u.field f).st ≠ .disabled → exec (.fieldEnable r (fnum f)) s = .next (u.reply r 0x0305 0 [])) ∧
        ((u.field f).st = .disabled → ∃ t, exec (.fieldEnable r (fnum f)) s = .next t ∧ t.answered r 0x0305 0 [] ∧
          (t.field f).st = .enabled ∧ (t.field f).ringClosed = false ∧ (t.field f).stepClosed = false ∧
          (t.field f).sideClosed = false ∧ (t.field f).dies = (u.field f).dies ∧ (t.field f).active = (u.field f).active ∧
          u.otherFields t f ∧ u.memoryKept t ∧ u.onlyChanges t [.ports, .wmReply, .free, .fields, .dies]))

/-! ### Plans and launches -/

/-- PLAN_LOAD: a field that is absent or DISABLED answers E_FIELD_STATE, one with a staged plan E_PLAN_BUSY, an image the loader refuses its
status; an accepted plan is staged beside the active one, and the command answers its plan ID at once unless a link it needs stands in
Dry: then nothing is answered and the links are named. PLAN_UNLOAD empties the position it names, or answers E_NO_STAGED where it is empty
and E_FIELD_BUSY for the active plan with a launch in flight. -/
def Obligations.PlansAreStagedAndUnloaded : Prop :=
  ∀ (s : State) (r : MReq) (f : Fin 8), let u := s.atRequest r
    r.chan = fscope f →
    (∀ ofs len, s.decides r (planCmd r 0x0401 16)
        (fun v => if (v.field f).loadRange ofs len then v.refuses (some f) false else some 0x0104) →
      ((u.field f).live = false ∨ (u.field f).st = .disabled →
        exec (.planLoad r ofs len) s = .next (u.reply r 0x0401 0x0403 [])) ∧
      ((u.field f).live = true → (u.field f).st ≠ .disabled → (u.field f).loadRange ofs len = true →
        ((u.field f).staged.isSome = true → exec (.planLoad r ofs len) s = .next (u.reply r 0x0401 0x0401 [])) ∧
        (∀ e, (u.field f).staged = none → u.load f ofs len = .refuse e →
          exec (.planLoad r ofs len) s = .next (u.reply r 0x0401 e [])) ∧
        (∀ p, (u.field f).staged = none → u.load f ofs len = .ok p → u.dryPorts p = [] →
          ∃ t, exec (.planLoad r ofs len) s = .next t ∧ (t.field f).staged = some p ∧ (t.field f).active = (u.field f).active ∧
            (t.field f).holder = (u.field f).holder ∧ t.answered r 0x0401 0 (le 8 p.id.toNat)) ∧
        (∀ p, (u.field f).staged = none → u.load f ofs len = .ok p → u.dryPorts p ≠ [] →
          ∃ t, exec (.planLoad r ofs len) s = .next t ∧ (t.field f).staged = some p ∧ (t.field f).waking = u.dryPorts p ∧
            (t.field f).holder = some ⟨r, 0x0401⟩))) ∧
    (∀ pos, pos ≤ 1 → s.decides r (planCmd r 0x0402 4) (fun v => v.refuses (some f) false) →
      ((u.field f).planAt pos = none → exec (.planUnload r pos) s = .next (u.reply r 0x0402 0x0405 [])) ∧
      (∀ p, (u.field f).planAt pos = some p → pos = 1 → (u.field f).inFlight ≠ 0 →
        exec (.planUnload r pos) s = .next (u.reply r 0x0402 0x0404 [])) ∧
      (∀ p, (u.field f).planAt pos = some p → (pos = 0 ∨ (u.field f).inFlight = 0) → ∃ t, exec (.planUnload r pos) s = .next t ∧
        (t.field f).planAt pos = none ∧ (t.field f).planAt (1 - pos) = (u.field f).planAt (1 - pos) ∧ t.answered r 0x0402 0 [] ∧
        u.memoryKept t))

/-- PLAN_ACTIVATE and PLAN_RELOAD hold the field's scope and begin: still-water where the staged plan fits Table 9.2 on a drained field,
else a reload, which closes the three headgates and drains first. Without a plan in the position they answer E_NO_STAGED,
with launches in flight (activate) or a launch running (reload) E_FIELD_BUSY, with a stale plan E_PLAN_LEDGER and its deficits.
LAUNCH_CANCEL of every launch marks the running one to stop at its next boundary and every entry waiting in the ring, and answers OK; a
ring index or SEQ that names no entry answers E_ARG_RANGE. LAUNCH_RESUME of a frozen field names a resume tally at least 100 us after the
lead die's tally and answers it; a field that is not frozen answers E_FIELD_STATE, a split one E_SLUICE_SPLIT. -/
def Obligations.LaunchCommands : Prop :=
  (∀ (s : State) (r : MReq) (f : Fin 8), let u := s.atRequest r
      r.chan = fscope f →
      (s.decides r (planCmd r 0x0403 0) (fun v => v.refuses (some f) false) →
        ((u.field f).staged = none → exec (.planActivate r) s = .next (u.reply r 0x0403 0x0405 [])) ∧
        (∀ p, (u.field f).staged = some p →
          ((u.field f).inFlight ≠ 0 → exec (.planActivate r) s = .next (u.reply r 0x0403 0x0404 [])) ∧
          ((u.field f).inFlight = 0 → p.stale = true →
            exec (.planActivate r) s = .next (u.reply r 0x0403 0x0501 (deficitBytes (u.ledgerDeficits p)))) ∧
          ((u.field f).inFlight = 0 → p.stale = false → p.fastFits = true →
            (∀ d ∈ (u.field f).dies, u.dieDrained d = true) → ∃ t, exec (.planActivate r) s = .next t ∧
              (t.field f).switch = some { form := .still, since := u.now, staged := true } ∧
              (t.field f).holder = some ⟨r, 0x0403⟩ ∧ u.otherFields t f ∧ u.onlyChanges t [.fields, .dies]) ∧
          ((u.field f).inFlight = 0 → p.stale = false → p.fastFits = false → ∃ t, exec (.planActivate r) s = .next t ∧
              (t.field f).drain = some (.reload true, u.now) ∧ (t.field f).ringClosed = true ∧ (t.field f).stepClosed = true ∧
              (t.field f).sideClosed = true ∧ (t.field f).holder = some ⟨r, 0x0403⟩ ∧ u.otherFields t f ∧
              u.onlyChanges t [.fields, .dies]))) ∧
      (∀ pos, pos ≤ 1 → s.decides r (planCmd r 0x0404 4) (fun v => v.refuses (some f) false) →
        ((u.field f).planAt pos = none → exec (.planReload r pos) s = .next (u.reply r 0x0404 0x0405 [])) ∧
        (∀ p, (u.field f).planAt pos = some p →
          ((u.field f).run.isSome = true → exec (.planReload r pos) s = .next (u.reply r 0x0404 0x0404 [])) ∧
          ((u.field f).run = none → (pos = 1 ∨ p.stale = false) → ∃ t, exec (.planReload r pos) s = .next t ∧
              (t.field f).drain = some (.reload (decide (pos = 0)), u.now) ∧ (t.field f).ringClosed = true ∧
              (t.field f).stepClosed = true ∧ (t.field f).sideClosed = true ∧ (t.field f).holder = some ⟨r, 0x0404⟩ ∧
              u.otherFields t f ∧ u.onlyChanges t [.fields, .dies])))) ∧
  (∀ (s : State) (r : MReq) (f : Fin 8), let u := s.atRequest r
      r.chan = fscope f →
      (∀ idx all seq, s.decides r (planCmd r 0x0405 4) noEarly →
        (all = false → (64 ≤ idx ∨ fieldAt ((u.field f).entryBytes idx) 0 2 ≠ seq.toNat) →
          exec (.launchCancel r idx all seq) s = .next (u.reply r 0x0405 0x0104 [])) ∧
        (∀ q, all = true → (u.field f).run = some q → (u.field f).frozen = false → ∃ t, exec (.launchCancel r idx all seq) s = .next t ∧
          (t.field f).run = some { q with cancel := true } ∧
          (∀ i, i < 64 → (u.field f).waitsInRing i = true → i ∈ (t.field f).cancels) ∧
          (t.field f).ring = (u.field f).ring ∧ t.answered r 0x0405 0 [] ∧ u.otherFields t f ∧
          u.onlyChanges t [.ports, .wmReply, .fields])) ∧
      (s.decides r (planCmd r 0x0407 0) noEarly →
        ((u.field f).frozen = false → exec (.launchResume r) s = .next (u.reply r 0x0407 0x0403 [])) ∧
        ((u.field f).frozen = true → (u.field f).split = true → exec (.launchResume r) s = .next (u.reply r 0x0407 0x0410 [])) ∧
        ((u.field f).frozen = true → (u.field f).split = false → (∀ p, (u.field f).resumePlan = some p → p.stale = false) →
          (∀ q, (u.field f).run = some q → q.kind ≠ .switch) →
          ∃ t c, exec (.launchResume r) s = .next t ∧ (t.field f).change = some c ∧ c.kind = .resume ∧
            (u.field f).dies = (t.field f).dies ∧ u.leadTally f + 100000 ≤ c.boundary ∧ t.answered r 0x0407 0 (le 8 c.boundary) ∧
            u.otherFields t f ∧ u.memoryKept t)))

/-- FIELD_STATUS and PLAN_INFO answer what Table 10.6 lays out, and change nothing but the response (STEP_REACHED of a field without a running
launch: log entry 63). A field or plan that is not there answers E_FIELD_STATE or E_NO_STAGED. LEDGER_READ answers the epoch, the number
of entries and up to 127 entries of 32 bytes from the one asked; LINK_CFG_READ the bytes of the port's configuration space; neither
changes anything but the response. -/
def Obligations.FieldPlanAndPortQueries : Prop :=
  (∀ (s : State) (r : MReq) (f : Fin 8), let u := s.atRequest r
      (s.decides r ⟨0x0306, 4, false, .anyone, none, false⟩ noEarly →
        ((u.field f).live = false → exec (.fieldStatus r (fnum f)) s = .next (u.reply r 0x0306 0x0403 [])) ∧
        (∀ b : List Byte, (u.field f).live = true →
          b = le 1 (u.field f).st.code ++ le 1 (u.field f).rung ++
              le 2 ((if (u.field f).frozen then 1 else 0) + (if (u.field f).split then 2 else 0) +
                (if (u.scope (fscope f)).noLapse then 4 else 0) + (if (u.scope (fscope f)).expert then 8 else 0)) ++
              le 1 (u.field f).inFlight ++ le 3 0 ++ le 8 (match (u.field f).active with | some p => p.id.toNat | none => 0) ++
              le 8 (match (u.field f).staged with | some p => p.id.toNat | none => 0) ++
              le 4 (match (u.field f).run with | some q => q.reached | none => (u.field f).lastReached) ++
              le 8 (match (u.field f).frozenAt, (u.field f).sluiceAt with | some n, _ => n | none, some n => n | none, none => 0) ++
              (if (u.scope (fscope f)).owned then ownerId (u.scope (fscope f)).rid (u.scope (fscope f)).src else le 4 0) ++ le 24 0 →
          b.length = 64 ∧ exec (.fieldStatus r (fnum f)) s = .next (u.reply r 0x0306 0 b))) ∧
      (∀ pos, r.chan = fscope f → s.decides r ⟨0x0406, 4, false, .anyone, none, false⟩ noEarly →
        (1 < pos → exec (.planInfo r pos) s = .next (u.reply r 0x0406 0x0104 [])) ∧
        (pos ≤ 1 → (u.field f).planAt pos = none → exec (.planInfo r pos) s = .next (u.reply r 0x0406 0x0405 [])) ∧
        (∀ p, pos ≤ 1 → (u.field f).planAt pos = some p → exec (.planInfo r pos) s = .next (u.reply r 0x0406 0
          (le 8 p.id.toNat ++ le 8 p.ofs ++ le 4 p.len ++ le 4 p.steps.length ++ le 1 p.entries.length ++ le 2 p.flags ++ le 5 0))))) ∧
  (∀ (s : State) (r : MReq), let u := s.atRequest r
      (∀ p, (u.ledgerEntry p).length = 32) ∧
      (∀ first count, s.decides r ⟨0x0501, 4, false, .anyone, none, false⟩ noEarly →
        (count = 0 ∨ 127 < count → exec (.ledgerRead r first count) s = .next (u.reply r 0x0501 0x0104 [])) ∧
        (1 ≤ count → count ≤ 127 → exec (.ledgerRead r first count) s = .next (u.reply r 0x0501 0
          (le 4 u.ledgerEpoch ++ le 2 u.allPorts.length ++ le 2 ((u.allPorts.drop first).take count).length ++
            ((u.allPorts.drop first).take count).flatMap u.ledgerEntry)))) ∧
      (∀ x q ofs len, s.decides r ⟨0x0502, 8, false, .anyone, none, false⟩ noEarly → u.portRef x = some q →
        (4 ≤ len → len ≤ 256 → len % 4 = 0 → ofs % 4 = 0 → ofs + len ≤ 0x1000 →
          (u.klcRead q ofs len).length = len ∧ exec (.linkCfgRead r x ofs len) s = .next (u.reply r 0x0502 0 (u.klcRead q ofs len))) ∧
        (len < 4 ∨ 256 < len ∨ len % 4 ≠ 0 ∨ ofs % 4 ≠ 0 ∨ 0x1000 < ofs + len →
          exec (.linkCfgRead r x ofs len) s = .next (u.reply r 0x0502 0x0104 []))))

/-- A doorbell by the owner that covers only free, VALID entries puts them in flight: the producer index moves, their bytes 0x28-0x3F are 0,
and no other byte of the ring changes; one that covers more than is free or an entry that is not VALID is refused as a whole with its
error bit; one by another agent is discarded and counted. A ring write by the owner changes exactly the bytes it names below 0x28 of its
entry, and none where the device has read the entry. A port reset frees every channel, discards pending responses and what a repeat would
answer, clears the causes and masks every vector; D3hot discards a latched tally word; IDS_TALLY_LO latches the high word that the next
IDS_TALLY_HI answers once; the tray owner's write of TRB_SUMMARY clears the bits written 1, any other agent's nothing; HG_ALMCTL POP
removes the oldest alarm (the mask bits' reset value is the model's: log entry 5). -/
def Obligations.HostPortsAndDoorbells : Prop :=
  ((∀ (s : State) (p : Fin 4) (rid : Half) (f : Fin 8) (prod : Byte) (t : Nat), let u := (s.clock t).settleOwn
      let n := (prod - (u.field f).prod).toNat
      u.barsLive p = true → (u.field f).live = true →
        (u.portOwns p rid f = false → exec (.launchDoorbell p rid f prod t) s = .next u.countRefused) ∧
        (u.portOwns p rid f = true →
          (64 < n + (u.field f).inFlight ∨ (∃ k, k < n ∧ (u.field f).lflags ((u.field f).prod.toNat + k) % 2 = 0) →
            ∃ v, exec (.launchDoorbell p rid f prod t) s = .next v ∧ v.field f = u.field f ∧
              (v.host p).launchErr.getLsbD (f.val + 1) = true ∧ (v.host p).cause.getLsbD (17 + f.val) = true ∧
              u.onlyChanges v [.ports, .effects]) ∧
          (n + (u.field f).inFlight ≤ 64 → (∀ k, k < n → (u.field f).lflags ((u.field f).prod.toNat + k) % 2 = 1) →
            ∃ v, exec (.launchDoorbell p rid f prod t) s = .next v ∧ (v.field f).prod = prod ∧ (v.field f).cons = (u.field f).cons ∧
              (∀ k j, k < n → 0x28 ≤ j → j < 0x40 → Memory.wf (u.field f).ring = true →
                Memory.get (v.field f).ring (64 * (((u.field f).prod.toNat + k) % 64) + j) = 0) ∧
              (∀ a, a % 64 < 0x28 → Memory.get (v.field f).ring a = Memory.get (u.field f).ring a) ∧
              u.otherFields v f ∧ u.onlyChanges v [.fields]))) ∧
    (∀ (s : State) (p : Fin 4) (rid : Half) (f : Fin 8) (ofs : Nat) (data : List Byte),
      s.barsLive p = true → (s.field f).live = true →
        (s.portOwns p rid f = false → exec (.launchRingWrite p rid f ofs data) s = .next s.countRefused) ∧
        (s.portOwns p rid f = true → 0 < data.length → data.length ≤ 64 → ofs + data.length ≤ 4096 →
          ofs / 64 = (ofs + data.length - 1) / 64 →
          ((s.field f).entryRead (ofs / 64) = true → exec (.launchRingWrite p rid f ofs data) s = .next s) ∧
          ((s.field f).entryRead (ofs / 64) = false → Memory.wf (s.field f).ring = true →
            ∃ v, exec (.launchRingWrite p rid f ofs data) s = .next v ∧
              (∀ a, Memory.get (v.field f).ring a =
                if ofs ≤ a ∧ a < ofs + data.length ∧ a % 64 < 0x28 then data.getD (a - ofs) 0 else Memory.get (s.field f).ring a) ∧
              (v.field f).prod = (s.field f).prod ∧ s.otherFields v f ∧ s.onlyChanges v [.fields])))) ∧
  (∀ (s : State) (p : Fin 4),
      (∃ t, exec (.hostPortReset p) s = .next t ∧ (∀ k, (t.chan p k).held = false ∧ (t.chan p k).st = .idle ∧
          (t.chan p k).decided = none ∧ (t.chan p k).last = none) ∧ (t.host p).cause = 0 ∧ (t.host p).pba = 0 ∧
        (t.host p).d3 = false ∧ (t.host p).latch = none ∧ s.otherHosts t p ∧ s.onlyChanges t [.ports]) ∧
      (∀ b, exec (.pciePowerStateChange p b) s =
        .next (s.onHost p fun h => { h with d3 := b, latch := if b then none else h.latch })) ∧
      (s.portLive p = true → (s.host p).d3 = false → let v := s.tallyOf ⟨s.span.num, p, 0⟩
        exec (.idsTallyLoRead p) s = .next (s.onHost p fun h =>
          { h with latch := some (BitVec.ofNat 32 (v / 4294967296)), last := { data := le 4 v } }) ∧
        (∀ w, (s.host p).latch = some w → exec (.idsTallyHiRead p) s = .next (s.onHost p fun h =>
          { h with latch := none, last := { data := le 4 w.toNat } })) ∧
        ((s.host p).latch = none → exec (.idsTallyHiRead p) s = .next (s.onHost p fun h =>
          { h with latch := none, last := { data := le 4 (v / 4294967296) } }))) ∧
      (∀ rid value, (s.portLive p = true → (s.host p).d3 = false → s.isReady = true → s.portOwnsTray p rid →
          ∃ t, exec (.trbSummaryWrite p rid value) s = .next t ∧
            (∀ i, t.trouble.summary.getLsbD i = (s.trouble.summary.getLsbD i && !value.getLsbD i)) ∧
            (value.getLsbD 0 = true → ∀ f, (t.field f).intakeHeld = false) ∧ s.onlyChanges t [.trouble, .fields]) ∧
        (¬s.portOwnsTray p rid → exec (.trbSummaryWrite p rid value) s = .next s)) ∧
      (∀ d a l, (s.die d).trb.fifo = a :: l → ∃ t, exec (.hgAlmctlPop d) s = .next t ∧ (t.die d).trb.fifo = l ∧
        (t.die d).trb.fifoHead = ((s.die d).trb.fifoHead + 1) % 8 ∧ s.otherDies t d ∧ s.onlyChanges t [.dies]))

/-! ### The host port -/

/-- A channel's lock and states: a read of DBI_MBX_LOCK gives a free channel to the reader and shows a held one's holder; a submit by the
holder copies the request and makes the channel BUSY, and an identical repeat of the last completed command is answered from its response;
a release by the holder frees it, and is ignored while BUSY; the decided response is written, the channel DONE, its vector raised. What
another agent writes changes nothing. A lock ends 1 s after it was taken without a submit, and 1 s after DONE without a release, and not
before; a command that needs the Watermaster and has waited 5 s while none serves it is answered E_WM_ABSENT and waits no longer. -/
def Obligations.ChannelsLockRunAndTimeOut : Prop :=
  (∀ (s : State) (p : Fin 4) (k : Fin 9) (rid : Half) (t : Nat), let u := s.clock t; let c := u.chan p k
      (u.chanLive p k = true →
        (c.held = false → ∃ v, exec (.dbiMbxLockRead p k rid t) s = .next v ∧
          v.chan p k = { c with held := true, holder := rid, lockedAt := u.now, submitted := false } ∧
          (v.host p).last.data = le 4 (rid.toNat + 0x80010000) ∧ u.otherHosts v p ∧ u.onlyChanges v [.ports]) ∧
        (c.held = true → c.holder ≠ rid → ∃ v, exec (.dbiMbxLockRead p k rid t) s = .next v ∧ v.chan p k = c ∧
          (v.host p).last.data = le 4 (c.holder.toNat + 0x10000) ∧ u.otherHosts v p ∧ u.onlyChanges v [.ports]) ∧
        (c.held = true → c.holder = rid → c.st ≠ .busy →
          (∀ old a, c.last = some (old, a) → old = c.request → exec (.mbxSubmit p k rid t) s = .next (u.setChan p k
            { c with st := .busy, submitted := true, captured := some c.request, decided := some a })) ∧
          ((∀ x ∈ c.last, x.1 ≠ c.request) →
            u.headCheck (fieldAt c.request 0 2) (bodyLen (fieldAt c.request 0 2) (c.request.drop 16)) (headOf p k rid c.request t) = none →
            exec (.mbxSubmit p k rid t) s = .next (u.setChan p k
              { c with st := .busy, submitted := true, captured := some c.request, decided := none })) ∧
          exec (.mbxRelease p k rid t) s = .next (u.setChan p k
            { c with held := false, holder := 0, submitted := false, st := .idle, captured := none, decided := none }))) ∧
      (c.held = false ∨ c.holder ≠ rid ∨ c.st = .busy →
        exec (.mbxSubmit p k rid t) s = .next u ∧ exec (.mbxRelease p k rid t) s = .next u) ∧
      (∀ a, c.st = .busy → c.decided = some a → ∃ v, exec (.mbxResponsePosted p k t) s = .next v ∧ (v.chan p k).st = .done ∧
        (v.chan p k).resp = Memory.write [] 0 a.bytes ∧ (v.chan p k).decided = none ∧ (v.chan p k).doneAt = u.now ∧
        (v.host p).cause.getLsbD k.val = true ∧ u.otherHosts v p ∧ u.onlyChanges v [.ports, .effects]) ∧
      (c.st ≠ .busy ∨ c.decided = none → exec (.mbxResponsePosted p k t) s = .next u)) ∧
  (∀ (s : State) (p : Fin 4) (k : Fin 9) (t : Nat), let u := s.clock t; let c := u.chan p k
      (c.held = true → c.submitted = false → c.lockedAt + 1000000000 ≤ u.now → ∃ v, exec (.mbxLockSubmitTimeout p k t) s = .next v ∧
        (v.chan p k).held = false ∧ (v.chan p k).st = .idle ∧ u.otherHosts v p ∧ u.onlyChanges v [.ports]) ∧
      (c.held = false ∨ c.submitted = true ∨ u.now < c.lockedAt + 1000000000 → exec (.mbxLockSubmitTimeout p k t) s = .next u) ∧
      (c.held = true → c.st = .done → c.doneAt + 1000000000 ≤ u.now → ∃ v, exec (.mbxLockDoneTimeout p k t) s = .next v ∧
        (v.chan p k).held = false ∧ (v.chan p k).st = .idle ∧ u.otherHosts v p ∧ u.onlyChanges v [.ports]) ∧
      (c.held = false ∨ c.st ≠ .done ∨ u.now < c.doneAt + 1000000000 → exec (.mbxLockDoneTimeout p k t) s = .next u) ∧
      (∀ w, (u.waiting.find? fun w => w.wm && w.req.port.val = p.val && w.req.chan = k && w.req.t + 5000000000 ≤ u.now) = some w →
        (u.wmFor w.opcode = false → exec (.wmAbsentTimeout p k t) s =
          .next ((u.setWaiting (u.waiting.erase w)).reply w.req w.opcode 0x0704 [])) ∧
        (u.wmFor w.opcode = true → exec (.wmAbsentTimeout p k t) s = .next u)))

/-- BAR4: a write by the field's owner within its open window and outside its plans' images puts exactly its bytes there, and no byte of any
other die's memory changes; a read answers the bytes there, with the EP bit where a line is poisoned once its error check is done
(what a check finds is free). Any other agent's write, one outside
the window or into an image is discarded and counted, and such a read is Unsupported. Here the port's own die caches no line. A register
written by its access code: IRQ_CAUSE is write-1-to-clear, the placement registers take a write over the chain alone, which
changes nothing else while every port keeps its adapter, KLC_DRYIDLE takes 10
to 10,000 and ignores any other value, a threshold takes an expert's value in range, TST_USER and TST_EYESEL their bits; a register no
table assigns ignores every write. -/
def Obligations.HostAndChainRegisters : Prop :=
  (∀ (s : State) (p : Fin 4) (rid : Half) (f : Fin 8) (o : Nat), o < 0x2000000000 → s.barsLive p = true → let x := s.field f
      (∀ data : List Byte,
        (s.barOpen p rid f o data.length = false ∨ x.imageHit o data.length = true →
          exec (.hostBar4Write p rid (f.val * 0x2000000000 + o) data) s = .next s.countRefused) ∧
        (s.barOpen p rid f o data.length = true → x.imageHit o data.length = false → x.dies.Nodup →
          (∀ d, Memory.wf (s.die d).mem = true) → (s.die ⟨s.span.num, p, 0⟩).side.cache = [] →
          ∃ t, exec (.hostBar4Write p rid (f.val * 0x2000000000 + o) data) s = .next t ∧
            (∀ a, a < x.dies.length * x.h → t.barByte p x a =
              if o ≤ a ∧ a < o + data.length then data.getD (a - o) 0 else s.barByte p x a) ∧
            (∀ d, d ∉ x.dies → t.die d = s.die d) ∧ s.onlyChanges t [.dies])) ∧
      (∀ len, (s.barOpen p rid f o len = false →
          exec (.hostBar4Read p rid (f.val * 0x2000000000 + o) len) s = .next (s.onHost p fun h => { h with last := { ur := true } })) ∧
        (s.barOpen p rid f o len = true → ∃ t, exec (.hostBar4Read p rid (f.val * 0x2000000000 + o) len) s = .next t ∧
          (t.host p).last.ur = false ∧ (∀ i, i < len → (t.host p).last.data[i]? = some (s.barByte p x (o + i))) ∧
          ((t.host p).last.ep = true ↔ ∃ i, i < len ∧ (s.barCheck p x o len).barPoison p x (o + i) = true) ∧ s.otherHosts t p ∧
          s.memoryKept t ∧ s.onlyChanges t [.free, .ports, .fields, .dies]))) ∧
  (∀ (s : State) (v : Word),
      (∀ n rid high i, s.barsLive n = true → i < 64 → ∃ t, exec (.registerWrite (.host n rid) (.irqCause high) v) s = .next t ∧
        (t.host n).cause.getLsbD i = ((s.host n).cause.getLsbD i && !((setWord 0 high v).getLsbD i)) ∧
        s.otherHosts t n ∧ s.onlyChanges t [.ports]) ∧
      (∀ d x, d.isCompute = true → s.agentUp d = true →
        (∀ w, w = (s.onDie d fun y =>
            { y with boot := { y.boot with plcCtrl := (y.boot.plcCtrl &&& ~~~0xFFFF#32) ||| (v &&& 0xFFFF#32) } }) →
          (∀ q ∈ diePorts d, w.adapter q = s.adapter q) → exec (.registerWrite (.chain d) (.plcCtrl d) v) s = .next w) ∧
        (x ≠ .chain d → exec (.registerWrite x (.plcCtrl d) v) s = .next s)) ∧
      (∀ p, portExists p = true → s.dieUp p.die = true →
        (10 ≤ v.toNat → v.toNat ≤ 10000 → exec (.registerWrite (.local p.die false) (.dryIdle p) v) s =
          .next (s.onPort p fun y => { y with dry := { y.dry with idleUs := v.toNat } })) ∧
        (v.toNat < 10 ∨ 10000 < v.toNat → exec (.registerWrite (.local p.die false) (.dryIdle p) v) s = .next s) ∧
        (∀ j : Fin 6, 1 ≤ v.toNat → v.toNat ≤ thrMax j.val →
          exec (.registerWrite (.local p.die true) (.thr p j) v) s =
            .next (s.onPort p fun y => { y with err := { y.err with thr := NMap.set y.err.thr j.val v.toNat } }) ∧
          exec (.registerWrite (.local p.die false) (.thr p j) v) s = .next s) ∧
        exec (.registerWrite (.local p.die false) (.tstUser p) v) s =
          .next (s.onPort p fun y => { y with tst := { y.tst with user := v } })) ∧
      (∀ x, exec (.registerWrite x .other v) s = .next s))

/-! ### Links, by command -/

/-- LINK_RETRAIN, LINK_DISABLE, LINK_DISABLE with force and LINK_ENABLE on a port of the span. Without a planned slot a retrain puts a port
that may train into DETECT and a disable leaves it DOWN and disabled, with or without force; with one, a retrain and a plain disable
answer E_PORT_PLANNED, and a forced disable leaves the link as it is and marks it. A disabled port answers a retrain E_PORT_DISABLED. An
enable lifts either mark. No byte of memory, no scope and no package changes. LINK_DRY, LINK_POND, LINK_THRESH and LINK_CNT_CLEAR write
what they name on one port and nothing on any other, and answer OK; an operand out of range answers E_ARG_RANGE, a pond that holds flits
E_POND_BUSY, with nothing changed; a hold region that a running launch's plan uses changes later, at a boundary of its field (log entry
149); a port that does not exist E_ARG_RANGE. The completion timer takes SF_TIMER's value, 1 to 1,000 ms; any
other is refused and leaves it. -/
def Obligations.LinkCommands : Prop :=
  (∀ (s : State) (r : MReq) (x : PRef) (q : PortId), let u := s.atRequest r; let l := (u.port q).link
      u.portRef x = some q →
      (s.decides r ⟨0x0503, 4, false, .tray, some 0, false⟩ noEarly →
        (u.planned q = true → exec (.linkRetrain r x) s = .next (u.reply r 0x0503 0x0421 [])) ∧
        (u.planned q = false → l.disabled = true ∨ l.forced = true → exec (.linkRetrain r x) s = .next (u.reply r 0x0503 0x0422 [])) ∧
        (u.planned q = false → l.disabled = false → l.forced = false → ∃ t, exec (.linkRetrain r x) s = .next t ∧
          t.answered r 0x0503 0 [] ∧ (t.port q).link.attempts = 0 ∧
          ((u.port q).mayTrain = true → u.linksAllowed q = true → (t.port q).link.st = .detect) ∧
          ((u.port q).mayTrain = false → u.trainsAlone q = false → (t.port q).link.st = .down) ∧ u.memoryKept t ∧ t.scopes = u.scopes ∧ t.pkgs = u.pkgs)) ∧
      (s.decides r ⟨0x0504, 8, false, .tray, some 0, false⟩ noEarly →
        (u.planned q = true → exec (.linkDisable r x) s = .next (u.reply r 0x0504 0x0421 [])) ∧
        (u.planned q = false → ∃ t, exec (.linkDisable r x) s = .next t ∧ t.answered r 0x0504 0 [] ∧
          (t.port q).link.disabled = true ∧ (t.port q).link.forced = false ∧ (t.port q).link.st = .down ∧ u.memoryKept t ∧
          t.scopes = u.scopes ∧ t.pkgs = u.pkgs)) ∧
      (s.decides r ⟨0x0504, 8, true, .tray, some 0, false⟩ noEarly →
        (u.planned q = true → l.forced = false → ∃ t, exec (.linkDisableForce r x) s = .next t ∧ t.answered r 0x0504 0 [] ∧
          (t.port q).link = { l with forced := true, forcedAt := some (u.tallyOf q.die), liftedAt := none } ∧ u.memoryKept t ∧
          t.scopes = u.scopes ∧ t.pkgs = u.pkgs ∧ t.fields = u.fields) ∧
        (u.planned q = false → ∃ t, exec (.linkDisableForce r x) s = .next t ∧ t.answered r 0x0504 0 [] ∧
          (t.port q).link.disabled = true ∧ (t.port q).link.st = .down ∧ u.memoryKept t ∧ t.scopes = u.scopes ∧ t.pkgs = u.pkgs)) ∧
      (s.decides r ⟨0x0505, 4, false, .tray, some 0, false⟩ noEarly →
        (l.forced = true → l.st ≠ .down → ∃ t, exec (.linkEnable r x) s = .next t ∧ t.answered r 0x0505 0 [] ∧
          (t.port q).link = { l with forced := false, liftedAt := some (u.tallyOf q.die) } ∧ u.memoryKept t ∧
          t.scopes = u.scopes ∧ t.pkgs = u.pkgs) ∧
        (l.forced = false → l.disabled = true → ∃ t, exec (.linkEnable r x) s = .next t ∧ t.answered r 0x0505 0 [] ∧
          (t.port q).link.disabled = false ∧ u.otherPorts t q ∧ u.onlyChanges t [.ports, .wmReply, .links]) ∧
        (l.forced = false → l.disabled = false → exec (.linkEnable r x) s = .next (u.reply r 0x0505 0 [])))) ∧
  (∀ (s : State) (r : MReq) (x : PRef), let u := s.atRequest r
      (∀ en idle, s.decides r ⟨0x0506, 12, false, .tray, some 0, false⟩ noEarly →
        (u.portRef x = none → exec (.linkDry r x en idle) s = .next (u.reply r 0x0506 0x0104 [])) ∧
        (∀ q, u.portRef x = some q →
          (1 < en ∨ idle < 10 ∨ 10000 < idle → exec (.linkDry r x en idle) s = .next (u.reply r 0x0506 0x0104 [])) ∧
          (en = 1 → 10 ≤ idle → idle ≤ 10000 → exec (.linkDry r x en idle) s = .next
            ((u.onPort q fun y => { y with dry := { y.dry with enabled := true, idleUs := idle } }).reply r 0x0506 0 [])) ∧
          (en = 0 → 10 ≤ idle → idle ≤ 10000 → ∃ t, exec (.linkDry r x en idle) s = .next t ∧ t.answered r 0x0506 0 [] ∧
            (t.port q).dry.enabled = false ∧ (t.port q).dry.idleUs = idle ∧ u.onlyChanges t [.ports, .wmReply, .links]))) ∧
      (∀ size holds q, s.decides r ⟨0x0507, 44, false, .tray, some 0, false⟩ noEarly → u.portRef x = some q →
        (u.pondRange q size holds = false → exec (.linkPond r x size holds) s = .next (u.reply r 0x0507 0x0104 [])) ∧
        (u.pondRange q size holds = true → (u.port q).pondBusy = true →
          exec (.linkPond r x size holds) s = .next (u.reply r 0x0507 0x0423 [])) ∧
        (u.pondRange q size holds = true → (u.port q).pondBusy = false →
          ∃ t, exec (.linkPond r x size holds) s = .next t ∧ t.answered r 0x0507 0 [] ∧
            (∀ k, k < 9 → let old := NMap.get (u.port q).pond.holds k 0
              (old = holds.getD k 0 ∨ u.holdInUse q k = false → NMap.get (t.port q).pond.holds k 0 = holds.getD k 0) ∧
              (old ≠ holds.getD k 0 → u.holdInUse q k = true → NMap.get (t.port q).pond.holds k 0 = old ∧
                (k, holds.getD k 0) ∈ (t.port q).pond.dueHolds)) ∧
            ((∀ k, k < 9 → NMap.get (u.port q).pond.holds k 0 = holds.getD k 0 ∨ u.holdInUse q k = false) →
              (t.port q).pond.size = size ∧ (t.port q).pond.dueHolds = []) ∧ (t.port q).link = (u.port q).link ∧
            u.otherPorts t q ∧ u.onlyChanges t [.ports, .wmReply, .links])) ∧
      (∀ figs q, s.decides r ⟨0x0508, 28, true, .tray, some 0, false⟩ noEarly → u.portRef x = some q → figs.length = 6 →
        ((∃ j : Fin 6, figs.getD j.val 0 = 0 ∨ thrMax j.val < figs.getD j.val 0) →
          exec (.linkThresh r x figs) s = .next (u.reply r 0x0508 0x0104 [])) ∧
        ((∀ j : Fin 6, 1 ≤ figs.getD j.val 0 ∧ figs.getD j.val 0 ≤ thrMax j.val) → ∃ t, exec (.linkThresh r x figs) s = .next t ∧
          t.answered r 0x0508 0 [] ∧ (∀ j : Fin 6, (t.port q).err.figure j.val = figs.getD j.val 0) ∧
          u.otherPorts t q ∧ u.onlyChanges t [.ports, .wmReply, .links])) ∧
      (∀ mask q, s.decides r ⟨0x0509, 8, false, .tray, some 0, false⟩ noEarly → u.portRef x = some q →
        ∃ t, exec (.linkCntClear r x mask) s = .next t ∧ t.answered r 0x0509 0 [] ∧
          (∀ i, NMap.get (t.port q).err.cnt i 0 = if mask.getLsbD i then 0 else NMap.get (u.port q).err.cnt i 0) ∧
          u.otherPorts t q ∧ u.onlyChanges t [.ports, .wmReply, .links])) ∧
  (∀ (s : State) (r : MReq) (n : Nat), let u := s.atRequest r
      s.decides r ⟨0x050A, 4, false, .tray, some 0, false⟩ noEarly →
        (1 ≤ n → n ≤ 1000 → ∃ t, exec (.sfTimer r n) s = .next t ∧ t.sfTimerMs = n ∧ t.answered r 0x050A 0 [] ∧
          u.memoryKept t ∧ u.onlyChanges t [.ports, .wmReply, .dies, .sfTimerMs]) ∧
        (n < 1 ∨ 1000 < n → exec (.sfTimer r n) s = .next (u.reply r 0x050A 0x0104 [])))

/-! ### Span, caps and package power, by command -/

/-- SPAN_FORM with the cabling of a shape, one bundle and no loaded plan puts the tray into the span under its new names, with the record
written, leadership vacant and the command unanswered until the span stands; otherwise it answers the refusing status. SPAN_DISSOLVE makes
the tray alone again, T0 of its own span without a record, and leader of itself. SPAN_REFORM forms the recorded span again. `u` sees what
the other trays' servers answer. -/
def Obligations.SpansFormAndDissolve : Prop :=
  ∀ (s : State) (info : List TrayInfo),
    (∀ (r : MReq) (shape : Nat), let u := (s.setPeers info).atRequest r
      (s.setPeers info).decides r ⟨0x050B, 4, false, .everyTray, some 0, false⟩
        (fun _ => if shape < 1 ∨ 5 < shape then some 0x0104 else none) →
      (∀ e, u.formable shape info = .inl e →
        exec (.spanForm r shape info) s = .next ((u.reply r 0x050B e []).setPeers s.peers)) ∧
      (∀ sp, u.formable shape info = .inr sp → ∃ t, exec (.spanForm r shape info) s = .next t ∧
        t.span = { sp with record := some (sp.shape, sp.members), forming := some ⟨r, 0x050B⟩ } ∧
        t.trayHolder = some ⟨r, 0x050B⟩ ∧ t.leader.vacant = true ∧ t.leader.lead = false ∧ t.ports = u.ports ∧
        t.scopes = u.scopes ∧ t.pkgs = u.pkgs)) ∧
    (∀ (r : MReq), let u := (s.setPeers info).atRequest r
      (s.setPeers info).decides r ⟨0x050C, 0, false, .everyTray, some 0, false⟩ noEarly →
      ((∃ f, (u.field f).loaded = true) ∨ (∃ x ∈ info, x.planLoaded = true) →
        exec (.spanDissolve r info) s = .next ((u.reply r 0x050C 0x0406 []).setPeers s.peers)) ∧
      ((∀ f, (u.field f).loaded = false) → (∀ x ∈ info, x.planLoaded = false) →
        ∃ t, exec (.spanDissolve r info) s = .next t ∧ t.span = { members := [s.serial] } ∧ t.leader.lead = true ∧
          t.leader.vacant = false ∧ t.leader.serial = s.serial ∧ (∀ n, (t.scope n).owned = (u.scope n).owned) ∧ t.pkgs = u.pkgs ∧
          (u.leader.lead = true → t.answered r 0x050C 0 []))) ∧
    (∀ (t : Nat) shape members, let u := s.clock t
      u.span.record = some (shape, members) →
      (u.isReady = true → u.trays.length ≤ 1 → u.span.forming = none → (∀ x ∈ info, x.ready = true) →
        sortSerials (u.serial :: info.map (·.serial)) = members → ∀ sp, u.formable shape info = .inr sp →
        ∃ v w, exec (.spanReform info t) s = .next v ∧ v.span = { sp with record := some (sp.shape, sp.members), forming := some w } ∧
          v.leader.vacant = true ∧ v.peers = info) ∧
      (u.isReady = false ∨ (∃ x ∈ info, x.ready = false) ∨ sortSerials (u.serial :: info.map (·.serial)) ≠ members →
        exec (.spanReform info t) s = .next u))

/-- POWER_CAP sets the mailbox's caps when each is 0 or within its range, and else answers E_PWR_RANGE; FIELD_RUNG sets the ceiling, answered
at once where the rung in force is the lowest limit and held else; CAL_OFF sets its flag. Each changes one kind of setting and no byte of
memory. POWER_READ answers 44 bytes in the order of Table 10.6 (the flags' layout is the model's: log entry 50), and OBS_COUNTERS a header
and 36 bytes for each die of the field; FW_STATUS 48 bytes (a staging's progress is a free value: log entry 53). None changes anything but
the response. -/
def Obligations.PowerSettingsAndReads : Prop :=
  (∀ (s : State) (r : MReq), let u := s.atRequest r
      (∀ tray pkgs, s.decides r ⟨0x0602, 20, false, .tray, some 0, false⟩ noEarly → pkgs.length = 4 →
        ((tray = 0 ∨ (5880 ≤ tray ∧ tray ≤ 10800)) → (∀ w ∈ pkgs, w = 0 ∨ (1100 ≤ w ∧ w ≤ 2330)) →
          ∃ t, exec (.powerCap r tray pkgs) s = .next t ∧ t.answered r 0x0602 0 [] ∧ t.capTray = tray ∧
            (∀ n : Fin 4, NMap.get t.capPkg n.val 0 = pkgs.getD n.val 0) ∧
            u.onlyChanges t [.ports, .wmReply, .capTray, .capPkg]) ∧
        ((0 < tray ∧ tray < 5880) ∨ 10800 < tray ∨ (∃ w ∈ pkgs, (0 < w ∧ w < 1100) ∨ 2330 < w) →
          exec (.powerCap r tray pkgs) s = .next (u.reply r 0x0602 0x0601 []))) ∧
      (∀ (f : Fin 8) (ceiling : Nat), ceiling ≤ 7 →
        s.decides r ⟨0x0603, 4, false, .scope (some (fscope f)), some (fscope f), false⟩ noEarly →
        ((u.field f).live = false → exec (.fieldRung r (fnum f) ceiling) s = .next (u.reply r 0x0603 0x0403 [])) ∧
        ((u.field f).live = true → ∃ t, exec (.fieldRung r (fnum f) ceiling) s = .next t ∧ (t.field f).ceiling = ceiling ∧
          (t.field f).rung = (u.field f).rung ∧
          ((t.field f).rung = t.wantedRung f → t.answered r 0x0603 0 (le 1 (t.field f).rung ++ le 3 0)) ∧
          ((t.field f).rung ≠ t.wantedRung f → (t.field f).holder = some ⟨r, 0x0603⟩) ∧ u.otherFields t f ∧ u.memoryKept t)) ∧
      (∀ (f : Fin 8) (b : Nat), b ≤ 1 →
        s.decides r ⟨0x0604, 4, true, .either (some (fscope f)), some (fscope f), false⟩ noEarly →
        ((u.field f).live = false → exec (.calOff r (fnum f) b) s = .next (u.reply r 0x0604 0x0403 [])) ∧
        ((u.field f).live = true → exec (.calOff r (fnum f) b) s =
          .next ((u.onField f fun x => { x with calOff := decide (b = 1) }).reply r 0x0604 0 [])))) ∧
  (∀ (s : State) (r : MReq), let u := s.atRequest r
      (s.decides r ⟨0x0601, 0, false, .anyone, none, false⟩ noEarly →
        ∃ b : List Byte, b.length = 44 ∧ b.take 8 = le 4 (u.pointPower 0 48) ++ le 4 u.trayCapNow ∧
          exec (.powerRead r) s = .next (u.reply r 0x0601 0 b)) ∧
      (∀ f : Fin 8, s.decides r ⟨0x0801, 4, false, .either (some (fscope f)), some (fscope f), false⟩ noEarly →
        ((u.field f).live = false → exec (.obsCounters r (fnum f)) s = .next (u.reply r 0x0801 0x0403 [])) ∧
        ((u.field f).live = true → (∀ d, (u.cntRecord d).length = 36) ∧ exec (.obsCounters r (fnum f)) s =
          .next (u.reply r 0x0801 0 (le 1 (fnum f) ++ le 1 (u.field f).dies.length ++ le 2 0 ++ le 8 (u.tallyOf u.server) ++
            (u.field f).dies.flatMap u.cntRecord)))) ∧
      (s.decides r ⟨0x0901, 0, false, .anyone, none, true⟩ noEarly →
        ∃ (src : Nat) (progress : Byte), exec (.fwStatus r) s = .next (u.reply r 0x0901 0
            (le 1 src ++ le 1 u.wm.other.st.code ++ [progress] ++ le 1 u.wm.failedBringups ++ le 2 u.wm.lastResult ++ le 2 0 ++
              le 8 u.wm.bankA.bundle.toNat ++ le 8 u.wm.bankB.bundle.toNat ++ le 24 0)) ∧
          (u.wm.staging = none → progress = 0) ∧
          (u.wm.bootsrc ≠ 2 → u.wm.recovery = false → src = if u.wm.activeB then 1 else 0)))

/-- PKG_REARM and PKG_POWER on: a faulted package answers E_PKG_FAULT; one that powers down is waited for; one that is powering up or on
answers OK and stays; one that may be powered up, beside another that is on, has its gate enabled at once and answers OK. PKG_POWER off
answers E_FIELD_BUSY while a field holds a die of the package, and else answers OK and a package that is on begins its power-down to state
7. -/
def Obligations.PackagePowerCommands : Prop :=
  ∀ (s : State) (r : MReq) (n : Fin 4), let u := s.atRequest r
    (s.decides r ⟨0x0605, 4, false, .tray, some 0, true⟩ noEarly →
      ((u.pkg n).st = .faulted → exec (.pkgRearm r n.val) s = .next (u.reply r 0x0605 0x0602 [])) ∧
      ((u.pkg n).st = .poweringDown → ∃ t, exec (.pkgRearm r n.val) s = .next t ∧ (t.pkg n) = { u.pkg n with asked := true } ∧
        t.trayHolder = some ⟨r, 0x0605⟩ ∧ u.otherPkgs t n ∧ u.onlyChanges t [.pkgs, .trayHolder]) ∧
      ((u.pkg n).st = .on ∨ (u.pkg n).st = .poweringUp → exec (.pkgRearm r n.val) s = .next (u.reply r 0x0605 0 [])) ∧
      ((u.pkg n).st.mayUp = true → (∃ m, (u.pkg m).st = .on) → (u.pkg n).latch = 0 → u.input.fault = false →
        u.input.lockout = false → ∃ t, exec (.pkgRearm r n.val) s = .next t ∧ (t.pkg n).st = .poweringUp ∧
          (t.pkg n).gate = true ∧ (t.pkg n).gateAt = u.now ∧ t.answered r 0x0605 0 [] ∧ u.otherPkgs t n ∧
          u.onlyChanges t [.ports, .wmReply, .pkgs])) ∧
    (s.decides r ⟨0x0606, 4, true, .tray, some 0, true⟩ noEarly →
      ((u.pkg n).st = .faulted → exec (.pkgPowerOn r n.val) s = .next (u.reply r 0x0606 0x0602 [])) ∧
      ((u.pkg n).st = .on ∨ (u.pkg n).st = .poweringUp → exec (.pkgPowerOn r n.val) s = .next (u.reply r 0x0606 0 [])) ∧
      ((u.pkg n).st.mayUp = true → (∃ m, (u.pkg m).st = .on) → (u.pkg n).latch = 0 → u.input.fault = false →
        u.input.lockout = false → ∃ t, exec (.pkgPowerOn r n.val) s = .next t ∧ (t.pkg n).st = .poweringUp ∧
          (t.pkg n).gate = true ∧ t.answered r 0x0606 0 [] ∧ u.otherPkgs t n ∧ u.onlyChanges t [.ports, .wmReply, .pkgs]) ∧
      (u.pkgFields n ≠ [] → exec (.pkgPowerOff r n.val) s = .next (u.reply r 0x0606 0x0404 [])) ∧
      (u.pkgFields n = [] → (u.pkg n).st = .on → (u.pkg n).gate = true → ∃ t, exec (.pkgPowerOff r n.val) s = .next t ∧
        (t.pkg n).st = .poweringDown ∧ (t.pkg n).after = .heldOff ∧ (t.pkg n).downAt = u.now ∧ u.otherPkgs t n ∧ u.memoryKept t ∧
        (u.waiting = [] → t.answered r 0x0606 0 [])))

/-! ### Trouble, observation, debug, firmware and test, by command -/

/-- TRB_READ answers a die's log or the tray's record with the counts and entries of Table 10.6, 40 bytes and 32 for each entry, and changes
nothing but the response. TRB_CLEAR clears what its mask names and nothing else: a die's log, its first-error capture, its overflow, and
the tray's records. -/
def Obligations.TroubleReadsAndClears : Prop :=
  ∀ (s : State) (r : MReq), let u := s.atRequest r
    (∀ tray die d first count, s.decides r ⟨0x0701, 4, false, .anyone, none, false⟩ noEarly → u.dieRef tray die = some d → die ≠ 0 →
      (count = 0 ∨ 32 < count ∨ 31 < first → exec (.trbRead r tray die first count) s = .next (u.reply r 0x0701 0x0104 [])) ∧
      (1 ≤ count → count ≤ 32 → first ≤ 31 → let x := (u.die d).trb
        exec (.trbRead r tray die first count) s = .next (u.reply r 0x0701 0 (le 1 x.log.length ++
          le 1 ((if x.ovf then 1 else 0) + (if x.fec.isSome then 2 else 0)) ++ le 2 x.ovfCount ++ le 2 x.handlingBits ++ le 2 0 ++
          (match x.fec with | some e => e.bytes | none => le 32 0) ++ entryBytes x.log first count)))) ∧
    (∀ tray die d (mask : Half), s.decides r ⟨0x0702, 4, false, .tray, some 0, mask.getLsbD 4⟩
        (fun v => if 32 ≤ mask.toNat then some 0x0103 else match v.dieRef tray die with
          | none => some 0x0104
          | some d => if mask.getLsbD 4 ∧ (d.slot ≠ 0 ∨ d.tray ≠ v.span.num) then some 0x0104 else none) →
      die ≠ 0 → u.dieRef tray die = some d → mask.getLsbD 3 = false → mask.getLsbD 4 = false →
      ∃ t, exec (.trbClear r tray die mask) s = .next t ∧ t.answered r 0x0702 0 [] ∧
        (t.die d).trb.log = (if mask.getLsbD 0 then [] else (u.die d).trb.log) ∧
        (t.die d).trb.fec = (if mask.getLsbD 1 then none else (u.die d).trb.fec) ∧
        (t.die d).trb.ovf = (if mask.getLsbD 2 then false else (u.die d).trb.ovf) ∧
        (t.die d).trb.handling = (u.die d).trb.handling ∧ u.otherDies t d ∧ u.onlyChanges t [.ports, .wmReply, .dies]) ∧
    (∀ (mask : Half), mask.toNat < 32 → mask.getLsbD 4 = false →
      s.decides r ⟨0x0702, 4, false, .tray, some 0, false⟩
        (fun v => if v.trays.length ≤ v.span.num.val then some 0x0104 else none) →
      ∃ t, exec (.trbClear r u.span.num.val 0 mask) s = .next t ∧ t.answered r 0x0702 0 [] ∧
        t.trouble.records = (if mask.getLsbD 0 then [] else u.trouble.records) ∧
        t.trouble.ovf = (if mask.getLsbD 2 then false else u.trouble.ovf) ∧
        t.trouble.summary = (if mask.getLsbD 3 then 0 else u.trouble.summary) ∧ t.dies = u.dies)

/-- OBS_HIST arms the tray's instance for the tray owner with every bin 0, and reads its 64 bins; OBS_TRACE starts a recorder empty, reads and
removes its oldest records, at most 127, and stops it; a running recorder of another requester whose claim stands answers E_OBS_BUSY. Only
the one port's observation state and the response change. DBG_READ answers the bytes of a running die's debug space and marks its field
READ, a DBG_WRITE to a tile's SRAM puts its bytes there and marks its field TOUCHED; a misshapen access answers E_ARG_RANGE, a die that
does not run E_SF_TIMEOUT. -/
def Obligations.HistogramsTracesAndDebug : Prop :=
  (∀ (s : State) (r : MReq) (x : PRef) (q : PortId), let u := s.atRequest r
      u.portRef x = some q →
      (s.decides r ⟨0x0802, 8, false, .either (s.refScope x), some 0, false⟩ noEarly → (u.scope 0).ownedBy r = true →
        (exec (.obsHistArm r x) s = .next ((u.onPort q fun y => { y with histTray := { armed := true } }).reply r 0x0802 0 [])) ∧
        (exec (.obsHistRead r x) s = .next (u.reply r 0x0802 0 (u.port q).histTray.bytes)) ∧
        (u.port q).histTray.bytes.length = 256) ∧
      (s.decides r ⟨0x0803, 8, true, .either (s.traceScope r), some 0, false⟩ noEarly → let y := (u.port q).trace
        (y.running = true → y.startedBy r = false → u.starterOwns y = true →
          exec (.obsTraceStart r x) s = .next (u.reply r 0x0803 0x0411 [])) ∧
        (y.running = false ∨ y.startedBy r = true → ∃ t, exec (.obsTraceStart r x) s = .next t ∧ t.answered r 0x0803 0 [] ∧
          (t.port q).trace.running = true ∧ (t.port q).trace.starter = some (r.rid, r.port) ∧ (t.port q).trace.records = [] ∧
          (t.port q).trace.lost = 0 ∧ ((u.scope 0).ownedBy r = true → (t.port q).trace.only = none) ∧ u.otherPorts t q ∧
          u.onlyChanges t [.ports, .wmReply, .links]) ∧
        (y.startedBy r = true ∨ y.starter = none →
          exec (.obsTraceRead r x) s = .next ((u.onPort q fun p => { p with trace := { y with records := y.records.drop 127 } }).reply r
            0x0803 0 (le 2 (y.records.take 127).length ++ le 4 y.lost ++ le 2 0 ++ (y.records.take 127).flatMap TraceRec.bytes))) ∧
        (y.startedBy r = true ∨ y.running = false →
          exec (.obsTraceStop r x) s = .next ((u.onPort q fun p => { p with trace := { y with running := false } }).reply r 0x0803 0 [])))) ∧
  (∀ (s : State) (r : MReq) (tray die : Nat) (d : DieId), let u := s.atRequest r
      u.dieRef tray die = some d →
      (∀ a len, s.decides r ⟨0x0804, 12, true, .tray, some 0, false⟩ noEarly →
        (debugShape a len = false → exec (.dbgRead r tray die a len) s = .next (u.reply r 0x0804 0x0104 [])) ∧
        (debugShape a len = true → u.dieUp d = false → exec (.dbgRead r tray die a len) s = .next (u.reply r 0x0804 0x0520 [])) ∧
        (∀ f, debugShape a len = true → u.dieUp d = true → len ≤ debugMax d → a + len ≤ 0x1000000 → u.fieldOf d = some f →
          exec (.dbgRead r tray die a len) s =
            .next ((u.spend.onField f fun x => { x with read := true }).reply r 0x0804 0 (u.mgmtRead d a len)))) ∧
      (∀ (n : Fin 1024) (a : Nat) (data : List Byte), s.decides r ⟨0x0805, 12 + data.length, true, .tray, some 0, false⟩ noEarly →
        debugShape a data.length = true → a + data.length ≤ 0x40000 → u.dieUp d = true → d.isCompute = true →
        Memory.wf ((u.die d).tile n.val).sram = true →
        ∃ t, exec (.dbgWrite r tray die (0x10000000 + n.val * 0x40000 + a) data) s = .next t ∧ t.answered r 0x0805 0 [] ∧
          (∀ i, Memory.get ((t.die d).tile n.val).sram i =
            if a ≤ i ∧ i < a + data.length then data.getD (i - a) 0 else Memory.get ((u.die d).tile n.val).sram i) ∧
          (∀ f, u.fieldOf d = some f → (t.field f).touched = true) ∧ u.otherDies t d ∧ u.memoryKept t))

/-- FW_STAGE is busy while a staging runs, and else overwrites the other bank and begins; FW_ACTIVATE makes a STAGED bank PENDING, FW_ROLLBACK
a valid one. None touches the active bank. -/
def Obligations.FirmwareCommands : Prop :=
  ∀ (s : State) (r : MReq), let u := s.atRequest r
    (∀ host len, s.decides r (fwCmd 0x0902 16 false) noEarly →
      (u.wm.stagingBusy true = true → exec (.fwStage r host len) s = .next (u.reply r 0x0902 0x0407 [])) ∧
      (u.wm.stagingBusy true = false → ∃ t, exec (.fwStage r host len) s = .next t ∧ t.answered r 0x0902 0 [] ∧
        t.wm.other = { st := .staging } ∧ t.wm.active = u.wm.active ∧ t.wm.staging = some (some len) ∧
        u.onlyChanges t [.ports, .wmReply, .effects, .wm])) ∧
    (s.decides r (fwCmd 0x0903 0 false) noEarly →
      (u.wm.staging ≠ none → exec (.fwActivate r) s = .next (u.reply r 0x0903 0x0407 [])) ∧
      (u.wm.staging = none → u.wm.other.st ≠ .staged → exec (.fwActivate r) s = .next (u.reply r 0x0903 0x0408 [])) ∧
      (u.wm.staging = none → u.wm.other.st = .staged → ∃ t, exec (.fwActivate r) s = .next t ∧ t.answered r 0x0903 0 [] ∧
        t.wm.other = { u.wm.other with st := .pending } ∧ t.wm.active = u.wm.active ∧ t.wm.activeB = u.wm.activeB ∧
        u.onlyChanges t [.ports, .wmReply, .wm])) ∧
    (s.decides r (fwCmd 0x0904 0 true) noEarly →
      (u.wm.staging = none → u.wm.other.valid = false → exec (.fwRollback r) s = .next (u.reply r 0x0904 0x0408 [])) ∧
      (u.wm.staging = none → u.wm.other.valid = true → ∃ t, exec (.fwRollback r) s = .next t ∧ t.answered r 0x0904 0 [] ∧
        t.wm.other = { u.wm.other with st := .pending } ∧ t.wm.active = u.wm.active ∧ u.onlyChanges t [.ports, .wmReply, .wm]))

/-- FW_ABORT ends a staging in progress and leaves the bank EMPTY, returns a PENDING bank to STAGED, and else answers OK and changes nothing. -/
def Obligations.FwAbortEndsAStaging : Prop :=
  ∀ (s : State) (r : MReq), let u := s.atRequest r
    s.decides r (fwCmd 0x0905 0 false) noEarly →
      (u.wm.staging ≠ none → ∃ t, exec (.fwAbort r) s = .next t ∧ t.answered r 0x0905 0 [] ∧ t.wm.staging = none ∧
        t.wm.other = { st := .empty } ∧ t.wm.active = u.wm.active ∧ u.onlyChanges t [.ports, .wmReply, .wm]) ∧
      (u.wm.staging = none → u.wm.other.st = .pending → ∃ t, exec (.fwAbort r) s = .next t ∧ t.answered r 0x0905 0 [] ∧
        t.wm.other = { u.wm.other with st := .staged } ∧ t.wm.active = u.wm.active ∧ u.onlyChanges t [.ports, .wmReply, .wm]) ∧
      (u.wm.staging = none → u.wm.other.st ≠ .pending → exec (.fwAbort r) s = .next (u.reply r 0x0905 0 []))

/-- TEST_START refuses a port with a planned slot and a mode a tray does not permit, and else takes the port down and begins a run in the mode
asked; TEST_STOP and TST_CTRL STOP end a run, START begins one in a mode other than OFF, the limit ends one where it is not 0; TEST_READ
answers 4,080 bytes; REPAIR_CLEAR removes the soft retirements of the ports it names (measured values are free: log entry 58). -/
def Obligations.TestRuns : Prop :=
  ∀ (s : State) (r : MReq) (x : PRef) (q : PortId), let u := s.atRequest r
    u.portRef x = some q →
    (∀ ctrl limit user, s.decides r ⟨0x0A01, 20, false, .tray, some 0, false⟩ noEarly → ctrl.toNat < 16384 → limit < 2 ^ 48 →
      ctrl.toNat / 8 % 16 < 8 → ctrl.toNat % 8 < 6 →
      (u.planned q = true → exec (.testStart r x ctrl limit user) s = .next (u.reply r 0x0A01 0x0421 [])) ∧
      (u.planned q = false → ctrl.toNat % 8 = 4 → exec (.testStart r x ctrl limit user) s = .next (u.reply r 0x0A01 0x0420 [])) ∧
      (u.planned q = false → ctrl.toNat % 8 = 1 ∨ ctrl.toNat % 8 = 2 ∨ ctrl.toNat % 8 = 5 →
        ∃ t, exec (.testStart r x ctrl limit user) s = .next t ∧ t.answered r 0x0A01 0 [] ∧ (t.port q).link.st = .down ∧
          (t.port q).tst.mode = ctrl.toNat % 8 ∧ (t.port q).tst.running = true ∧ (t.port q).tst.uiLimit = limit ∧
          (t.port q).tst.user = user ∧ u.memoryKept t)) ∧
    (s.decides r ⟨0x0A02, 4, false, .tray, some 0, false⟩ noEarly → ∃ t, exec (.testStop r x) s = .next t ∧
      t.answered r 0x0A02 0 [] ∧ (t.port q).tst.running = false ∧ (t.port q).tst.mode = (u.port q).tst.mode ∧ u.otherPorts t q ∧
      u.onlyChanges t [.ports, .wmReply, .links]) ∧
    (∀ lane, s.decides r ⟨0x0A03, 8, false, .anyone, none, false⟩ noEarly →
      (u.testLanes q ≤ lane → exec (.testRead r x lane) s = .next (u.reply r 0x0A03 0x0104 [])) ∧
      (lane < u.testLanes q → ∃ b : List Byte, b.length = 4080 ∧ b.take 4 = le 4 (u.tstCtrl q) ∧
        exec (.testRead r x lane) s = .next (u.reply r 0x0A03 0 b))) ∧
    (s.decides r ⟨0x0A04, 4, true, .tray, some 0, true⟩ noEarly → x.port ≠ 0xFF → ∃ t, exec (.repairClear r x) s = .next t ∧
      t.answered r 0x0A04 0 [] ∧ (∀ e, e ∈ t.wm.soft ↔ e ∈ u.wm.soft ∧ ¬ (e.key.uid = (u.die q.die).ident.uid ∧ e.key.port = q.port.val)) ∧ t.links = u.links ∧
      u.onlyChanges t [.ports, .wmReply, .wm]) ∧
    (s.dieUp q.die = true ∨ s.inCarrier q.die = true → (s.port q).tst.mode ≠ 0 → (s.port q).tst.running = false →
      ∃ t, exec (.tstCtrlStart q) s = .next t ∧ (t.port q).tst.running = true ∧ (t.port q).tst.ctrl.getLsbD 10 = false ∧
        (t.port q).tst.limited = false ∧ (t.port q).tst.startAt = s.now ∧
        ((s.port q).tst.mode ≠ 4 → s.otherPorts t q ∧ s.onlyChanges t [.links, .free])) ∧
    ((s.port q).tst.running = true → ∃ t, exec (.tstCtrlStop q) s = .next t ∧ (t.port q).tst.running = false ∧
      (t.port q).tst.ctrl.getLsbD 10 = true ∧ s.otherPorts t q ∧ s.onlyChanges t [.links]) ∧
    ((s.port q).tst.running = true →
      ((s.port q).tst.uiLimit ≠ 0 → ∃ t, exec (.testRunLimit q) s = .next t ∧ (t.port q).tst.running = false ∧
        (t.port q).tst.limited = true ∧ t.tstUi q = (s.port q).tst.uiLimit ∧ s.otherPorts t q ∧ s.onlyChanges t [.links]) ∧
      ((s.port q).tst.uiLimit = 0 → exec (.testRunLimit q) s = .next s))

/-! ### The field sequencer -/

/-- STEP_BOUNDARY at the boundary of a running ordinary step, in a field with nothing else to do there (no sluice, change, cancel, closing
gate or duty, calibration off, no checksums): the next step starts there with its length at the rung in force; after the last step the
ring entry at the consumer index completes DONE with VALID cleared, the consumer index moves on, and nothing runs. A sluice boundary
reached freezes the field there with no step running. Before the boundary only the clock moves. LAUNCH_TAKE takes the next ring entry of a
field that may take one: an entry R42 accepts against the active plan becomes the running launch, one it rejects completes REJECTED, one
cancelled before completes CANCELLED; with nothing to take only the clock moves. HOME_RECALL_DONE takes a home without an OWNED line off
the list the launch waits for. -/
def Obligations.LaunchesRunToTheirBoundaries : Prop :=
  (∀ (s : State) (f : Fin 8) (t : Nat) (r : Running), let u := s.clock t; let x := u.field f
      x.live = true → x.flush = none → x.frozen = false → x.run = some r → r.kind = .ordinary → r.started = true →
      (u.leadTally f < r.boundary → exec (.stepBoundary f t) s = .next u) ∧
      (r.boundary ≤ u.leadTally f → x.change = none → x.stepClosing = false → r.cancel = false → r.checksum = false → x.duty = 0 →
        x.calOff = true →
        (x.sluiceAt = none → r.step ≠ r.entry.last → ∃ v q, exec (.stepBoundary f t) s = .next v ∧ (v.field f).run = some q ∧
          q.idx = r.idx ∧ q.step = r.step + 1 ∧ q.start = r.boundary ∧ q.boundary = r.boundary + x.stepLen (r.step + 1) ∧
          q.started = true ∧ q.kind = .ordinary ∧ (v.field f).rung = x.rung ∧ u.memoryKept v ∧
          (Memory.wf x.ring = true → ∀ a, a < 64 * (r.idx % 64) + 0x30 ∨ 64 * (r.idx % 64) + 0x34 ≤ a →
            Memory.get (v.field f).ring a = Memory.get x.ring a)) ∧
        (x.sluiceAt = none → r.step = r.entry.last → r.poison = 0 → r.csum = 0 → Memory.wf x.ring = true →
          ∃ v, exec (.stepBoundary f t) s = .next v ∧ (v.field f).run = none ∧ (v.field f).cons = x.cons + 1 ∧
            Memory.get (v.field f).ring (64 * (x.cons.toNat % 64) + 0x28) = 1 ∧
            (Memory.get (v.field f).ring (64 * (x.cons.toNat % 64) + 2)).getLsbD 0 = false ∧
            (∀ a, a / 64 ≠ x.cons.toNat % 64 → a / 64 ≠ r.idx % 64 → Memory.get (v.field f).ring a = Memory.get x.ring a) ∧
            u.memoryKept v) ∧
        (∀ n, x.sluiceAt = some n → n ≤ r.boundary → r.step ≠ r.entry.last → ∃ v q, exec (.stepBoundary f t) s = .next v ∧
          (v.field f).frozen = true ∧ (v.field f).frozenAt = some r.boundary ∧ (v.field f).run = some q ∧ q.started = false ∧
          u.memoryKept v))) ∧
  (∀ (s : State) (f : Fin 8) (t : Nat), let u := s.clock t; let x := u.field f; let i := x.taken.toNat % 64
      (x.mayTake = false → x.st ≠ .disabled → exec (.launchTake f t) s = .next u) ∧
      (x.mayTake = true → x.cancels.contains i = true → Memory.wf x.ring = true → ∃ v, exec (.launchTake f t) s = .next v ∧
        (v.field f).taken = x.taken + 1 ∧ (v.field f).cons = x.cons + 1 ∧ (v.field f).run = none ∧
        Memory.get (v.field f).ring (64 * (x.cons.toNat % 64) + 0x28) = 4 ∧ u.memoryKept v) ∧
      (∀ p, x.mayTake = true → x.cancels.contains i = false → x.reloadDue = none → x.staged = none → x.active = some p → x.ended = none →
        (∀ d ∈ x.dies, ∀ e ∈ (u.die d).side.dir, e.owner = none) →
        (p.stale = true → fieldAt (x.entryBytes i) 8 8 = p.id.toNat → exec (.launchTake f t) s = .next u) ∧
        (p.stale = false ∨ fieldAt (x.entryBytes i) 8 8 ≠ p.id.toNat →
        (∀ r, x.accept p i = some r → ∃ v, exec (.launchTake f t) s = .next v ∧ (v.field f).run = some r ∧
          (v.field f).taken = x.taken + 1 ∧ (v.field f).cons = x.cons ∧ (v.field f).ring = x.ring ∧ u.otherFields v f ∧
          u.onlyChanges v [.fields]) ∧
        (x.accept p i = none → Memory.wf x.ring = true → ∃ v, exec (.launchTake f t) s = .next v ∧ (v.field f).run = none ∧
          (v.field f).taken = x.taken + 1 ∧ (v.field f).cons = x.cons + 1 ∧
          Memory.get (v.field f).ring (64 * (x.cons.toNat % 64) + 0x28) = 5 ∧ u.memoryKept v))) ∧
      (∀ d, ((∀ e ∈ (u.die d).side.dir, e.owner = none) → exec (.homeRecallDone f d t) s =
          .next (u.onField f fun x => { x with recalls := x.recalls.filter (· ≠ d) })) ∧
        ((∃ e ∈ (u.die d).side.dir, e.owner ≠ none) → exec (.homeRecallDone f d t) s = .next u)))

/-- A switch: a die that ends the switch step, or reports, in good order is noted; with the last of them the incoming plan is active, the
gates are open and no switch is left. A reload not reported within 5 ms of its start ends with no active plan, the gates open and no
launch in flight. A drained field goes on to the flush, or for a reload to the switch; one not drained 100 us after the drain began is
flushed all the same. A completed flush of a disable leaves the field DISABLED without a plan or a launch and answers the command; of a
cancel it opens the gates again. -/
def Obligations.SwitchesDrainsAndFlushesEnd : Prop :=
  (∀ (s : State) (f : Fin 8) (d : DieId) (t : Nat) (w : Switch), let u := s.clock t; let x := u.field f
      x.switch = some w → x.dies.contains d = true → x.flush = none →
      (∀ p, x.incoming = some p → u.blockSwitched p d = true → u.cfgSpoiled d = false →
        (∀ r, w.form = .tailwater → x.run = some r → w.done.contains d = false → r.boundary ≤ u.leadTally f →
          x.stepClosing = false → x.sluiceAt = none → x.reloadDue = none →
          ((∃ e ∈ x.dies, e ≠ d ∧ w.done.contains e = false) → exec (.switchStepEnd f d t) s =
            .next (u.onField f fun x => { x with switch := some { w with done := w.done ++ [d] } })) ∧
          ((∀ e ∈ x.dies, e ≠ d → w.done.contains e = true) → ∃ v, exec (.switchStepEnd f d t) s = .next v ∧
            (v.field f).active = some p ∧ (v.field f).switch = none ∧ (v.field f).stepClosed = false ∧
            (v.field f).ringClosed = false ∧ (w.staged = true → (v.field f).staged = none) ∧ u.memoryKept v)) ∧
        (w.form ≠ .tailwater → w.reported.contains d = false →
          ((∃ e ∈ x.dies, e ≠ d ∧ w.reported.contains e = false) → exec (.dieSwitchReport f d t) s =
            .next (u.onField f fun x => { x with switch := some { w with reported := w.reported ++ [d] } })) ∧
          ((∀ e ∈ x.dies, e ≠ d → w.reported.contains e = true) → ∃ v, exec (.dieSwitchReport f d t) s = .next v ∧
            (v.field f).active = some p ∧ (v.field f).switch = none ∧ (v.field f).stepClosed = false ∧
            (v.field f).ringClosed = false ∧ (w.staged = true → (v.field f).staged = none) ∧ u.memoryKept v))) ∧
      (w.form = .reload → w.reported.contains d = false →
        (u.now < w.since + 5000000 → exec (.reloadDeadline f d t) s = .next u) ∧
        (w.since + 5000000 ≤ u.now → ∃ v, exec (.reloadDeadline f d t) s = .next v ∧ (v.field f).active = none ∧
          (v.field f).switch = none ∧ (v.field f).run = none ∧ (v.field f).inFlight = 0 ∧ (v.field f).stepClosed = false ∧
          u.memoryKept v))) ∧
  (∀ (s : State) (f : Fin 8) (t : Nat), let u := s.clock t; let x := u.field f
      (∀ why since, x.drain = some (why, since) → x.flush = none →
        (u.fieldDrained f = true → (∀ b, why ≠ .reload b) → exec (.fieldDrained f t) s =
          .next (u.onField f fun x => { x with drain := none, flush := some (why, u.now) })) ∧
        (∀ b, u.fieldDrained f = true → why = .reload b → ∃ v, exec (.fieldDrained f t) s = .next v ∧ (v.field f).drain = none ∧
          (v.field f).flush = none ∧ (v.field f).switch = some { form := .reload, since := u.now, staged := b } ∧ u.memoryKept v) ∧
        (u.fieldDrained f = false → exec (.fieldDrained f t) s = .next u) ∧
        (u.fieldDrained f = false → since + 100000 ≤ u.now → ∃ v, exec (.drainLimit f t) s = .next v ∧ (v.field f).drain = none ∧
          (v.field f).flush = some (why, u.now) ∧ u.memoryKept v) ∧
        (u.fieldDrained f = true ∨ u.now < since + 100000 → exec (.drainLimit f t) s = .next u)) ∧
      (x.flush = none → exec (.flushComplete f t) s = .next u) ∧
      (∀ a, x.flush = some (.disable, a) → ∃ v, exec (.flushComplete f t) s = .next v ∧ (v.field f).st = .disabled ∧
        (v.field f).active = none ∧ (v.field f).staged = none ∧ (v.field f).run = none ∧ (v.field f).inFlight = 0 ∧
        (v.field f).flush = none ∧ (v.field f).holder = none ∧ u.memoryKept v ∧
        (∀ w, x.holder = some w → u.awaits w.req → v.answered w.req w.opcode 0 [])) ∧
      (∀ a, x.flush = some (.cancel, a) → x.st = .enabled → ∃ v, exec (.flushComplete f t) s = .next v ∧ (v.field f).st = .enabled ∧
        (v.field f).flush = none ∧ (v.field f).stepClosed = false ∧ (v.field f).ringClosed = false ∧ (v.field f).sideClosed = false ∧
        (v.field f).frozen = false ∧ (v.field f).active = x.active ∧ u.memoryKept v))

/-- A field-wide change: a limit that moves names one at least 100 us ahead; each die is told and confirms once; 20 us before the boundary the
lead commits what every die confirmed and otherwise names a later one; each die takes the commit once; where every die holds it, the
change applies at its boundary (log entry 33). -/
def Obligations.FieldWideChanges : Prop :=
  ∀ (s : State) (f : Fin 8) (t : Nat), let u := s.clock t; let x := u.field f
    (x.live = true → x.frozen = false → x.change = none → u.wantedRung f ≠ x.rung → ∃ v c, exec (.stewardLimit f t) s = .next v ∧
      (v.field f).change = some c ∧ c.kind = .rung (u.wantedRung f) ∧ u.leadTally f + 100000 ≤ c.boundary ∧
      c.committed = false ∧ (v.field f).rung = x.rung ∧ u.otherFields v f ∧ u.onlyChanges v [.free, .fields]) ∧
    (x.live = true → u.wantedRung f = x.rung → u.wantedDuty f = x.duty → x.change = none → exec (.stewardLimit f t) s = .next u) ∧
    (∀ c d, x.change = some c →
      (x.dies.contains d = true → c.noticed.contains d = false → (∀ r, c.kind = .rung r → r ≤ x.rung) →
        exec (.fieldChangeNotice f d t) s = .next (u.onField f fun x => { x with change := some { c with noticed := c.noticed ++ [d] } })) ∧
      (c.noticed.contains d = true → c.confirmed.contains d = false → c.committed = false →
        u.leadTally f + 20000 ≤ c.boundary → u.canConfirm f d c.kind = true →
        exec (.fieldChangeConfirm f d t) s =
          .next (u.onField f fun x => { x with change := some { c with confirmed := c.confirmed ++ [d] } })) ∧
      (c.noticed.contains d = false ∨ u.canConfirm f d c.kind = false ∨ c.boundary < u.leadTally f + 20000 → exec (.fieldChangeConfirm f d t) s = .next u) ∧
      (c.committed = false → c.boundary ≤ u.leadTally f + 20000 → u.leadTally f < c.boundary →
        (∀ e ∈ x.dies, c.confirmed.contains e = true) →
        exec (.commitDeadline f t) s = .next (u.onField f fun x => { x with change := some { c with committed := true } })) ∧
      (c.committed = false → c.boundary ≤ u.leadTally f + 20000 →
        ((∃ e ∈ x.dies, c.confirmed.contains e = false) ∨ c.boundary ≤ u.leadTally f) →
        ∃ v c', exec (.commitDeadline f t) s = .next v ∧ (v.field f).change = some c' ∧ c'.kind = c.kind ∧ c'.confirmed = [] ∧
          u.leadTally f + 100000 ≤ c'.boundary ∧ u.otherFields v f ∧ u.onlyChanges v [.free, .fields]) ∧
      (c.committed = true → x.dies.contains d = true → c.applied.contains d = false →
        exec (.fieldChangeCommit f d t) s =
          .next (u.onField f fun x => { x with change := some { c with applied := c.applied ++ [d] } })) ∧
      (∀ r, c.kind = .rung r → c.committed = true → c.boundary ≤ u.leadTally f → (∀ e ∈ x.dies, c.applied.contains e = true) →
        x.live = true → x.flush = none → x.frozen = false → x.sluiceAt = none → x.stepClosing = false → x.run = none →
        ∃ v, exec (.stepBoundary f t) s = .next v ∧ (v.field f).rung = r ∧ u.memoryKept v))

/-! ### Tiles and the mesh -/

/-- The commands of tiles, mesh and memory endpoints name a unit of a compute die: on an I/O die, which has none, each stops with the fault
noSuchUnit. RULE_FIRE fires the ready entry of the smallest tag distance, then of the lowest rule: its operands leave the queue, its
packets carry its tag, from its tile, into the mesh, one or two for each output that has a channel, and where no error check of SRAM
finds anything nothing else is reported; with none ready nothing changes.
CREDIT_RETURN lands one credit on its way at its source, at most to the bound. ITERATION_COMPLETE retires a tag whose end rule fired: T0
moves past it where it is the oldest, and else the tag is noted as done. -/
def Obligations.TilesFireTheirRules : Prop :=
  (∀ (s : State) (d : DieId) (tile : Fin 1024) (ep : Fin 32) (p : Packet) (q : PortId) (idx : Nat) (c : Fin 64) (e : HdrErr) (a b n t : Nat)
      (tag : Byte), d.isCompute = false → q.die.isCompute = false →
      exec (.routerForward d idx c e) s = .fault .noSuchUnit ∧ exec (.meshPacketArrival d tile p) s = .fault .noSuchUnit ∧
      exec (.ruleFire d tile) s = .fault .noSuchUnit ∧ exec (.iterationComplete d tile tag) s = .fault .noSuchUnit ∧
      exec (.creditReturn d a b n) s = .fault .noSuchUnit ∧ exec (.memoryReadRequest d ep a p n t) s = .fault .noSuchUnit ∧
      exec (.memoryWrite d ep a p t) s = .fault .noSuchUnit ∧ exec (.memoryReadResponse d ep t) s = .fault .noSuchUnit ∧
      exec (.ingressInject q) s = .fault .noSuchUnit ∧ exec (.drainMarkerArrival d tile n) s = .fault .noSuchUnit ∧
      exec (.tileDrained d tile) s = .fault .noSuchUnit ∧ exec (.configPacketArrival d tile p) s = .fault .noSuchUnit ∧
      exec (.tileSwitch d tile) s = .fault .noSuchUnit) ∧
  (∀ (s : State) (d : DieId) (tile : Fin 1024), d.isCompute = true → let x := (s.die d).tile tile.val
      (x.pick = none → exec (.ruleFire d tile) s = .next s) ∧
      (∀ e r, x.pick = some e → x.rules[e.rule]? = some r →
        e ∈ x.pairs ∧ x.ready e = true ∧ (∀ z ∈ x.pairs, x.ready z = true → x.dist e.tag ≤ x.dist z.tag) ∧
        ∃ v, exec (.ruleFire d tile) s = .next v ∧ ((x.fire tile.val s.free e r).errs = [] → ∃ new,
          (v.die d).mesh = (s.die d).mesh ++ new ∧
          (∀ m ∈ new, m.packet.tag = e.tag ∧ m.packet.src = tile.val ∧ m.packet.kind = 0 ∧ m.arrived = false) ∧
          (r.outputs = [] → new = []) ∧
          (x.owed = [] → ((v.die d).tile tile.val).queue = x.queue.filter fun p => !(r.operands.contains p.channel && p.tag = e.tag)) ∧
          ((v.die d).tile tile.val).ending = (if r.isEnd then x.ending ++ [e.tag] else x.ending) ∧ v.free = s.free + 1 ∧
          s.otherDies v d ∧ s.memoryKept v ∧ s.onlyChanges v [.dies, .free])) ∧
      (∀ dst ch : Nat, ∃ v, exec (.creditReturn d tile.val dst ch) s = .next v ∧
        ((v.die d).tile tile.val).outs = x.outs.map (fun o => if o.dst = dst ∧ o.channel = ch ∧ 0 < o.fresh then
          { o with fresh := o.fresh - 1, credits := min o.bound (o.credits + 1) } else o) ∧
        ((v.die d).tile tile.val).queue = x.queue ∧ s.otherDies v d ∧ s.memoryKept v ∧ s.onlyChanges v [.dies]) ∧
      (∀ tag, ∃ v, exec (.iterationComplete d tile tag) s = .next v ∧ s.otherDies v d ∧ s.memoryKept v ∧ s.onlyChanges v [.dies] ∧
        (x.ending.contains tag = false → (v.die d).tile tile.val = x) ∧
        (x.ending.contains tag = true → x.done = [] →
          ((v.die d).tile tile.val).ending = x.ending.erase tag ∧ ((v.die d).tile tile.val).queue = x.queue ∧
          (tag = x.t0 → ((v.die d).tile tile.val).t0 = x.t0 + 1 ∧ ((v.die d).tile tile.val).done = []) ∧
          (tag ≠ x.t0 → ((v.die d).tile tile.val).t0 = x.t0 ∧ ((v.die d).tile tile.val).done = [tag]))))

/-- A packet of the mesh moves one router on in a cycle it may use, and may then use the next cycle; at its destination's router it stands at
the local port, or enters the egress entries of its attachment router; an uncorrectable header error removes it. A packet whose tag and
entry are in order joins the queue of its tile; one beyond its channel's bound is not queued and a poisoned substitute of the next
expected tag is owed. Of a drain marker the die notes which router it has passed. -/
def Obligations.MeshPacketsMove : Prop :=
  ∀ (s : State) (d : DieId), d.isCompute = true →
    (∀ (idx : Nat) (fl : InFlight) (c : Fin 64), (s.die d).mesh[idx]? = some fl → fl.arrived = false →
      (s.mayLeave d idx fl c.val = false → ∀ e, exec (.routerForward d idx c e) s = .next s) ∧
      (s.mayLeave d idx fl c.val = true →
        (s.outputOf d fl < 4 → exec (.routerForward d idx c .clean) s = .next ((s.notePassed d fl.router fl.packet).onDie d fun x =>
          { x with mesh := x.mesh.set idx { fl with router := meshNext fl.router (s.outputOf d fl), cycles := 2 ^ ((c.val + 1) % 64) } })) ∧
        (s.outputOf d fl = 4 → exec (.routerForward d idx c .clean) s = .next ((s.notePassed d fl.router fl.packet).onDie d fun x =>
          { x with mesh := x.mesh.set idx { fl with arrived := true } })) ∧
        (s.outputOf d fl = 5 → ∀ h : fl.packet.egress - 1 < 5, ∃ v, exec (.routerForward d idx c .clean) s = .next v ∧
          (v.die d).mesh = (s.die d).mesh.eraseIdx idx ∧
          (v.port ⟨d, ⟨_, h⟩⟩).planned.egress = (s.port ⟨d, ⟨_, h⟩⟩).planned.egress ++ [{ chan := fl.packet.channel, packet := fl.packet }] ∧
          s.otherDies v d ∧ s.otherPorts v ⟨d, ⟨_, h⟩⟩ ∧ s.onlyChanges v [.dies, .links]) ∧
        (∃ v, exec (.routerForward d idx c .uncorrectable) s = .next v ∧ (v.die d).mesh = (s.die d).mesh.eraseIdx idx ∧
          s.memoryKept v))) ∧
    (∀ (tile : Fin 1024) (p : Packet), let x := (s.die d).tile tile.val
      ((s.fieldOf d = none ∨ p.kind ≠ 0 ∨ p.dest ≠ tile.val ∨ 128 ≤ x.dist p.tag) →
        ∃ v, exec (.meshPacketArrival d tile p) s = .next v ∧ (v.die d).tiles = (s.die d).tiles ∧ s.memoryKept v) ∧
      ((s.fieldOf d).isSome = true → p.kind = 0 → p.dest = tile.val → x.dist p.tag < 128 →
        (x.used p.channel < x.entries p.channel → ∃ v, exec (.meshPacketArrival d tile p) s = .next v ∧
          ((v.die d).tile tile.val).queue = x.queue ++ [p] ∧ ((v.die d).tile tile.val).owed = x.owed ∧
          (∀ n, n ≠ tile.val → (v.die d).tile n = (s.die d).tile n) ∧ s.otherDies v d ∧ s.memoryKept v ∧ s.onlyChanges v [.dies]) ∧
        (x.entries p.channel ≤ x.used p.channel → ∃ v q, exec (.meshPacketArrival d tile p) s = .next v ∧
          ((v.die d).tile tile.val).queue = x.queue ∧ ((v.die d).tile tile.val).owed = x.owed ++ [q] ∧ q.poison = true ∧
          q.channel = p.channel ∧ q.tag = x.nextTag p.channel ∧ v.free = s.free + 1 ∧ s.memoryKept v)))

/-- A memory endpoint takes at most one packet a tick. A read request for its own home waits in order; a write stores its 64 bytes at the
line, poisoned as the packet is, and no other byte changes; a request for another home is not taken. The oldest request is answered on its
reply channel with its tag and the line's bytes, while the channel has a credit and the line's error check finds nothing. The oldest received packet of a port enters the mesh at
its channel's attachment router. -/
def Obligations.EndpointsAndIngress : Prop :=
  (∀ (s : State) (d : DieId) (k : Fin 32) (addr n t : Nat) (p : Packet), d.isCompute = true → let u := s.clock t; let e := (u.die d).ep k.val
    (e.last = some u.now → exec (.memoryReadRequest d k addr p n t) s = .next u ∧ exec (.memoryWrite d k addr p t) s = .next u) ∧
    (e.last ≠ some u.now → homeEndpoint addr ≠ k.val →
      (∃ v, exec (.memoryReadRequest d k addr p n t) s = .next v ∧ (v.die d).ep k.val = e ∧ u.memoryKept v) ∧
      (∃ v, exec (.memoryWrite d k addr p t) s = .next v ∧ (v.die d).ep k.val = e ∧ u.memoryKept v)) ∧
    (e.last ≠ some u.now → homeEndpoint addr = k.val →
      (∃ v, exec (.memoryReadRequest d k addr p n t) s = .next v ∧ ((v.die d).ep k.val).last = some u.now ∧
        ((v.die d).ep k.val).reqs = e.reqs ++ [{ addr := addr / 64 * 64, tag := p.tag, src := p.src, reply := n, since := u.now }] ∧
        u.otherDies v d ∧ u.memoryKept v ∧ u.onlyChanges v [.dies]) ∧
      (Memory.wf (u.die d).mem = true → ∃ v, exec (.memoryWrite d k addr p t) s = .next v ∧
        (∀ i, i < 64 → Memory.get (v.die d).mem (64 * (addr / 64) + i) = p.payload.extractLsb' (8 * i) 8) ∧
        (∀ a, a / 64 ≠ addr / 64 → Memory.get (v.die d).mem a = Memory.get (u.die d).mem a) ∧
        (∀ q, q ≠ d → (v.die q).mem = (u.die q).mem) ∧ ((v.die d).poison.contains (addr / 64) = p.poison) ∧
        ((v.die d).ep k.val).reqs = e.reqs)) ∧
    (e.reqs = [] → exec (.memoryReadResponse d k t) s = .next u) ∧
    (∀ q rest c, e.reqs = q :: rest → e.outs.find? (fun c => c.dst = q.src && c.channel = q.reply) = some c →
      (c.credits = 0 → exec (.memoryReadResponse d k t) s = .next u) ∧
      (0 < c.credits → ∃ v, exec (.memoryReadResponse d k t) s = .next v ∧ (Config.hbmCheck u.free (q.addr / 64) = .clean → ∃ fl,
        ((v.die d).ep k.val).reqs = rest ∧
        (v.die d).mesh = (u.die d).mesh ++ [fl] ∧ fl.packet.tag = q.tag ∧ fl.packet.dest = q.src ∧ fl.packet.channel = q.reply ∧
        fl.packet.src = 1024 + k.val ∧ fl.packet.poison = (u.die d).poison.contains (q.addr / 64) ∧
        fl.packet.payload = BitVec.ofNat 512 (ofLe (Memory.read (u.die d).mem q.addr 64)) ∧
        u.otherDies v d ∧ u.memoryKept v ∧ u.onlyChanges v [.dies, .free])))) ∧
  (∀ (s : State) (p : PortId), p.die.isCompute = true →
    ((s.port p).planned.rxq = [] → exec (.ingressInject p) s = .next s) ∧
    (∀ e rest pl c, (s.port p).planned.rxq = e :: rest → s.planOn p.die = some pl → pl.ingressRec p e.packet = some c →
      ∃ v fl, exec (.ingressInject p) s = .next v ∧ (v.port p).planned.rxq = rest ∧ (v.die p.die).mesh = (s.die p.die).mesh ++ [fl] ∧
        fl.router = c.attach ∧ fl.cycles = c.cycles ∧ fl.arrived = false ∧ fl.packet = { e.packet with egress := 0, order := c.order } ∧
        s.otherDies v p.die ∧ s.otherPorts v p ∧ s.memoryKept v ∧ s.onlyChanges v [.dies, .links]))

/-- A drain marker counts once on an input channel of its tile that is no back channel. A drained tile with all its markers, in a drain wave,
forwards one marker, KIND 2, on every output channel, once. A configuration packet enters the buffer of 64, or waits while it is full and
the tile is not drained. A drained tile that holds its whole configuration changes over: T0 is 0, channels and credits are the new plan's,
no poison is marked, and its registers and SRAM keep their values. -/
def Obligations.DrainMarkersAndConfiguration : Prop :=
  ∀ (s : State) (d : DieId) (tile : Fin 1024), d.isCompute = true → let x := (s.die d).tile tile.val
    (∀ ch : Nat, (s.fieldOf d).isSome = true → ∃ v, exec (.drainMarkerArrival d tile ch) s = .next v ∧
      (((v.die d).tile tile.val).markers = if x.ins.any (fun c => c.channel = ch && !c.back) && !x.markers.contains ch then
        x.markers ++ [ch] else x.markers) ∧ ((v.die d).tile tile.val).queue = x.queue ∧ s.otherDies v d ∧ s.memoryKept v ∧
      s.onlyChanges v [.dies]) ∧
    (∀ f, s.fieldOf d = some f → (s.field f).waving = true → x.marked = true → x.empty = true → x.markersSent = false →
      ∃ v new, exec (.tileDrained d tile) s = .next v ∧ ((v.die d).tile tile.val).drained = true ∧
        ((v.die d).tile tile.val).markersSent = true ∧ (v.die d).mesh = (s.die d).mesh ++ new ∧ new.length = x.outs.length ∧
        (∀ m ∈ new, m.packet.kind = 2 ∧ m.packet.src = tile.val) ∧ s.otherDies v d ∧ s.memoryKept v ∧ s.onlyChanges v [.dies]) ∧
    ((x.markersSent = true ∨ x.marked = false ∨ x.empty = false) → exec (.tileDrained d tile) s = .next s) ∧
    (∀ p : Packet, (s.fieldOf d).isSome = true → ∃ v, exec (.configPacketArrival d tile p) s = .next v ∧
      s.otherDies v d ∧ s.memoryKept v ∧ s.onlyChanges v [.dies] ∧
      ((v.die d).tile tile.val).cfgPoisoned = (x.cfgPoisoned || p.poison) ∧
      ((x.cfg.length < 64 ∨ x.empty = true) → ((v.die d).tile tile.val).cfg = x.cfg ++ [p] ∧
        ((v.die d).tile tile.val).cfgWaiting = x.cfgWaiting) ∧
      (64 ≤ x.cfg.length → x.empty = false → ((v.die d).tile tile.val).cfg = x.cfg ∧
        ((v.die d).tile tile.val).cfgWaiting = x.cfgWaiting ++ [p])) ∧
    (∀ f w p b, s.fieldOf d = some f → (s.field f).switch = some w → (s.field f).incoming = some p → p.blockOf d = some b →
      b.tiles.any (·.tile = tile.val) = true → s.cfgCount (s.field f) p b tile.val ≤ x.cfg.length + x.cfgWaiting.length →
      x.empty = true → (w.form = .tailwater → x.configured = true → x.drained = true) → x.switched = false →
      ∃ v, exec (.tileSwitch d tile) s = .next v ∧ let y := (v.die d).tile tile.val
        y.switched = true ∧ y.configured = true ∧ y.t0 = 0 ∧ y.ins = p.insOf d tile.val ∧ y.outs = p.outsOf d tile.val ∧
        (∀ c ∈ y.outs, c.credits = c.bound) ∧ y.v = x.v ∧ y.s = x.s ∧ y.sram = x.sram ∧ y.poisonV = [] ∧ y.poisonS = [] ∧
        y.poisonLines = [] ∧ y.cfg = [] ∧ s.otherDies v d ∧ s.memoryKept v ∧ s.onlyChanges v [.dies])

/-! ### The clock of account -/

/-- An end of a link in UP sends a mark; a mark from the parent of an AGREED die within the limits gives the die its DEPTH, root offset and
error, and leaves it AGREED with its tally as it was; a mark on a link that is not UP changes nothing. A slew step moves the phase by
1/128 tick against the error, at most every 512 ticks. A parent silent for 8,192 ticks leaves the die in HOLDOVER with its DEPTH. -/
def Obligations.MarksSlewsAndSilence : Prop :=
  ∀ (s : State) (p : PortId) (t : Nat), let u := s.clock t; let d := p.die; let y := (u.die d).tally
    (((u.port p).link.st ≠ .up ∨ u.dieUp d = false) → exec (.tallyMarkSend p t) s = .next u ∧
      ∀ m frac, exec (.tallyMark p m frac t) s = .next u) ∧
    ((u.port p).link.st = .up → u.dieUp d = true →
      (∃ v, exec (.tallyMarkSend p t) s = .next v ∧ (v.port p).pin.lastSent = u.now ∧
        (v.port p).side.lc = (u.port p).side.lc ++ [{ type := 0x01, body := markBytes (u.markOf p) }] ∧ u.otherPorts v p ∧
        u.onlyChanges v [.links]) ∧
      (∀ (m : Mark) (frac : Fin 128),
        let e : Int := ((y.value.toNat : Int) * 128 + frac.val) - ((m.tally.toNat : Int) + (u.port p).link.pinned) * 128
        y.st = .agreed → y.parent = some p.port → u.isRoot d = false → (u.port p).link.foreign = false → (u.port p).pin.lost = false →
        m.pinned = (u.port p).link.pinned → m.state = 1 → y.epoch.toNat ≤ m.epoch.toNat → m.depth < 20 →
        (∀ z ∈ y.seen, m.depth < z.2.mark.depth + 2) → e.natAbs ≤ 256 → (e + m.rootOfs).natAbs ≤ 96 →
        ∃ v, exec (.tallyMark p m frac t) s = .next v ∧ let z := (v.die d).tally
          z.st = .agreed ∧ z.parent = some p.port ∧ z.depth = m.depth + 1 ∧ z.err = e ∧ z.rootOfs = e + m.rootOfs ∧
          z.epoch = m.epoch ∧ z.leader = m.leader ∧ z.lastMark = u.now ∧ z.value = y.value ∧ z.phase = y.phase ∧ u.otherDies v d ∧
          u.memoryKept v)) ∧
    ((y.err.natAbs ≤ 1 ∨ y.parent = none ∨ u.now < y.lastSlew + 512 ∨ y.counting = false) → exec (.slewStep d t) s = .next u) ∧
    (1 < y.err.natAbs → y.parent ≠ none → y.lastSlew + 512 ≤ u.now → y.counting = true →
      ∃ v, exec (.slewStep d t) s = .next v ∧ let z := (v.die d).tally
        (0 < y.err → z.phase = y.phase - 1 ∧ z.err = y.err - 1) ∧ (y.err < 0 → z.phase = y.phase + 1 ∧ z.err = y.err + 1) ∧
        z.lastSlew = u.now ∧ z.value = y.value ∧ z.st = y.st ∧ u.otherDies v d ∧ u.onlyChanges v [.dies]) ∧
    (y.st = .agreed → y.parent ≠ none → u.isRoot d = false →
      (u.now < y.lastMark + 8192 → exec (.parentSilence d t) s = .next u) ∧
      (y.lastMark + 8192 ≤ u.now → ∃ v, exec (.parentSilence d t) s = .next v ∧ let z := (v.die d).tally
        z.st = .holdover ∧ z.parent = none ∧ z.depth = y.depth ∧ z.value = y.value ∧ z.counting = y.counting ∧ z.holdSince = u.now ∧
        u.otherDies v d ∧ u.onlyChanges v [.dies]))

/-- In HOLDOVER: after 163,840 ticks a parent as deep or deeper may be taken; after 172,032 leadership is treated as vacant and a tray whose
oscillator is good claims it; 12 ms later the die enters FAULT. A living leader answers a claim, another tray takes it into the window, with its own
where leadership is vacant for it, and on a living leader's answer withdraws and follows that leader's serial and EPOCH;
the window closed after 10 ms, the lowest serial leads: this tray with a new epoch at its root, or another, with this tray's root gone.
The root's tally starts at 0 on the first running I/O die placed and powered, which serves the mailbox too. A reference input that fails
gives way to the next healthy one, or leaves the cleaner in holdover; a leader that loses its own oscillator leads no more. -/
def Obligations.HoldoverLeadersAndRoots : Prop :=
  ((∀ (s : State) (d : DieId) (t : Nat), let u := s.clock t; let y := (u.die d).tally
      y.st = .holdover → y.parent = none →
      (y.deeperOk = false →
        (u.now < y.holdSince + 163840 → exec (.holdoverDescendantEnd d t) s = .next u) ∧
        (y.holdSince + 163840 ≤ u.now → (∀ z ∈ y.seen, z.2.when_ + 8192 ≤ u.now) → ∃ v,
          exec (.holdoverDescendantEnd d t) s = .next v ∧ (v.die d).tally = { y with deeperOk := true } ∧ u.otherDies v d ∧
          u.onlyChanges v [.dies])) ∧
      (y.vacantSince = none →
        (u.now < y.holdSince + 172032 → exec (.holdoverVacant d t) s = .next u) ∧
        (y.holdSince + 172032 ≤ u.now → ∃ v, exec (.holdoverVacant d t) s = .next v ∧
          (v.die d).tally = { y with vacantSince := some u.now, oldEpoch := y.epoch } ∧
          (u.cleaner.oscillatorOk = true → u.leader.lead = false → v.leader.vacant = true ∧ u.serial ∈ v.leader.claims ∧
            v.leader.windowFrom = some (u.leader.windowFrom.getD u.now)) ∧
          (u.cleaner.oscillatorOk = false → v.leader = u.leader ∧ v.effects = u.effects) ∧ u.otherDies v d ∧ u.memoryKept v)) ∧
      (∀ n, y.vacantSince = some n →
        (u.now < n + 12000000 → exec (.holdoverFault d t) s = .next u) ∧
        (n + 12000000 ≤ u.now → ∃ v, exec (.holdoverFault d t) s = .next v ∧ (v.die d).tally.st = .fault ∧
          (v.die d).tally.value = y.value ∧ (v.die d).tally.vacantSince = none ∧ u.memoryKept v))) ∧
    (∀ (s : State) (serial : Dword) (t : Nat), let u := s.clock t
      (u.leader.lead = true → (∀ e, exec (.leaderClaim ⟨serial, some e⟩ t) s = .next u) ∧ ∃ v, exec (.leaderClaim ⟨serial, none⟩ t) s = .next v ∧
        v.effects = u.effects ++ [.leaderAnswer u.serial u.leader.epoch] ∧ v.leader.claims = u.leader.claims ∧
        u.onlyChanges v [.effects, .leader]) ∧
      (u.leader.lead = false → (∃ v, exec (.leaderClaim ⟨serial, none⟩ t) s = .next v ∧ serial ∈ v.leader.claims ∧
        v.leader.windowFrom = some (u.leader.windowFrom.getD u.now) ∧ v.leader.lead = u.leader.lead ∧
        (u.leader.vacant = true → u.mayClaim = true → u.serial ∈ v.leader.claims) ∧ u.onlyChanges v [.effects, .leader]) ∧
        (∀ e, ∃ v, exec (.leaderClaim ⟨serial, some e⟩ t) s = .next v ∧ v.leader.serial = serial ∧ v.leader.epoch = e ∧
          v.leader.vacant = false ∧ u.serial ∉ v.leader.claims ∧ (serial = u.leader.serial → u.onlyChanges v [.leader]) ∧
          u.onlyChanges v [.leader, .ports, .wmReply, .waiting, .serving, .scopes])) ∧
      (∀ w n, u.leader.lead = false → u.leader.windowFrom = some n →
        (u.now < n + 10000000 → exec (.leaderClaimWindowClose t) s = .next u) ∧
        (n + 10000000 ≤ u.now → w ∈ u.leader.claims → (∀ c ∈ u.leader.claims.map BitVec.toNat, w.toNat ≤ c) →
          ∃ v, exec (.leaderClaimWindowClose t) s = .next v ∧ v.leader.serial = w ∧ v.leader.windowFrom = none ∧ v.leader.claims = [] ∧
            (w = u.serial → ∀ r, u.pickRoot = some r → v.leader.lead = true ∧ v.leader.root = some r ∧
              v.leader.epoch = u.newestEpoch + 1 ∧ v.serving = some r.pkg ∧ (v.die r).tally.depth = 0 ∧
              (v.die r).tally.st = .agreed) ∧
            (w ≠ u.serial → v.leader.lead = false ∧ v.leader.root = none ∧ v.leader.epoch = u.leader.epoch) ∧ u.memoryKept v)))) ∧
  (∀ (s : State) (t : Nat), let u := s.clock t
      ((u.leader.lead = false ∨ u.leader.root ≠ none ∨ u.pickRoot = none) → exec (.rootTallyStart t) s = .next u) ∧
      (∀ r, u.leader.lead = true → u.leader.root = none → u.pickRoot = some r → ∃ v, exec (.rootTallyStart t) s = .next v ∧
        (v.die r).tally.value = 0 ∧ (v.die r).tally.counting = true ∧ (v.die r).tally.st = .agreed ∧ (v.die r).tally.depth = 0 ∧
        (v.die r).tally.leader = u.serial ∧ v.leader.root = some r ∧ v.serving = some r.pkg ∧ u.otherDies v r ∧ u.memoryKept v) ∧
      (∀ n rest, u.cleaner.standby = n :: rest → ∃ v, exec (.referenceInputFail t) s = .next v ∧ v.cleaner.input = n ∧
        v.cleaner.standby = rest ∧ v.cleaner.holdover = false) ∧
      (u.cleaner.standby = [] → ∃ v, exec (.referenceInputFail t) s = .next v ∧ v.cleaner.holdover = true ∧
        v.cleaner.input = u.cleaner.input) ∧
      (u.cleaner.input = 0 → u.leader.lead = true → ∃ v, exec (.referenceInputFail t) s = .next v ∧ v.leader.lead = false ∧
        v.leader.root = none ∧ v.cleaner.oscillatorOk = false ∧
        (∀ r, u.leader.root = some r → (v.die r).tally.st = .holdover ∧ (v.die r).tally.value = (u.die r).tally.value)) ∧
      ((u.cleaner.input ≠ 0 ∨ u.leader.lead = false) → ∃ v, exec (.referenceInputFail t) s = .next v ∧ v.leader = u.leader ∧
        u.onlyChanges v [.links, .cleaner]))

/-! ### Training -/

/-- Training goes on state by state: in its state, on a running die and in time, each result enters the next state with that state's timer
from now. A state's timer that expires fails the attempt: DOWN with a back-off, or FAILED after the third in a row. The back-off of 1 s
over, a port that may train is in DETECT again. A raw latency within 64 ticks below the pinned one brings the port UP, another fails with
E_LINK_PIN. -/
def Obligations.TrainingStatesFollow : Prop :=
  ∀ (s : State) (p : PortId) (t : Nat), let u := s.clock t; let l := (u.port p).link
    (l.timer = none → exec (.trainingTimeout p t) s = .next u) ∧
    (∀ n, l.timer = some n →
      (u.now < l.timerFrom + n → exec (.trainingTimeout p t) s = .next u) ∧
      (l.timerFrom + n ≤ u.now → ∃ v, exec (.trainingTimeout p t) s = .next v ∧ (v.port p).link.timer = none ∧
        (v.port p).link.last = 0x0510 ∧ (l.attempts < 2 → (v.port p).link.st = .down ∧ (v.port p).link.backoffFrom = some u.now ∧
          (v.port p).link.attempts = l.attempts + 1) ∧
        (2 ≤ l.attempts → (v.port p).link.st = .failed ∧ (v.port p).link.backoffFrom = none) ∧ u.otherPorts v p ∧ u.memoryKept v)) ∧
    (∀ n, l.backoffFrom = some n → l.st = .down →
      (u.now < n + 1000000000 → exec (.trainingBackoffEnd p t) s = .next u) ∧
      (n + 1000000000 ≤ u.now → (u.port p).mayTrain = true → u.linksAllowed p = true → ∃ v,
        exec (.trainingBackoffEnd p t) s = .next v ∧ (v.port p).link.st = .detect ∧ (v.port p).link.backoffFrom = none ∧
        u.otherPorts v p ∧ u.onlyChanges v [.links])) ∧
    (u.dieUp p.die = true → (∀ n, l.timer = some n → u.now ≤ l.timerFrom + n) →
      (l.st = .detect → u.adapter p ≠ profileOf p → exec (.detectAnswer p t) s = .next u) ∧
      (l.st = .detect → u.adapter p = profileOf p → (cageOf p = none ∨ ∃ m, l.cable = some m ∧ m.passive = true ∧ m.readable = true) → ∃ v,
        exec (.detectAnswer p t) s = .next v ∧ v.inTraining p .clock ∧ u.otherPorts v p ∧ u.onlyChanges v [.links]) ∧
      (l.st = .clock → ∃ v, exec (.clockLocked p t) s = .next v ∧ (v.port p).link.st = .equalise ∧
        (l.leader = true → v.inTraining p .equalise ∧ (v.port p).link.fetching = true) ∧ u.otherPorts v p ∧ u.onlyChanges v [.links]) ∧
      (l.st = .equalise → l.fetching = false →
        (∃ v, exec (.equaliseDone p true t) s = .next v ∧ v.inTraining p .repair ∧ u.otherPorts v p ∧
          (l.cold = true → (v.port p).lanes.eq = some u.free ∧ v.free = u.free + 1)) ∧
        (l.cold = true → exec (.equaliseDone p false t) s = .next u) ∧
        (l.cold = false → ∃ v, exec (.equaliseDone p false t) s = .next v ∧ (v.port p).link.cold = true ∧
          (v.port p).link.st = .equalise ∧ (v.port p).link.timer = some (coldTimer (profileOf p)) ∧ u.otherPorts v p)) ∧
      (l.st = .repair → ∀ maps bad,
        ((∀ k, k < 2 * (u.shape p).1 → (u.formMap p k (maps.getD k 0x03FF)
          ((bad.filter fun x => 2 * x.bundle + x.dir = k).map fun x => x.lane)) ≠ none) → ∃ v,
          exec (.repairDone p maps bad t) s = .next v ∧ v.inTraining p .align ∧ u.otherPorts v p ∧ u.memoryKept v) ∧
        ((∃ k, k < 2 * (u.shape p).1 ∧ (u.formMap p k (maps.getD k 0x03FF)
          ((bad.filter fun x => 2 * x.bundle + x.dir = k).map fun x => x.lane)) = none) → ∃ v,
          exec (.repairDone p maps bad t) s = .next v ∧ (v.port p).link.st = .failed ∧ (v.port p).link.last = 0x0511)) ∧
      (l.st = .align → ∀ a b, ∃ v, exec (.alignDone p a b t) s = .next v ∧ (v.port p).link.reversedLanes = a ∧
        (v.port p).link.reversedBundles = b ∧ v.inTraining p (if profileOf p = 0 ∧ l.kl2 = true then .pin else .config) ∧
        u.otherPorts v p ∧ u.onlyChanges v [.links]) ∧
      (l.st = .config → ∀ q, u.peerWrong p q = false →
        (profileOf p ≠ 0 → 2 ≤ q.gen → ∃ v, exec (.configDone p q t) s = .next v ∧ v.inTraining p .pin ∧
          (v.port p).link.heard = some q ∧ u.otherPorts v p ∧ u.onlyChanges v [.links]) ∧
        (profileOf p = 0 → u.bothKl2 p q = false → ∃ v, exec (.configDone p q t) s = .next v ∧ v.inTraining p .pin ∧
          (v.port p).link.kl2 = l.kl2 ∧ u.otherPorts v p ∧ u.onlyChanges v [.links]) ∧
        (profileOf p = 0 → u.bothKl2 p q = true → ∃ v, exec (.configDone p q t) s = .next v ∧
          v.inTraining p .clock ∧ (v.port p).link.kl2 = true ∧ u.otherPorts v p ∧ u.onlyChanges v [.links])) ∧
      (l.st = .pin → (∀ q, u.leaderEnd p = some q → (u.port q).link.st ≠ .pin) → ∀ trips, let raw := u.rawAt p trips
        let pinned := 128 * pinnedOf p l.kl2 l.cable
        (raw ≤ pinned → pinned ≤ raw + 8192 → ∃ v, exec (.pinDone p trips t) s = .next v ∧ (v.port p).link.st = .up ∧
          (v.port p).link.pad = (pinned : Int) - raw ∧ (v.port p).link.attempts = 0 ∧ (v.port p).side.synced = false ∧
          u.otherPorts v p ∧ u.memoryKept v) ∧
        ((pinned < raw ∨ raw + 8192 < pinned) → ∃ v, exec (.pinDone p trips t) s = .next v ∧ (v.port p).link.st ≠ .up ∧
          (v.port p).link.last = 0x0513 ∧ u.otherPorts v p ∧ u.memoryKept v))) ∧
    (u.inCarrier p.die = true → l.st = .pin → (∀ n, l.timer = some n → u.now ≤ l.timerFrom + n) → ∀ trips, ∃ v,
      exec (.pinDone p trips t) s = .next v ∧ (v.port p).link.st = .up ∧ (v.port p).link.rawLat = u.rawAt p trips ∧
        (v.port p).link.pad = 0 ∧ u.otherPorts v p ∧ u.onlyChanges v [.links])

/-- The answer to the request for a stored record starts the warm timer with its settings, and none, or no answer within 100 ms, the cold one.
A new record is kept, or EQ_WRITE_FAIL goes to the tray record and none is. A role swap is noted where the link may swap; a module put in
a cage is noted, and a FAILED port that may train is in DETECT. A window of errors that ends: a port at NORMAL whose counts meet a
QUARANTINE figure is in QUARANTINE, one that meets only a WATCH figure in WATCH, and one that meets none, with no baseline yet, only
starts its next window; QUARANTINE ends after 1,000 windows below every figure. A SLUICE that reaches a die of a field that runs on names
the earliest boundary known; one already past splits the field. -/
def Obligations.ModulesErrorLevelsAndSluices : Prop :=
  (∀ (s : State) (p : PortId) (t : Nat), let u := s.clock t; let l := (u.port p).link
      (l.st = .equalise → l.fetching = true → l.leader = true → u.wmUp = true → u.inCarrier p.die = false →
        u.now ≤ l.timerFrom + 100000000 →
        (∀ x, u.wm.eqRecs.find? (fun z => z.key = u.eqKey p) = some x → ∃ v, exec (.eqRecordAnswer p t) s = .next v ∧
          (v.port p).lanes.eq = x.settings ∧ (v.port p).link.cold = false ∧ (v.port p).link.timer = some (warmTimer (profileOf p)) ∧
          u.otherLinks v p) ∧
        (u.wm.eqRecs.find? (fun z => z.key = u.eqKey p) = none → ∃ v, exec (.eqRecordAnswer p t) s = .next v ∧
          (v.port p).link.cold = true ∧ (v.port p).link.timer = some (coldTimer (profileOf p)) ∧ u.otherLinks v p)) ∧
      (l.st = .equalise → l.fetching = true → l.leader = true →
        (u.now < l.timerFrom + 100000000 → exec (.eqFetchTimeout p t) s = .next u) ∧
        (l.timerFrom + 100000000 ≤ u.now → ∃ v, exec (.eqFetchTimeout p t) s = .next v ∧ (v.port p).link.cold = true ∧
          (v.port p).link.fetching = false ∧ (v.port p).link.timer = some (coldTimer (u.trainProfile p)) ∧ u.otherLinks v p)) ∧
      (l.eqOwed = true → u.wmUp = true →
        (∃ v, exec (.eqRecordStore p true t) s = .next v ∧ (v.port p).link.eqOwed = false ∧
          (⟨u.eqKey p, u.now, (u.port p).lanes.eq⟩ : EqRec) ∈ v.wm.eqRecs ∧ (u.wm.eqRecs.length ≤ 256 → v.wm.eqRecs.length ≤ 256) ∧
          u.otherPorts v p) ∧
        (∃ v, exec (.eqRecordStore p false t) s = .next v ∧ (∀ z ∈ v.wm.eqRecs, z.key ≠ u.eqKey p) ∧
          (∀ z ∈ u.wm.eqRecs, z.key ≠ u.eqKey p → z ∈ v.wm.eqRecs) ∧ (v.port p).link.eqOwed = false ∧
          v.trouble.summary.getLsbD 15 = true)) ∧
      ((l.st ≠ .up ∨ profileOf p = 0) → ∀ b, exec (.roleSwap ⟨p, b⟩ t) s = .next u) ∧
      (l.st = .up → profileOf p ≠ 0 → wired p = none → l.swapAsked = none → ∃ v, exec (.roleSwap ⟨p, false⟩ t) s = .next v ∧
        (v.port p).link.swapped = !l.swapped ∧ (v.port p).link.st = .up ∧ u.otherPorts v p ∧ u.onlyChanges v [.links]) ∧
      (∀ (c : Fin 16) (m : Option Module), cagePort u.span.num c = p → ∃ v, exec (.modulePresenceChange c m t) s = .next v ∧
        (v.port p).link.cable = m ∧ u.otherPorts v p ∧ u.onlyChanges v [.links] ∧
        (l.st ≠ .failed → (v.port p).link.st = l.st) ∧
        (l.st = .failed → (u.port p).mayTrain = true → u.linksAllowed p = true → (v.port p).link.st = .detect ∧
          (v.port p).link.attempts = 0))) ∧
  ((∀ (s : State) (p : PortId) (t : Nat), let u := s.clock t; let e := (u.port p).err
      let corr := (e.corrBy.map (·.2)).foldl max 0
      (e.level = .normal → e.overQuarantine corr = true → ∃ v, exec (.errorWindowEnd p t) s = .next v ∧
        (v.port p).err.level = .quarantine ∧ (v.port p).err.winFail = 0 ∧ (v.port p).err.lastFail = e.winFail ∧ u.otherPorts v p ∧
        u.memoryKept v) ∧
      (e.level = .normal → e.overQuarantine corr = false → e.overWatch corr = true → ∃ v, exec (.errorWindowEnd p t) s = .next v ∧
        (v.port p).err.level = .watch ∧ (v.port p).err.winFail = 0 ∧ (v.port p).err.lastFail = e.winFail ∧ u.otherPorts v p ∧
        u.memoryKept v) ∧
      (e.level = .normal → e.overQuarantine corr = false → e.overWatch corr = false → e.upWindows < 1024 →
        exec (.errorWindowEnd p t) s = .next (u.setPort p
          { u.port p with err := e.closeWindow (decide ((u.port p).link.st = .up)) (total (e.corrBy.map (·.2))) corr })) ∧
      (e.level = .quarantine → e.overQuarantine corr = false → e.overWatch corr = false → 999 ≤ e.below → ∃ v,
        exec (.errorWindowEnd p t) s = .next v ∧ (v.port p).err.level = .normal ∧ u.otherPorts v p ∧ u.memoryKept v)) ∧
    (∀ (s : State) (d o : DieId) (f : Fin 8) (port b t : Nat), let u := s.clock t; let x := u.field f
      let k : ActedKey := { die := o.key, code := 0x51 + 256 * fnum f + 65536 * port, tally := b }
      (u.actedOn d k = true → ∃ v, exec (.sluice d f port b o t) s = .next v ∧ v.fields = u.fields ∧ u.onlyChanges v [.dies]) ∧
      (u.actedOn d k = false → x.live = true → x.dies.contains d = true → x.frozen = false →
        (u.leadTally f ≤ b → ∃ v, exec (.sluice d f port b o t) s = .next v ∧ v.actedOn d k = true ∧
          v.field f = x.holdSluice d b ∧ (∃ n, (v.field f).sluiceAt = some n ∧ n ≤ b) ∧ u.otherFields v f ∧
          u.memoryKept v) ∧
        (b < u.leadTally f → ∃ v, exec (.sluice d f port b o t) s = .next v ∧ v.actedOn d k = true ∧ (v.field f).split = true ∧
          (v.field f).frozen = false ∧ (∃ n, (v.field f).sluiceAt = some n) ∧ u.memoryKept v))))

/-! ### Lanes, the loss of a link, Dry -/

/-- A dead receive lane of a port in UP with a spare to take its place is requested for substitution at a wheel boundary; in ALIGN, CONFIG or
PIN the attempt fails, with E_LINK_LANE and a soft retirement while a lane stands by, else with E_LINK_REPAIR. At the switch boundary the
transmitter whose copy came 16 ticks before it, and the receiver a latency later, retire the lanes with source 2. A port in UP that loses
its clock pair, or goes down for a cause, is no longer UP, counts one DOWN and trains. -/
def Obligations.LanesAndTheLossOfALink : Prop :=
  ∀ (s : State) (p : PortId) (t : Nat), let u := s.clock t; let y := u.port p
    (∀ l : Lane, l.dir = 1 → l.bundle < bundlesOf p → l.lane < dataLanes p + spareLanes p →
      (∀ e ∈ mapLanes (u.laneMap p (2 * l.bundle + 1)), e.1 ≠ l.lane) →
      (y.link.st = .up → y.lanes.rx = none → (mapLanes (u.laneMap p (2 * l.bundle + 1))).length < spareLanes p → ∃ v,
        exec (.laneSilent p l t) s = .next v ∧
        (v.port p).lanes.rx = some { bundle := l.bundle, laneA := l.lane, laneB := 31, boundary := u.switchWheel p } ∧
        (v.port p).lanes.maps = y.lanes.maps ∧ (v.port p).link = y.link ∧ u.otherPorts v p ∧ u.onlyChanges v [.links]) ∧
      ((y.link.st = .align ∨ y.link.st = .config ∨ y.link.st = .pin) →
        (0 < u.standby p (2 * l.bundle + 1) → ∃ v, exec (.laneSilent p l t) s = .next v ∧ (v.port p).link.last = 0x051A ∧
          ((v.port p).link.st = .down ∨ (v.port p).link.st = .failed) ∧
          (u.inCarrier p.die = false → ∃ x ∈ v.wm.soft, x.key = u.softKey p ∧ x.map = 2 * l.bundle + 1 ∧ x.lane = l.lane) ∧
          u.otherPorts v p ∧ u.memoryKept v) ∧
        (u.standby p (2 * l.bundle + 1) = 0 → ∃ v, exec (.laneSilent p l t) s = .next v ∧ (v.port p).link.last = 0x0511 ∧
          (v.port p).link.st = .failed ∧ v.wm = u.wm ∧ u.otherPorts v p ∧ u.memoryKept v))) ∧
    (∀ r, y.lanes.tx = some r → y.link.st = .up →
      (u.tallyOf p.die < wheelStart p y.link.kl2 r.boundary → exec (.substitutionTxSwitch p t) s = .next u) ∧
      (wheelStart p y.link.kl2 r.boundary ≤ u.tallyOf p.die → ∃ v, exec (.substitutionTxSwitch p t) s = .next v ∧
        (v.port p).lanes.tx = none ∧ u.otherPorts v p ∧ u.onlyChanges v [.links] ∧
        (r.copyAt + 16 ≤ wheelStart p y.link.kl2 r.boundary → v.laneMap p (2 * r.bundle) =
          mapEntry (unionLanes (mapLanes (u.laneMap p (2 * r.bundle))) (r.lanes.map fun l => (l, 2)))) ∧
        (wheelStart p y.link.kl2 r.boundary < r.copyAt + 16 → (v.port p).lanes.maps = y.lanes.maps))) ∧
    (∀ r, y.lanes.rx = some r → y.link.st = .up →
      (u.tallyOf p.die < wheelStart p y.link.kl2 r.boundary + y.link.pinned → ∀ b, exec (.substitutionRxSwitch ⟨p, b⟩ t) s = .next u) ∧
      (wheelStart p y.link.kl2 r.boundary + y.link.pinned ≤ u.tallyOf p.die → (∀ q, y.link.mate = some q → q.die.tray ≠ u.span.num) →
        (∃ v, exec (.substitutionRxSwitch ⟨p, false⟩ t) s = .next v ∧ (v.port p).lanes.rx = none ∧ v.laneMap p (2 * r.bundle + 1) =
            mapEntry (unionLanes (mapLanes (u.laneMap p (2 * r.bundle + 1))) (r.lanes.map fun l => (l, 2))) ∧
          u.otherPorts v p ∧ u.memoryKept v) ∧
        exec (.substitutionRxSwitch ⟨p, true⟩ t) s = .next (u.onPort p fun y =>
          { y with lanes := { y.lanes with rx := some { r with boundary := u.switchWheel p } } }))) ∧
    (y.link.st ≠ .up → exec (.clockPairLoss p t) s = .next u ∧ ∀ c, exec (.linkDown p c t) s = .next u) ∧
    (y.link.st = .up →
      (profileOf p = 2 → exec (.clockPairLoss p t) s = .next u) ∧
      (profileOf p ≠ 2 → ∃ v, exec (.clockPairLoss p t) s = .next v ∧ u.wentDown v p 0) ∧
      (∀ c, ∃ v, exec (.linkDown p c t) s = .next v ∧ u.wentDown v p (downStatus c)))

/-- Dry: an end that may enter requests it; a request is acknowledged where the end may enter, and refused where not; the acknowledged
requester sends its sequences, a refused one returns to UP; the commit point passed, the link is Dry at the end; a wake begins its exit,
or stands until entry is complete; the exit done in order, the port is UP and says REPLAY_SYNC. -/
def Obligations.DryEntryAndExit : Prop :=
  ∀ (s : State) (p : PortId) (t : Nat), let u := s.clock t; let y := u.port p
    (y.link.st = .up → y.dry.phase = .none_ →
      (u.dryOk p = true → ∃ v, exec (.dryIdleElapsed p t) s = .next v ∧ (v.port p).dry.phase = .requested ∧
        (v.port p).side.lc = y.side.lc ++ [{ type := 0x04 }] ∧ u.otherPorts v p ∧ u.onlyChanges v [.links]) ∧
      (u.dryOk p = false → exec (.dryIdleElapsed p t) s = .next u) ∧
      (u.dryOk p = true → ∃ v, exec (.dryReq p t) s = .next v ∧ (v.port p).dry.phase = .answered ∧
        (v.port p).side.lc = y.side.lc ++ [{ type := 0x05 }] ∧ u.otherPorts v p ∧ u.onlyChanges v [.links]) ∧
      (u.dryOk p = false → ∃ v, exec (.dryReq p t) s = .next v ∧ (v.port p).dry.phase = .none_ ∧
        (v.port p).side.lc = y.side.lc ++ [{ type := 0x06 }] ∧ u.otherPorts v p ∧ u.onlyChanges v [.links])) ∧
    (y.link.st = .up → y.dry.phase = .requested →
      (∃ v, exec (.dryAck p t) s = .next v ∧ (v.port p).dry.phase = .sequences ∧ (v.port p).link = y.link ∧ u.otherPorts v p ∧
        u.onlyChanges v [.links]) ∧
      (∃ v, exec (.dryNak p t) s = .next v ∧ (v.port p).dry.phase = .none_ ∧ (v.port p).link = y.link ∧ u.otherPorts v p ∧
        u.onlyChanges v [.links]) ∧
      (∀ c, ∃ v, exec (.wake p c t) s = .next v ∧ (v.port p).dry.phase = .none_ ∧ u.otherPorts v p ∧ u.onlyChanges v [.links])) ∧
    (y.dry.phase = .sequences → ∃ v, exec (.dryCommit p t) s = .next v ∧ (v.port p).dry.phase = .committed ∧
      (v.port p).link = y.link ∧ u.otherPorts v p ∧ u.onlyChanges v [.links]) ∧
    (y.dry.phase ≠ .sequences → exec (.dryCommit p t) s = .next u) ∧
    (y.link.st = .up → (y.dry.phase = .committed ∨ y.dry.phase = .answered) → ∃ v, exec (.dryEntered p t) s = .next v ∧
      (v.port p).link.st = .dry ∧ (v.port p).dry.phase = (if y.dry.wakeAfter = true then .exiting else .dry) ∧
      (v.port p).side.synced = false ∧ u.otherPorts v p ∧ u.memoryKept v) ∧
    (y.link.st = .dry → y.dry.phase = .dry → ∀ c, ∃ v, exec (.wake p c t) s = .next v ∧ (v.port p).dry.phase = .exiting ∧
      (v.port p).link.st = .dry ∧ u.otherPorts v p ∧ u.onlyChanges v [.links]) ∧
    (y.link.st = .up → y.dry.phase = .committed → ∀ c, ∃ v, exec (.wake p c t) s = .next v ∧ (v.port p).dry.phase = .committed ∧
      (v.port p).dry.wakeAfter = true ∧ u.otherPorts v p ∧ u.onlyChanges v [.links]) ∧
    ((y.link.st ≠ .dry ∨ y.dry.phase ≠ .exiting) → ∀ l b, exec (.dryExitDone p l b t) s = .next u) ∧
    (y.link.st = .dry → y.dry.phase = .exiting →
      (∀ k, k < 2 * bundlesOf p → (mapLanes (u.laneMap p k)).length ≤ spareLanes p) →
      (∃ v, exec (.dryExitDone p [] true t) s = .next v ∧ (v.port p).link.st = .up ∧ (v.port p).dry.phase = .none_ ∧
        (v.port p).side.lc = y.side.lc ++ [{ type := 0x03, body := le 2 y.side.expected.toNat ++ le 2 y.side.next.toNat }] ∧
        (v.port p).lanes = y.lanes ∧ u.otherPorts v p ∧ u.memoryKept v) ∧
      (∃ v, exec (.dryExitDone p [] false t) s = .next v ∧ u.wentDown v p 0x0513))

/-! ### Flits -/

/-- A planned position of a field's slot set in force carries the first or second flit of its channel's packet from the egress entries, poison
where no packet waits, idle where no channel uses it. A side position carries an alarm flit first, then link control, a retransmission, a
new sequenced flit, an idle flit: a sequenced flit takes the next number and is kept until acknowledged. -/
def Obligations.PositionsCarryFlits : Prop :=
  (∀ (s : State) (p : PortId) (b : Nat) (k : Fin 256), let y := s.port p
    ((y.link.st ≠ .up ∨ y.link.kl2 = false ∨ bundlesOf p ≤ b ∨ (s.slotField p k.val = none ∧ s.slotHeld p k.val = false)) →
      exec (.plannedPositionSend p b k) s = .next s) ∧
    (y.link.st = .up → y.link.kl2 = true → b < bundlesOf p →
      (s.slotField p k.val = none → s.slotHeld p k.val = true → exec (.plannedPositionSend p b k) s =
        .next (s.sendPlanned p b k.val 7 false 0 (idlePayload y.side.ack))) ∧
      (∀ f n, s.slotField p k.val = some f → (s.field f).setNow = some n →
        ((s.field f).positionChan p n b k.val 1 = none → exec (.plannedPositionSend p b k) s =
          .next (s.sendPlanned p b k.val 7 false 0 (idlePayload y.side.ack))) ∧
        (∀ c first, (s.field f).positionChan p n b k.val 1 = some (c, first) →
          (∃ q ∈ s.linkEnds p, (s.port q).link.forceInForce (s.field f).stepStart = true) →
            exec (.plannedPositionSend p b k) s = .next (s.sendPlanned p b k.val 7 (!first) (fnum f) (poisonPayload 3))) ∧
        (∀ c first, (s.field f).positionChan p n b k.val 1 = some (c, first) →
          (∀ q ∈ s.linkEnds p, (s.port q).link.forceInForce (s.field f).stepStart = false) →
          ((∀ e ∈ y.planned.egress, ¬(e.packet.dest = c.dst ∧ e.packet.channel = c.channel ∧ e.packet.src = c.src)) →
            exec (.plannedPositionSend p b k) s = .next (if (s.field f).waving = true then
              s.sendPlanned p b k.val 7 false 0 (idlePayload y.side.ack)
              else s.sendPlanned p b k.val 7 (!first) (fnum f) (poisonPayload 2))) ∧
          (∀ e rest, y.planned.egress = e :: rest → e.packet.dest = c.dst → e.packet.channel = c.channel → e.packet.src = c.src →
            (s.field f).mayCross e.packet = true → s.fieldOf p.die = some f →
            (first = true → ∃ v, exec (.plannedPositionSend p b k) s = .next v ∧
              (v.port p).planned.egress = { e with half := true } :: rest ∧ (v.port p).planned.sent = some ⟨b, k.val,
                wireFlit (profileOf p) true (flitHeader 0 false false (s.repairField p) k.val (fnum f))
                  (le 8 (meshHeader e.packet) ++ slice (le 64 e.packet.payload.toNat) 0 50)⟩ ∧
              s.otherPorts v p ∧ s.onlyChanges v [.links]) ∧
            (first = false → e.half = true → ∃ v, exec (.plannedPositionSend p b k) s = .next v ∧
              (v.port p).planned.egress = rest ∧ (v.port p).planned.sent = some ⟨b, k.val,
                wireFlit (profileOf p) true (flitHeader 0 true false (s.repairField p) k.val (fnum f))
                  (slice (le 64 e.packet.payload.toNat) 50 14)⟩ ∧
              s.otherPorts v p ∧ s.memoryKept v)))))) ∧
  (∀ (s : State) (p : PortId) (b : Nat) (k : Fin 256) (t : Nat), let u := s.clock t; let y := u.port p
    ((y.link.st ≠ .up ∨ bundlesOf p ≤ b ∨ u.slotHeld p k.val = true ∨ u.dieUp p.die = false) →
      exec (.sidePositionSend p b k t) s = .next u) ∧
    (y.link.st = .up → b < bundlesOf p → u.slotHeld p k.val = false → u.dieUp p.die = true →
      (∀ z, y.sideOpen = true → (y.nextAlarm = some z ∨
          (y.nextAlarm = none ∧ y.side.lc = [] ∧ y.side.replayAt = none ∧ y.nextNew = some z)) →
        ∃ v, exec (.sidePositionSend p b k t) s = .next v ∧ (v.port p).side.next = y.side.next + 1 ∧
          (v.port p).side.unacked = y.side.unacked ++ [⟨y.side.next, z, 1⟩] ∧ (v.port p).side.hold = y.side.hold.erase z ∧
          (v.port p).side.expected = y.side.expected ∧ (v.port p).side.ackOwed = false ∧ u.otherPorts v p ∧ u.memoryKept v) ∧
      (∀ m rest, (y.sideOpen = false ∨ y.nextAlarm = none) → y.side.lc = m :: rest → ∃ v,
        exec (.sidePositionSend p b k t) s = .next v ∧ (v.port p).side.lc = rest ∧ (v.port p).side.next = y.side.next ∧
          (v.port p).side.unacked = y.side.unacked ∧ u.otherPorts v p ∧ u.onlyChanges v [.links]) ∧
      (∀ q i z, y.sideOpen = true → y.nextAlarm = none → y.side.lc = [] → y.side.replayAt = some q →
        y.side.unacked.findIdx? (fun z => z.seq = q) = some i → y.side.unacked[i]? = some z → z.sends ≤ 32 → ∃ v,
        exec (.sidePositionSend p b k t) s = .next v ∧ (v.port p).side.unacked = y.side.unacked.set i { z with sends := z.sends + 1 } ∧
          NMap.get (v.port p).err.cnt 5 0 = satAdd 0xFFFFFFFF (NMap.get y.err.cnt 5 0) 1 ∧ u.otherPorts v p ∧ u.memoryKept v) ∧
      ((y.sideOpen = false ∨ (y.nextAlarm = none ∧ y.side.replayAt = none ∧ y.nextNew = none)) → y.side.lc = [] →
        exec (.sidePositionSend p b k t) s = .next (u.sendSide p b k.val 7 false false 0 (idlePayload y.side.ack)))))

/-- What a position brings: a planned position delivers inside the die a good flit of its field as it came, and poison with cause 0x04 on a
link that is not UP, counted; a side flit with the number expected is delivered and the next one expected, one behind is discarded, a
failed one is counted and draws a NAK. -/
def Obligations.FlitsAreDelivered : Prop :=
  ∀ (s : State) (p : PortId) (b : Nat) (k : Fin 256) (rx : Rx) (t : Nat), let u := s.clock t; let y := u.port p
    let c := checkFlit (profileOf p) y.link.kl2 rx
    ((u.dieUp p.die = false ∨ bundlesOf p ≤ b ∨ (u.slotFieldAt p k.val (u.tallyOf p.die - y.link.pinned) = none ∧
        (u.slotHeld p k.val = false ∨ y.link.st ≠ .up))) → exec (.plannedFlitReceive p b k rx t) s = .next u) ∧
    (u.dieUp p.die = true → b < bundlesOf p → u.slotFieldAt p k.val (u.tallyOf p.die - y.link.pinned) = none →
      u.slotHeld p k.val = true → y.link.st = .up → c.ok = true → misplaced c k.val rx = false → rx.quiet = [] →
      c.repair / 8 % 32 = 31 → c.cls = 7 → ∃ v, exec (.plannedFlitReceive p b k rx t) s = .next v ∧
        (v.port p).planned.delivered = y.planned.delivered ∧ (v.port p).planned.rxq = y.planned.rxq ∧ u.otherPorts v p ∧
        u.memoryKept v) ∧
    (u.dieUp p.die = true → b < bundlesOf p → ∀ f, u.slotFieldAt p k.val (u.tallyOf p.die - y.link.pinned) = some f →
      let chan := ((u.field f).setAt (u.tallyOf p.die - y.link.pinned)).bind fun n => (u.field f).positionChan p n b k.val 2
      (y.link.st ≠ .up → ∃ v x, exec (.plannedFlitReceive p b k rx t) s = .next v ∧ (v.port p).planned.delivered = some x ∧
        x.bundle = b ∧ x.slot = k.val ∧ slice x.bytes 4 2 = [1, 4] ∧
        NMap.get (v.port p).err.cnt 2 0 = satAdd 0xFFFFFFFF (NMap.get y.err.cnt 2 0) 1 ∧ u.otherPorts v p ∧ u.memoryKept v) ∧
      (∀ ch first, y.link.st = .up → c.ok = true → misplaced c k.val rx = false → rx.quiet = [] → c.repair / 8 % 32 = 31 →
        u.pinLost p = false → chan = some (ch, first) → c.cls = 0 → c.field = fnum f → ∃ v,
        exec (.plannedFlitReceive p b k rx t) s = .next v ∧ (v.port p).planned.delivered = some ⟨b, k.val,
          le 4 (flitHeader 0 (!first) false (u.repairField p) k.val (fnum f)) ++ slice c.payload 0 58⟩ ∧
        (first = true → NMap.get (v.port p).planned.first (64 * ch.dst + ch.channel) ([], true) = (c.payload, false)) ∧
        u.otherPorts v p ∧ u.memoryKept v)) ∧
    ((y.link.st ≠ .up ∨ bundlesOf p ≤ b ∨ u.dieUp p.die = false) → exec (.sideFlitReceive p b k rx t) s = .next u) ∧
    (y.link.st = .up → b < bundlesOf p → u.dieUp p.die = true → rx.quiet = [] → misplaced c k.val rx = false →
      (c.ok = false → ∃ v, exec (.sideFlitReceive p b k rx t) s = .next v ∧
        NMap.get (v.port p).err.cnt 1 0 = satAdd 0xFFFFFFFF (NMap.get y.err.cnt 1 0) 1 ∧
        (y.side.lastNak = none → (v.port p).side.lc = y.side.lc ++ [{ type := 0x02, body := le 2 y.side.expected.toNat }]) ∧
        (v.port p).side.expected = y.side.expected ∧ (v.port p).side.rx = y.side.rx ∧ u.otherPorts v p ∧ u.memoryKept v) ∧
      (c.ok = true → c.repair / 8 % 32 = 31 → 1 ≤ c.cls → c.cls ≤ 5 →
        (BitVec.ofNat 16 (fieldAt c.payload 0 2) = y.side.expected → ∃ v z, exec (.sideFlitReceive p b k rx t) s = .next v ∧
          (v.port p).side.expected = y.side.expected + 1 ∧ (v.port p).side.rx = y.side.rx ++ [z] ∧ z.cls = c.cls ∧
          z.field = c.field ∧ z.bytes = c.payload.drop 4 ∧ (v.port p).side.ackOwed = true ∧ u.otherPorts v p ∧ u.memoryKept v) ∧
        (32768 ≤ (BitVec.ofNat 16 (fieldAt c.payload 0 2) - y.side.expected).toNat → ∃ v,
          exec (.sideFlitReceive p b k rx t) s = .next v ∧ (v.port p).side.expected = y.side.expected ∧
          (v.port p).side.rx = y.side.rx ∧ u.otherPorts v p ∧ u.memoryKept v)))

/-- Link control: a NAK starts retransmission at the flit it names, or at the oldest unacknowledged one; so does the acknowledgement timer;
REPLAY_SYNC lets side flow go on, and one of a restarted peer ends the stream; unanswered requests are repeated at most 16 times; CFG_RD
answers the bytes asked, CFG_RSP ends the request it answers. -/
def Obligations.ReplayAndLinkControl : Prop :=
  (∀ (s : State) (p : PortId) (e n : Half) (t : Nat), let u := s.clock t; let y := u.port p
    (y.link.st ≠ .up → exec (.nak p e t) s = .next u ∧ exec (.ackTimerExpiry p t) s = .next u ∧ exec (.replaySync p e n t) s = .next u) ∧
    (y.link.st = .up → y.side.unacked = [] → exec (.nak p e t) s = .next u ∧ exec (.ackTimerExpiry p t) s = .next u) ∧
    (∀ z rest, y.link.st = .up → y.side.unacked = z :: rest →
      (y.side.replaying = false → ∃ v, exec (.nak p e t) s = .next v ∧ (v.port p).side.replaying = true ∧
        (v.port p).side.replayAt = some (if (z :: rest).any (fun q => q.seq = e) then e else z.seq) ∧
        (v.port p).side.unacked = z :: rest ∧
        NMap.get (v.port p).err.cnt 4 0 = satAdd 0xFFFFFFFF (NMap.get y.err.cnt 4 0) 1 ∧ u.otherPorts v p ∧ u.memoryKept v) ∧
      (u.now < y.side.timerFrom + ackTimer (profileOf p) → exec (.ackTimerExpiry p t) s = .next u) ∧
      (y.side.timerFrom + ackTimer (profileOf p) ≤ u.now → ∃ v, exec (.ackTimerExpiry p t) s = .next v ∧
        (v.port p).side.timerFrom = u.now ∧ (v.port p).side.replaying = true ∧
        (y.side.replaying = false → (v.port p).side.replayAt = some z.seq) ∧ u.otherPorts v p ∧ u.memoryKept v)) ∧
    (y.link.st = .up →
      (¬(e = 0 ∧ n = 0 ∧ (y.side.next ≠ 0 ∨ y.side.expected ≠ 0)) → ∃ v, exec (.replaySync p e n t) s = .next v ∧
        (v.port p).side.synced = true ∧ (v.port p).side.next = y.side.next ∧ (v.port p).side.expected = y.side.expected ∧
        (v.port p).side.hold = y.side.hold ∧ u.otherPorts v p ∧ u.memoryKept v) ∧
      (e = 0 → n = 0 → (y.side.next ≠ 0 ∨ y.side.expected ≠ 0) → ∃ v, exec (.replaySync p e n t) s = .next v ∧
        (v.port p).side.synced = true ∧ (v.port p).side.next = 0 ∧ (v.port p).side.expected = 0 ∧ (v.port p).side.unacked = [] ∧
        (v.port p).side.hold = [] ∧ u.otherPorts v p ∧ u.memoryKept v))) ∧
  (∀ (s : State) (p : PortId), let y := s.port p
    (y.link.st ≠ .up → exec (.lcRequestRepeat p) s = .next s) ∧
    (y.link.st = .up →
      ((∀ m ∈ y.side.lcWaiting, m.repeats < 16) → ∃ v, exec (.lcRequestRepeat p) s = .next v ∧
        (v.port p).side.lcWaiting = y.side.lcWaiting.map (fun m => { m with repeats := m.repeats + 1 }) ∧
        (v.port p).side.lc = y.side.lc ++ (v.port p).side.lcWaiting ∧ (v.port p).err = y.err ∧ s.otherPorts v p ∧
        s.onlyChanges v [.links]) ∧
      (∀ m, y.side.lcWaiting = [m] → 16 ≤ m.repeats → ∃ v, exec (.lcRequestRepeat p) s = .next v ∧
        (v.port p).side.lcWaiting = [] ∧ (v.port p).side.lc = y.side.lc ∧
        NMap.get (v.port p).err.cnt 8 0 = satAdd 0xFFFFFFFF (NMap.get y.err.cnt 8 0) 1 ∧ s.otherPorts v p ∧ s.onlyChanges v [.links]) ∧
      (∀ ofs count, s.dieUp p.die = true →
        (ofs % 4 = 0 → 1 ≤ count → count ≤ 4 → ofs + 4 * count ≤ 0x100 → ∃ v, exec (.cfgRd p ofs count) s = .next v ∧
          (v.port p).side.lc = y.side.lc ++ [{ type := 0x11, body := le 2 ofs ++ le 1 0 ++ le 1 count ++ s.klcRead p ofs (4 * count) }] ∧
          s.otherPorts v p ∧ s.onlyChanges v [.links]) ∧
        ((ofs % 4 ≠ 0 ∨ count = 0 ∨ 4 < count ∨ 0x100 < ofs + 4 * count) → ∃ v, exec (.cfgRd p ofs count) s = .next v ∧
          (v.port p).side.lc = y.side.lc ++ [{ type := 0x11, body := le 2 ofs ++ le 1 1 ++ le 1 count }] ∧
          s.otherPorts v p ∧ s.onlyChanges v [.links])) ∧
      (∀ ofs st d, ∃ v, exec (.cfgRsp p ofs st d) s = .next v ∧ (v.port p).side.cfg = some (ofs, st, d) ∧
        (∀ m, m ∈ (v.port p).side.lcWaiting ↔ m ∈ y.side.lcWaiting ∧ ¬(m.type = 0x10 ∧ fieldAt m.body 0 2 = ofs)) ∧
        s.otherPorts v p ∧ s.onlyChanges v [.links])))

/-! ### Side-flow messages -/

/-- A message with an open account and room in it leaves its source for the hold region of its first port, and its cells count as sent; where
the region is full it stays, and nothing but a count changes. One that came by a port and has reached its die, or goes on, leaves the
reassembly. Credits, census and lost notices keep the two ends of an account agreed: GRANT_SEEN is what the sink says it granted.
ROUTE_HOLD stands at its requester until ROUTE_CLEAR from the same die. A request whose running time has reached the timer, or that was
sent 10 s before, ends with E_SF_TIMEOUT and keeps its TAG; a response ends the request it names with its status and data. -/
def Obligations.MessagesAccountsAndRequests : Prop :=
  ((∀ (s : State) (d : DieId) (m : Msg) (t : Nat), let u := s.clock t
      (u.dieUp d = false → ∀ a, exec (.messageForward d m a t) s = .next u) ∧
      (∀ a q, u.dieUp d = true → m.h.src = d → m.h.dst ≠ d → u.addressed d m = m → barred d m.h = false → u.outOfTurn d m = false →
        (m.h.opcode = 0x24 → ∀ c ∈ (u.die d).side.cache, c.home = m.h.dst → c.line = m.h.addr / 64 → c.dirty = true → c.bad = false) →
        m.h.acct = some a → u.acctOpen a = true →
        m.h.cells ≤ modSub (acctMod a) (u.acctSrc a).grantSeen (u.acctSrc a).sent →
        (expectsReply m.h.opcode = true → (u.die d).req m.h.srcUnit m.h.tag = none ∧
          ((u.die d).side.reqs.filter fun q => q.unit = m.h.srcUnit).length < reqLimit d) → u.nextPort d d m.h.dst = some q →
        let y := u.port ⟨d, q⟩; let l := segment y.msgBytes m
        (y.held m.h.field + l.length ≤ y.holdRoom m.h.field → ∃ v, exec (.messageForward d m none t) s = .next v ∧
          (v.port ⟨d, q⟩).side.hold = y.side.hold ++ l ∧ (v.acctSrc a).sent = ((u.acctSrc a).sent + m.h.cells) % acctMod a ∧
          (expectsReply m.h.opcode = true → ∃ r ∈ (v.die d).side.reqs, r.unit = m.h.srcUnit ∧
            r.tag = m.h.tag ∧ r.dst = m.h.dst ∧ r.sentAt = u.now ∧ r.ended = none) ∧ u.otherPorts v ⟨d, q⟩ ∧ u.memoryKept v) ∧
        (y.holdRoom m.h.field < y.held m.h.field + l.length → ∃ v, exec (.messageForward d m none t) s = .next v ∧
          (v.die d).side = (u.die d).side ∧ u.otherDies v d ∧ u.memoryKept v ∧ u.onlyChanges v [.dies])) ∧
      (∀ q, u.dieUp d = true → (u.port ⟨d, q⟩).assembled m = false → exec (.messageForward d m (some q) t) s = .next u) ∧
      (∀ q, u.dieUp d = true → (u.port ⟨d, q⟩).assembled m = true → m.h.dst = d → knownOp m.h.opcode = true →
        (m.h.field = 0 ∨ ∃ f, fieldOfNum m.h.field = some f ∧ (u.field f).live = true) →
        exec (.messageForward d m (some q) t) s = .next (u.unassemble ⟨d, q⟩ m))) ∧
    (∀ (s : State) (h : Hdr) (data : List Byte) (a : AcctId) (t : Nat), let u := s.clock t
      grantAcct h = some a → unitPresent h.dst h.dstUnit = true →
      (s.dieUp h.dst = true → exec (.credit h data) s =
        .next (s.setAcctSrc a { s.acctSrc a with grantSeen := fieldAt data 0 4 % acctMod a })) ∧
      (u.dieUp h.dst = true →
        ((u.acctSrc a).epoch ≠ BitVec.ofNat 8 (h.addr / 256) → ∃ v, exec (.census h data t) s = .next v ∧
          v.acctSrc a = { grantSeen := u.initialGrant a, epoch := BitVec.ofNat 8 (h.addr / 256) } ∧ u.memoryKept v) ∧
        ((u.acctSrc a).epoch = BitVec.ofNat 8 (h.addr / 256) → (u.acctSrc a).grantSeen = fieldAt data 0 4 % acctMod a →
          modSub (acctMod a) (u.acctSrc a).sent (fieldAt data 4 4) < acctMod a / 2 →
          modSub (acctMod a) (u.acctSrc a).sent (fieldAt data 4 4) ≤ u.initialGrant a → exec (.census h data t) s = .next u) ∧
        ((u.acctSrc a).epoch = BitVec.ofNat 8 (h.addr / 256) → (u.acctSrc a).grantSeen ≠ fieldAt data 0 4 % acctMod a → ∃ v,
          exec (.census h data t) s = .next v ∧ (v.acctSrc a).grantSeen = fieldAt data 0 4 % acctMod a ∧ u.memoryKept v))) ∧
    (∀ (s : State) (a : AcctId) (t : Nat), let u := s.clock t
      let n := modSub (acctMod a) (u.acctSink a).granted (u.acctSink a).reported
      (u.dieUp a.dst = true → u.acctOpen a = true → 0 < n →
        (n < ceilDiv (u.initialGrant a) 4 → (∀ t0, (u.acctSink a).firstUnreported = some t0 → u.now < t0 + 4096) →
          exec (.creditSendDue a t) s = .next u) ∧
        (ceilDiv (u.initialGrant a) 4 ≤ n → ∃ v, exec (.creditSendDue a t) s = .next v ∧
          (v.acctSink a).reported = (u.acctSink a).granted ∧ (v.acctSink a).granted = (u.acctSink a).granted ∧
          (v.die a.dst).side.outbox = (u.die a.dst).side.outbox ++
            [mkLayer 0x01 a.field.val a.dst a.src (u.grantAddr a) (le 4 (u.acctSink a).granted)] ∧ u.otherDies v a.dst ∧
          u.onlyChanges v [.dies])) ∧
      (s.dieUp a.dst = true → s.acctOpen a = true → a.src ≠ a.dst → exec (.censusDue a) s = .next (s.send
        (mkLayer 0x02 a.field.val a.dst a.src (s.grantAddr a) (le 4 (s.acctSink a).granted ++ le 4 (s.acctSink a).received)))) ∧
      (s.acctOpen a = false → exec (.censusDue a) s = .next s) ∧
      (∀ h data l q, hdrOf data = some l → u.dieUp h.dst = true → unitPresent h.dst h.dstUnit = true → l.requester = h.dst → expectsReply l.opcode = true →
        (u.die h.dst).req l.srcUnit l.tag = some q → q.ended = none → ∃ v, exec (.lostNotice h data t) s = .next v ∧
          (v.die h.dst).req l.srcUnit l.tag = none ∧ (∃ r ∈ (v.die h.dst).side.results, r.unit = l.srcUnit ∧ r.tag = l.tag ∧
            r.status = 0x0521) ∧ u.memoryKept v))) ∧
  ((∀ (s : State) (h : Hdr) (t : Nat), let u := s.clock t
      u.dieUp h.dst = true →
      (unitPresent h.dst h.dstUnit = false → exec (.routeHold h t) s = .next (u.sfDiscard h.dst h.field) ∧
        exec (.routeClear h t) s = .next (u.sfDiscard h.dst h.field)) ∧
      (unitPresent h.dst h.dstUnit = true → ∃ v, exec (.routeHold h t) s = .next v ∧ h.src ∈ (v.die h.dst).side.holds ∧
        (∀ e ∈ (u.die h.dst).side.holds, e ∈ (v.die h.dst).side.holds) ∧ u.otherDies v h.dst ∧ u.memoryKept v ∧ u.onlyChanges v [.dies]) ∧
      (unitPresent h.dst h.dstUnit = true → ∃ v, exec (.routeClear h t) s = .next v ∧ (v.die h.dst).side.holds = (u.die h.dst).side.holds.filter (· ≠ h.src) ∧
        u.otherDies v h.dst ∧ u.memoryKept v ∧ u.onlyChanges v [.dies])) ∧
    (∀ (s : State) (d : DieId) (unit tag t : Nat), let w := (s.clock t).settleTimers d
      ((w.die d).req unit tag = none → exec (.sfTimerExpiry d unit tag t) s = .next w ∧ exec (.sfCeilingExpiry d unit tag t) s = .next w) ∧
      (∀ q, (w.die d).req unit tag = some q → q.ended = none →
        (q.ran < w.sfTimerMs * 1000000 → exec (.sfTimerExpiry d unit tag t) s = .next w) ∧
        (w.sfTimerMs * 1000000 ≤ q.ran → ∃ v, exec (.sfTimerExpiry d unit tag t) s = .next v ∧
          (v.die d).req unit tag = some { q with ended := some w.now } ∧
          (v.die d).side.results = (w.die d).side.results ++ [{ unit := unit, tag := tag, status := 0x0520 }] ∧ w.memoryKept v) ∧
        (w.now < q.sentAt + 10000000000 → exec (.sfCeilingExpiry d unit tag t) s = .next w) ∧
        (q.sentAt + 10000000000 ≤ w.now → ∃ v, exec (.sfCeilingExpiry d unit tag t) s = .next v ∧
          (v.die d).req unit tag = some { q with ended := some w.now } ∧
          (v.die d).side.results = (w.die d).side.results ++ [{ unit := unit, tag := tag, status := 0x0520 }] ∧ w.memoryKept v))) ∧
    (∀ (s : State) (h : Hdr) (data : List Byte) (q : OutReq) (t : Nat), let u := s.clock t
      (u.die h.dst).req h.dstUnit h.tag = some q → q.ended = none → u.dieUp h.dst = true →
      (∃ v, exec (.memCpl h data t) s = .next v ∧ u.requestEnded v h data) ∧
      (∃ v, exec (.memCplNd h t) s = .next v ∧ u.requestEnded v h []) ∧
      (∃ v, exec (.dbgRsp h data t) s = .next v ∧ u.requestEnded v h data)))

/-- A memory request the levee passes, of 1 to 256 bytes within 256, reads or writes those bytes of the die and no other and is answered as
its kind is; an atomic also returns the old value; one for the host leaves by the port; a refused one performs nothing. A debug access its
agent serves is answered with its bytes, or once its write is done. -/
def Obligations.MemoryRequests : Prop :=
  ∀ (s : State) (h : Hdr) (data : List Byte) (t : Nat), let u := s.clock t; let d := h.dst
    (u.dieUp d = false → exec (.memRd h t) s = .next u ∧ exec (.memWr h data t) s = .next u ∧ exec (.memWrNp h data t) s = .next u ∧
      exec (.memAtomic h data t) s = .next u ∧ exec (.dbgRd h t) s = .next u ∧ exec (.dbgWr h data t) s = .next u) ∧
    (u.dieUp d = true → unitPresent d h.dstUnit = true → memUnit h = true →
      (0 < h.len → h.len ≤ 256 → within256 h.addr h.len = true →
        (u.memPlace h h.len false = .die → ∃ v, exec (.memRd h t) s = .next v ∧ u.memoryKept v ∧
          ((d.isCompute = true → ∀ i, i < (h.addr + h.len - 1) / 64 + 1 - h.addr / 64 →
              Config.hbmCheck (u.free + i) (h.addr / 64 + i) = .clean) →
          (v.die d).side.outbox = (u.die d).side.outbox ++ [mkMsg 0x18 h.field d h.src h.dstUnit h.srcUnit h.tag
            (if (u.die d).poisonedAt h.addr h.len then 3 else 0) h.addr (Memory.read (u.die d).mem h.addr h.len)] ∧
          u.otherDies v d ∧ u.onlyChanges v [.dies, .free])) ∧
        (u.memPlace h h.len false = .host → ∃ v b, exec (.memRd h t) s = .next v ∧
          v.effects = u.effects ++ [.hostRead d.pkg h.addr h.len] ∧ v.free = u.free + 1 ∧ b.length = h.len ∧
          (v.die d).side.outbox = (u.die d).side.outbox ++ [mkMsg 0x18 h.field d h.src h.dstUnit h.srcUnit h.tag 0 h.addr b] ∧
          u.memoryKept v) ∧
        (u.memPlace h h.len false = .levee → ∃ v, exec (.memRd h t) s = .next v ∧ (v.die d).cnt.refusals = sat32 (u.die d).cnt.refusals ∧
          u.memoryKept v)) ∧
      (data.length ≠ 0 → data.length ≤ 256 → within256 h.addr data.length = true → u.memPlace h data.length true = .die →
        Memory.wf (u.die d).mem = true →
        (∃ v, exec (.memWr h data t) s = .next v ∧ (∀ i, i < data.length → Memory.get (v.die d).mem (h.addr + i) = data.getD i 0) ∧
          (∀ a, (a < h.addr ∨ h.addr + data.length ≤ a) → Memory.get (v.die d).mem a = Memory.get (u.die d).mem a) ∧
          (v.die d).side.outbox = (u.die d).side.outbox ∧ u.otherDies v d ∧ u.onlyChanges v [.dies]) ∧
        (∃ v, exec (.memWrNp h data t) s = .next v ∧ (∀ i, i < data.length → Memory.get (v.die d).mem (h.addr + i) = data.getD i 0) ∧
          (∀ a, (a < h.addr ∨ h.addr + data.length ≤ a) → Memory.get (v.die d).mem a = Memory.get (u.die d).mem a) ∧
          (v.die d).side.outbox = (u.die d).side.outbox ++
            [mkMsg 0x19 h.field d h.src h.dstUnit h.srcUnit h.tag 0 h.addr []] ∧ u.otherDies v d ∧ u.onlyChanges v [.dies])) ∧
      (∀ size n, atomicShape (fieldAt data 0 1) = some (size, n) → data.length = 8 + size * n → d.isCompute = true →
        u.memPlace h size true = .die → h.addr % size = 0 → Config.hbmCheck u.free (h.addr / 64) = .clean → let old := Memory.read (u.die d).mem h.addr size
        ((u.die d).poisonedAt h.addr size = false → Memory.wf (u.die d).mem = true → ∃ v, exec (.memAtomic h data t) s = .next v ∧
          Memory.read (v.die d).mem h.addr size =
            le size (atomicNew (fieldAt data 0 1) size (ofLe old) (fieldAt data 8 size) (fieldAt data (8 + size) size)) ∧
          (∀ a, (a < h.addr ∨ h.addr + size ≤ a) → Memory.get (v.die d).mem a = Memory.get (u.die d).mem a) ∧
          (v.die d).side.outbox = (u.die d).side.outbox ++ [mkMsg 0x18 h.field d h.src h.dstUnit h.srcUnit h.tag 0 h.addr old] ∧
          u.otherDies v d ∧ u.onlyChanges v [.dies, .free]) ∧
        ((u.die d).poisonedAt h.addr size = true → ∃ v, exec (.memAtomic h data t) s = .next v ∧
          (v.die d).side.outbox = (u.die d).side.outbox ++ [mkMsg 0x18 h.field d h.src h.dstUnit h.srcUnit h.tag 3 h.addr old] ∧
          u.otherDies v d ∧ u.memoryKept v ∧ u.onlyChanges v [.dies, .free]))) ∧
    (u.dieUp d = true → debugOk h = true →
      (∀ b, (u.arrive h).debugRead d h.addr h.len u.free = some b → ∃ v, exec (.dbgRd h t) s = .next v ∧ v.free = u.free + 1 ∧
        (v.die d).side.outbox = (u.die d).side.outbox ++ [mkMsg 0x48 h.field d h.src h.dstUnit h.srcUnit h.tag 0 h.addr b] ∧
        u.otherDies v d ∧ u.memoryKept v ∧ u.onlyChanges v [.dies, .free]) ∧
      (∀ w b, data.length = h.len → (u.arrive h).debugWrite d h.addr data = some (w, b) → exec (.dbgWr h data t) s =
        .next (w.send (mkMsg 0x48 h.field d h.src h.dstUnit h.srcUnit h.tag 0 h.addr []))))

/-- A line at home is granted with its 64 bytes, an owned one recalled by INVAL, and during a launch the request is answered IN_LAUNCH; the
owner gives a line up with its data if it modified it, and the home then holds them and the line is HOME. INT_MSG with a vector of its
field raises it at the port of its owner. An alarm at the trouble sink enters the tray record once. -/
def Obligations.CoherenceInterruptsAndAlarms : Prop :=
  ∀ (s : State) (h : Hdr) (data : List Byte) (t : Nat), let u := s.clock t; let d := h.dst; let n := h.addr / 64
    (∀ f, u.dieUp d = true → d.isCompute = true → h.dstUnit = 0x10 → h.src.isCompute = false → h.srcUnit = 0x08 → h.space = 0 →
      fieldOfNum h.field = some f →
      u.memPlace h 64 false = .die → h.addr + 64 ≤ (u.field f).h →
      ((u.field f).run ≠ none → ∃ v, exec (.ownReq h t) s = .next v ∧ (v.die d).side.outbox = (u.die d).side.outbox ++
        [mkMsg 0x21 h.field d h.src h.dstUnit h.srcUnit h.tag 6 h.addr []] ∧ (v.die d).side.dir = (u.die d).side.dir ∧
        u.otherDies v d ∧ u.memoryKept v) ∧
      ((u.field f).run = none → (u.die d).dirLine n = none → (u.die d).side.dir.length < 8192 → Config.hbmCheck u.free n = .clean →
        ∃ v, exec (.ownReq h t) s = .next v ∧
        (v.die d).side.dir = (u.die d).side.dir ++ [{ line := n, owner := some h.src }] ∧
        (v.die d).side.outbox = (u.die d).side.outbox ++
          [mkMsg 0x21 h.field d h.src 0x10 0x08 h.tag (if (u.die d).poison.contains n then 3 else 0) (64 * n)
            (Memory.read (u.die d).mem (64 * n) 64)] ∧
        u.otherDies v d ∧ u.memoryKept v) ∧
      (∀ e o, (u.field f).run = none → (u.die d).dirLine n = some e → e.owner = some o → e.inval = false → ∃ v,
        exec (.ownReq h t) s = .next v ∧
        (v.die d).dirLine n = some { e with waiting := e.waiting ++ [(h.src, h.tag)], inval := true } ∧
        (v.die d).side.outbox = (u.die d).side.outbox ++ [mkMsg 0x22 h.field d o 0x10 0x08 0 0 (64 * n) []] ∧
        u.otherDies v d ∧ u.memoryKept v)) ∧
    (∀ q, u.dieUp d = true → (u.die d).req h.dstUnit h.tag = some q → q.ended = none → (h.cstatus = 0 ∨ h.cstatus = 3) →
      data.length = 64 → ∃ v, exec (.ownGrant h data t) s = .next v ∧
      ((u.die d).side.cache.length < 32768 →
        (v.die d).side.cache = (u.die d).side.cache ++ [⟨h.src, n, data, false, decide (h.cstatus = 3)⟩]) ∧
      (∀ c rest, 32768 ≤ (u.die d).side.cache.length → ((u.die d).side.cache.filter fun c => !(c.dirty && c.bad)) = c :: rest →
        (v.die d).side.cache = (u.die d).side.cache.erase c ++ [⟨h.src, n, data, false, decide (h.cstatus = 3)⟩]) ∧
      (v.die d).req h.dstUnit h.tag = none ∧ u.otherDies v d ∧ u.memoryKept v) ∧
    (s.dieUp d = true → (h.dstUnit ≠ 0x08 ∨ d.isCompute = true) → exec (.inval h) s = .next (s.sfDiscard d h.field)) ∧
    (s.dieUp d = true → h.dstUnit = 0x08 → d.isCompute = false →
      (∀ c, (s.die d).cached h.src n = some c → ∃ v, exec (.inval h) s = .next v ∧
        (v.die d).side.cache = (s.die d).side.cache.erase c ∧ (v.die d).side.outbox = (s.die d).side.outbox ++
          [mkMsg 0x23 h.field d h.src h.dstUnit h.srcUnit h.tag (if c.dirty ∧ c.bad then 3 else 0) h.addr
            (if c.dirty then c.data else [])] ∧ s.otherDies v d ∧
        s.memoryKept v) ∧
      ((s.die d).cached h.src n = none → exec (.inval h) s =
        .next (s.send (mkMsg 0x23 h.field d h.src h.dstUnit h.srcUnit h.tag 0 h.addr [])))) ∧
    (∀ e, e.owner = some h.src → e.waiting = [] → (∀ f, s.fieldOf d = some f → (s.field f).imageOn d (64 * n) 64 = false) →
      (s.dieUp d = true → unitPresent d h.dstUnit = true → (s.die d).dirLine n = some e → e.inval = true → Memory.wf (s.die d).mem = true → ∃ v,
        exec (.invalAck h data) s = .next v ∧ s.lineHome v d n data) ∧
      (u.dieUp d = true → d.isCompute = true → h.dstUnit = 0x10 → (u.die d).dirLine n = some e → Memory.wf (u.die d).mem = true → ∃ v,
        exec (.release h data t) s = .next v ∧ u.lineHome v d n data)) ∧
    (u.dieUp d = true → h.dstUnit = 0x08 → d.isCompute = false → h.field ≤ 8 →
      (vectorOk h.field (h.addr % 64) = true → d.tray = u.span.num →
        NMap.get u.targets h.field none = some d.pkg → ∃ v, exec (.intMsg h data t) s = .next v ∧
        (v.host d.pkg).cause.getLsbD (h.addr % 64) = true ∧
        ((u.host d.pkg).cause.getLsbD (h.addr % 64) = false → (u.host d.pkg).msixMask.getLsbD (h.addr % 64) = false →
          v.effects = u.effects ++ [.msix d.pkg (h.addr % 64)]) ∧ u.memoryKept v) ∧
      (vectorOk h.field (h.addr % 64) = true → NMap.get u.targets h.field none = none → ∃ v, exec (.intMsg h data t) s = .next v ∧
        NMap.get v.trouble.undeliv h.field 0 = sat32 (NMap.get u.trouble.undeliv h.field 0) ∧ v.ports = u.ports ∧ u.memoryKept v)) ∧
    (u.dieUp d = true → d = u.sink → h.opcode = 0x50 → h.dstUnit = 0x1C → h.len = 32 → data.length = 32 → let r := recOf data
      (u.actedOn d r.key = true → ∃ v, exec (.alarm h data t) s = .next v ∧ v.trouble = u.trouble ∧ v.fields = u.fields) ∧
      (u.actedOn d r.key = false → ∃ v, exec (.alarm h data t) s = .next v ∧ v.actedOn d r.key = true ∧
        (2 ≤ r.sev → u.trouble.records.length < 64 → v.trouble.records = u.trouble.records ++ [r]) ∧
        (∀ b ∈ r.bits, b < 64 → v.trouble.summary.getLsbD b = true) ∧ u.memoryKept v))

/-! ### The Steward -/

/-- A record of a die brings its levels and sample; at the fallow throttle its limit is rung 0 and its duty 25 % or more, at rung drop the
limit falls; at orderly shutdown the package goes down to state 5 and its fields are contained. Three lost periods count as 100 degrees.
Levels 3 degrees clear for 100 ms are left, and limits, duty and cap levels come back one rung, 25 % or one level at a time. Caps of a
source reach a Steward that runs and is not isolated, and can only lower its fields' cap levels. A settled regulator is noted. A
calibration window counts, clears STALE and sets leakage and offset (free functions: log entry 47); the guard band goes with the third; 5
s without one is STALE, which freezes the coefficients. -/
def Obligations.StewardReadsAndLimits : Prop :=
  (∀ (s : State) (d : DieId) (t : Nat), let u := s.clock t; let p := (u.die d).pow
      (∀ x, u.managed d = false → exec (.telemetryRecord d x t) s = .next u) ∧
      (∀ x, u.managed d = true → hotter x d.isCompute 3 0 = false → ∃ v, exec (.telemetryRecord d x t) s = .next v ∧
        let q := (v.die d).pow
        q.lastSample = x ∧ q.lastTelemetry = u.now ∧ q.lost = false ∧
        q.samples = (if u.now ≤ p.lastTelemetry + 2000000 then p.samples + 1 else 1) ∧ q.levels = p.sampled x d.isCompute u.now ∧
        (d.isCompute = true →
          (2 ≤ q.level → q.limit = 0 ∧ q.duty = max 25 p.duty) ∧
          (q.level = 1 → q.limit = min p.limit (u.rungOf d - 1) ∧ q.duty = p.duty) ∧
          (q.level = 0 → q.limit = p.limit ∧ q.duty = p.duty)) ∧ v.pkgs = u.pkgs ∧ u.memoryKept v) ∧
      (∀ x, u.managed d = true → hotter x d.isCompute 3 0 = true → (p.levels.any fun e => e.1 = 3) = false →
        (u.pkg d.pkg).st = .on → (u.pkg d.pkg).gate = true → ∃ v, exec (.telemetryRecord d x t) s = .next v ∧
          u.goesDown v d.pkg .shutDown ∧ (∀ f ∈ u.pkgFields d.pkg, (v.field f).containing = true) ∧ u.otherPkgs v d.pkg ∧
          u.memoryKept v) ∧
      (d.isCompute = true → d.tray = u.span.num → u.stewardUp d.pkg = true → p.lost = false →
        (u.now < p.lastTelemetry + 3000000 → exec (.telemetryLost d t) s = .next u) ∧
        (p.lastTelemetry + 3000000 ≤ u.now → ∃ v, exec (.telemetryLost d t) s = .next v ∧ (v.die d).pow.lost = true ∧
          (v.die d).pow.samples = 0 ∧ (v.die d).pow.limit = 0 ∧ (v.die d).pow.duty = max 25 p.duty ∧ u.memoryKept v ∧
          u.onlyChanges v [.dies, .fields])) ∧
      (u.managed d = true → ∃ v, exec (.thermalLevelLeave d t) s = .next v ∧
        (∀ e, e ∈ (v.die d).pow.levels ↔ e ∈ p.levels ∧ u.now < e.2 + 100000000) ∧ (v.die d).pow.limit = p.limit ∧
        (v.die d).pow.duty = p.duty ∧ u.otherDies v d ∧ u.onlyChanges v [.dies]) ∧
      (∀ f, u.managed d = true → (u.field f).dies.contains d = true → let c := u.fieldCap f d.pkg
        (0 < p.level → exec (.limitRaiseDue f d .thermal t) s = .next u) ∧
        (p.level = 0 → p.limit < 7 → p.limitRaised + 100000000 ≤ u.now → ∃ v, exec (.limitRaiseDue f d .thermal t) s = .next v ∧
          (v.die d).pow = { p with limit := p.limit + 1, limitRaised := u.now } ∧ u.otherDies v d ∧ u.onlyChanges v [.dies]) ∧
        (p.level < 2 → 0 < p.duty → p.dutyAt + 100000000 ≤ u.now → ∃ v, exec (.limitRaiseDue f d .duty t) s = .next v ∧
          (v.die d).pow = { p with duty := p.duty - 25, dutyAt := u.now } ∧ u.otherDies v d ∧ u.onlyChanges v [.dies]) ∧
        (∀ a, c.level < 7 → c.fitSince = some a → a + 100000000 ≤ u.now → c.raised = none → ∃ v,
          exec (.limitRaiseDue f d .cap t) s = .next v ∧
          v.fieldCap f d.pkg = { c with level := c.level + 1, raised := some u.now, fitSince := none } ∧ u.otherFields v f ∧
          u.memoryKept v))) ∧
  ((∀ (s : State) (n : Fin 4) (x : Fin 3) (a b t : Nat), let u := s.clock t
      ((u.pkg n).st = .unreachable → exec (.capReceive n x a b t) s = .next u) ∧
      ((u.pkg n).st ≠ .unreachable → u.stewardUp n = true → ∃ v, exec (.capReceive n x a b t) s = .next v ∧
        NMap.get (v.pkg n).trayCaps x.val 0 = a ∧ NMap.get (v.pkg n).pkgCaps x.val 0 = b ∧ (v.pkg n).st = (u.pkg n).st ∧
        (∀ f, (v.fieldCap f n).level ≤ (u.fieldCap f n).level) ∧ u.otherPkgs v n ∧ u.memoryKept v)) ∧
    (∀ (s : State) (d : DieId) (t : Nat), let u := s.clock t; let p := (u.die d).pow
      (∃ v, exec (.regulatorSettled d t) s = .next v ∧ (v.die d).pow = { p with settled := true } ∧ u.otherDies v d ∧
        u.onlyChanges v [.dies]) ∧
      (u.managed d = true → d.isCompute = true →
        (∀ i, ∃ v, exec (.calWindowMeasure d i t) s = .next v ∧ let q := (v.die d).pow
          q.windows = p.windows + 1 ∧ q.lastWindow = u.now ∧ q.stale = false ∧
          (q.guard = true ↔ p.guard = true ∧ p.stale = false ∧ p.windows < 2) ∧
          q.ileak = Config.calLeak i (u.targetMv d (u.rungOf d)) (u.rungOf d) p.lastSample.tj ∧
          q.offset = Config.calOffset i (u.targetMv d (u.rungOf d)) (u.rungOf d) p.lastSample.tj ∧ q.cdyn = p.cdyn ∧ v.pkgs = u.pkgs ∧
          u.memoryKept v) ∧
        (u.now < p.lastWindow + 5000000000 → exec (.calStale d t) s = .next u) ∧
        (p.stale = false → p.lastWindow + 5000000000 ≤ u.now → ∃ v, exec (.calStale d t) s = .next v ∧ (v.die d).pow.stale = true ∧
          (v.die d).pow.guarded = true ∧ (v.die d).pow.ileak = p.ileak ∧ (v.die d).pow.cdyn = p.cdyn ∧ (v.die d).pow.pbase = p.pbase ∧
          v.pkgs = u.pkgs ∧ u.memoryKept v))))

/-! ### Power -/

/-- A breaker, ramp, transistor or die trip opens the gate of its package and latches its bits, whatever the Watermaster does; a package
without a gate is not touched. The next scan finds the package faulted. A lockout of the input opens every gate without a latch, and, as
after an input fault, the input that has returned ends it. Below 36 V the Watermaster, its latches and every package lose power; what
its flash holds stays. -/
def Obligations.HardwareOpensGates : Prop :=
  ∀ (s : State) (n : Fin 4) (d : DieId) (t : Nat), let w := s.powerClock t; let u := s.clock t; let k := w.pkg n
    (k.gate = false → exec (.breakerTrip n t) s = .next w ∧ exec (.hsOvertemp n t) s = .next w ∧ exec (.rampTimeout n t) s = .next w) ∧
    (k.gate = true →
      (∃ v, exec (.breakerTrip n t) s = .next v ∧ w.gateOpened v n 1) ∧
      (∃ v, exec (.hsOvertemp n t) s = .next v ∧ w.gateOpened v n 16) ∧
      (k.st = .poweringUp → k.seq = 0 →
        (w.now < k.gateAt + 60000000 → exec (.rampTimeout n t) s = .next w) ∧
        (k.gateAt + 60000000 ≤ w.now → ∃ v, exec (.rampTimeout n t) s = .next v ∧ w.gateOpened v n 3) ∧
        (w.now ≤ k.gateAt + 60000000 → ∃ v, exec (.vhsRampDone n t) s = .next v ∧
          v.pkg n = { k with seq := 1, seqAt := w.now, inWin := [0] } ∧ w.otherPkgs v n ∧ w.onlyChanges v [.pkgs]) ∧
        (k.gateAt + 60000000 < w.now → ∃ v, exec (.vhsRampDone n t) s = .next v ∧ w.gateOpened v n 3))) ∧
    (d.tray = w.span.num →
      ((w.pkg d.pkg).gate = false → exec (.thermalTrip d t) s = .next w) ∧
      ((w.pkg d.pkg).gate = true → ∃ v, exec (.thermalTrip d t) s = .next v ∧ w.gateOpened v d.pkg 8)) ∧
    (∃ v, exec (.inputLockout t) s = .next v ∧ v.input = { w.input with lockout := true } ∧
      ∀ m, (v.pkg m).gate = false ∧ (v.pkg m).latch = (w.pkg m).latch ∧ (v.pkg m).st = (w.pkg m).st) ∧
    (w.wmUp = true →
      (∀ l, ∃ v, exec (.monitorScan l t) s = .next v ∧ (k.st = .on → k.gate = false → k.latch ≠ 0 → (v.pkg n).st = .faulted)) ∧
      (w.input.fault = false → ∃ v, exec (.inputFault t) s = .next v ∧ v.input.fault = true) ∧
      (w.input.fault = true ∨ w.input.lockout = true → ∃ v, exec (.inputReturn t) s = .next v ∧ v.input.fault = false ∧
        v.input.lockout = false)) ∧
    (∃ v, exec (.auxiliarySupplyLoss t) s = .next v ∧ v.input = {} ∧ v.wm.running = false ∧ (∀ m, v.pkg m = {}) ∧
      v.wm.activeB = u.wm.activeB ∧ v.wm.active = u.wm.active ∧ v.wm.failedBringups = u.wm.failedBringups ∧
      v.wm.eqRecs = u.wm.eqRecs ∧ v.wm.soft = u.wm.soft ∧ (u.wm.staging = none → v.wm.other = u.wm.other))

/-- The events of Table 13.4 follow one another at their intervals, each once every rail enabled before it is in its window: rails,
references, straps or state 8, the X, the compute dies that are enabled (log entry 147)
and state 2. A rail 3 ms late stops the power-up in state 4 with RAIL and its number. PKG_DOWN, before the resets of a power-down, contains the package's fields and brings the die's first error to the sink. The
events of Table 13.5 follow: resets at 1 ms, references and core rails at 2 ms, each rail once the one before it is down or after 2 ms;
the gate opens last, and below 5 V the package is in the state its power-down leaves, or in state 4 with a latch. -/
def Obligations.PackagesPowerUpAndDown : Prop :=
  (∀ (s : State) (n : Fin 4) (t : Nat), let w := s.powerClock t; let k := w.pkg n; let x : DieId := ⟨w.span.num, n, 0⟩
      (k.st ≠ .poweringUp → exec (.powerupSequenceStep n t) s = .next w) ∧
      (w.wmUp = true → k.st = .poweringUp → k.gate = true → k.seq ≠ 0 → k.held = none →
        (w.now < k.seqAt + [20, 5, 3, 2, 2, 2, 2, 2, 1, 1, 1].getD k.seq 0 * 1000000 → exec (.powerupSequenceStep n t) s = .next w) ∧
        (k.seqAt + [20, 5, 3, 2, 2, 2, 2, 2, 1, 1, 1].getD k.seq 0 * 1000000 ≤ w.now →
          (∀ r ∈ k.rails, ∃ e ∈ k.inWin, e.val = r.1) →
          (k.seq ≤ 5 → ∃ v, exec (.powerupSequenceStep n t) s = .next v ∧ (v.pkg n).seq = k.seq + 1 ∧ (v.pkg n).seqAt = w.now ∧
            (∀ r ∈ [[], [1], [8], [9], [10], [3, 2]].getD k.seq [], NMap.get (v.pkg n).rails r 0 = w.now) ∧ (v.pkg n).st = .poweringUp ∧
            w.otherPkgs v n ∧ w.onlyChanges v [.pkgs]) ∧
          (k.seq = 6 → ∃ v, exec (.powerupSequenceStep n t) s = .next v ∧ (v.pkg n).seq = 7 ∧
            (∀ r ∈ [4, 5, 6, 7], NMap.get (v.pkg n).rails r 0 = w.now) ∧
            (∀ c ∈ computeDies w.span.num n, (v.die c).pow.target = w.targetMv c 0) ∧ w.otherPkgs v n ∧ w.memoryKept v) ∧
          (k.seq = 7 → ∃ v, exec (.powerupSequenceStep n t) s = .next v ∧
            v.pkg n = { k with seq := 8, seqAt := w.now, refOn := true } ∧ w.otherPkgs v n ∧ w.onlyChanges v [.pkgs]) ∧
          (k.seq = 8 → ∃ v, exec (.powerupSequenceStep n t) s = .next v ∧ w.otherPkgs v n ∧ w.onlyChanges v [.pkgs] ∧
            (k.enumDone = false → v.pkg n = k) ∧
            (k.enumDone = true → k.placed = true → (v.pkg n).straps = true ∧ (v.pkg n).seq = 9 ∧ (v.pkg n).st = .poweringUp) ∧
            (k.enumDone = true → k.placed = false → (v.pkg n).st = .unplaced ∧ (v.pkg n).straps = k.straps)) ∧
          (k.seq = 9 → (w.die x).boot.st = .inReset → ∃ v, exec (.powerupSequenceStep n t) s = .next v ∧ (v.pkg n).seq = 10 ∧
            (v.die x).boot.st = .bootRom ∧ w.otherDies v x ∧ w.memoryKept v) ∧
          (k.seq = 10 → (∀ c ∈ computeDies w.span.num n, (w.die c).boot.st = .inReset) → ∃ v,
            exec (.powerupSequenceStep n t) s = .next v ∧ (v.pkg n).st = .on ∧
            (∀ c ∈ computeDies w.span.num n, (v.die c).boot.st = if w.notEnabled c then .inReset else .bootRom) ∧ w.otherPkgs v n ∧
            w.memoryKept v))) ∧
      (∀ rail : Fin 11, (k.rails.any fun r => r.1 = rail.val) = true → k.inWin.contains rail = false →
        (∃ v, exec (.railInWindow n rail t) s = .next v ∧ (v.pkg n).inWin = k.inWin ++ [rail] ∧ (v.pkg n).rails = k.rails ∧
          w.otherPkgs v n ∧ w.onlyChanges v [.pkgs]) ∧
        (∀ r, (k.rails.find? fun r => r.1 = rail.val) = some r → w.wmUp = true → k.st = .poweringUp → rail ≠ 0 →
          (w.now < r.2 + 3000000 → exec (.railWindowTimeout n rail t) s = .next w) ∧
          (r.2 + 3000000 ≤ w.now → k.latch.getLsbD 2 = false → ∃ v, exec (.railWindowTimeout n rail t) s = .next v ∧
            (v.pkg n).st = .faulted ∧ (v.pkg n).latch = k.latch ||| 4 ∧ (v.pkg n).railId = 4 + 11 * n.val + rail.val ∧
            (v.pkg n).gate = false ∧ w.otherPkgs v n ∧ w.memoryKeptBut v n)))) ∧
  (∀ (s : State) (n : Fin 4) (t : Nat), let w := s.powerClock t; let k := w.pkg n
      (∀ d, d.tray = w.span.num → d.pkg = n → k.st = .poweringDown → k.downSeq = 0 → w.dieUp d = true → ∃ v,
        exec (.pkgDown d t) s = .next v ∧ (∀ f ∈ w.pkgFields n, (v.field f).containing = true) ∧ v.pkgs = w.pkgs ∧ w.memoryKept v ∧
        ((w.die d).trb.fec = none → w.onlyChanges v [.fields]) ∧
        (∀ r, (w.die d).trb.fec = some r → w.actedOn w.sink r.key = false → 2 ≤ r.sev → w.trouble.records.length < 64 →
          v.trouble.records = w.trouble.records ++ [r])) ∧
      (k.st ≠ .poweringDown → (∀ b, exec (.powerdownSequenceStep n b t) s = .next w) ∧ exec (.vhsDischarged n t) s = .next w) ∧
      (k.st = .poweringDown →
        (∀ slow, w.wmUp = true → k.downSeq < 8 → let gap := if k.downSeq < 2 then 1000000 else if slow then 2000000 else 0
          (w.now < k.downAt + gap → exec (.powerdownSequenceStep n slow t) s = .next w) ∧
          (k.downAt + gap ≤ w.now → ∃ v, exec (.powerdownSequenceStep n slow t) s = .next v ∧
            (v.pkg n).downSeq = k.downSeq + 1 ∧ (v.pkg n).downAt = w.now ∧ (v.pkg n).st = .poweringDown ∧
            (v.pkg n).rails = (k.rails.filter fun r =>
              !([[], [4, 5, 6, 7], [3, 2], [10], [9], [8], [1], [0]].getD k.downSeq []).contains r.1) ∧
            ((v.pkg n).gate = true ↔ k.gate = true ∧ k.downSeq ≠ 7) ∧ ((v.pkg n).refOn = true ↔ k.refOn = true ∧ k.downSeq = 0) ∧
            (k.downSeq = 0 → w.inReset v n ∧ w.memoryKept v) ∧
            (k.downSeq = 6 → (v.pkg n).sw = false ∧ ∀ d ∈ packageDies w.span.num n, (v.die d).boot.st = .off) ∧ w.otherPkgs v n ∧
            w.memoryKeptBut v n)) ∧
        (k.gate = false → k.asked = false → k.redfishWaits = 0 → k.upAfter = false → w.wm.owed = none → ∃ v,
          exec (.vhsDischarged n t) s = .next v ∧ (v.pkg n).st = (if k.latch = 0 then k.after else .faulted) ∧
          (v.pkg n).latch = k.latch ∧ (∀ d ∈ packageDies w.span.num n, (v.die d).boot.st = .off) ∧ w.otherPkgs v n ∧
          w.memoryKeptBut v n)))

/-- A scan keeps its readings, warns at once of a supply of the tray more than 3 % off, and drives fans from 20 % and pumps from 40 % to full;
there is none while the Watermaster is away. A protective cap ends after 60 s. An input fault powers down and remembers every package in
state 2 and leaves those off as they are; on its return each remembered one in state 0, 5 or 7 without a latch comes up, or once the
Watermaster has restarted into a PENDING bank. -/
def Obligations.ScansAndTheInput : Prop :=
  ∀ (s : State) (t : Nat), let w := s.powerClock t
    (∀ l, w.wmUp = false → exec (.monitorScan l t) s = .next w) ∧
    (∀ l, w.wmUp = true → ∃ v, exec (.monitorScan l t) s = .next v ∧
      (∀ i x, i < 96 → l[i]? = some x → (NMap.get v.wm.mon i {}).reading = x) ∧
      (∀ e ∈ [(1, 12000), (2, 3300), (3, 1800)], ∀ x, l[e.1]? = some x → (NMap.get w.wm.mon e.1 {}).warned = false →
        (NMap.get w.wm.mon e.1 {}).warnSince = none →
        ((NMap.get v.wm.mon e.1 {}).warned = true ↔ 3 * e.2 < 100 * (x - (e.2 : Int)).natAbs)) ∧
      20 ≤ v.wm.fanDuty ∧ v.wm.fanDuty ≤ 100 ∧ 40 ≤ v.wm.pumpDuty ∧ v.wm.pumpDuty ≤ 100) ∧
    (w.wmUp = true →
      (∀ a, w.wm.protTray = some a →
        (w.now < a + 60000000000 → exec (.protectiveCapClear .tray t) s = .next w) ∧
        (a + 60000000000 ≤ w.now → ∃ v, exec (.protectiveCapClear .tray t) s = .next v ∧ v.wm = { w.wm with protTray := none } ∧
          (∀ n, (w.pkg n).st ≠ .unreachable → w.stewardUp n = true → NMap.get (v.pkg n).trayCaps 2 0 = 0) ∧ w.memoryKept v)) ∧
      (∀ (n : Fin 4) e, (w.wm.protPkg.find? fun e => e.1 = n.val) = some e → e.2 + 60000000000 ≤ w.now → ∃ v,
        exec (.protectiveCapClear (.pkg n) t) s = .next v ∧ v.wm = { w.wm with protPkg := NMap.erase w.wm.protPkg n.val } ∧
        w.memoryKept v) ∧
      (w.input.fault = true → exec (.inputFault t) s = .next w) ∧
      (w.input.fault = false → ∃ v, exec (.inputFault t) s = .next v ∧ v.input = { w.input with fault := true } ∧
        v.wm.firstGate = none ∧ (∀ n, w.goesDown v n .off ∧ ((w.pkg n).st = .on → (v.pkg n).powered = true) ∧
          ((w.pkg n).st = .off ∨ (w.pkg n).st = .faulted ∨ (w.pkg n).st = .heldOff → v.pkg n = w.pkg n))) ∧
      (w.input.fault = false → w.input.lockout = false → exec (.inputReturn t) s = .next w) ∧
      (w.input.fault = true ∨ w.input.lockout = true → ∃ v, exec (.inputReturn t) s = .next v ∧ v.input.fault = false ∧
        v.input.lockout = false ∧ (∀ n, (v.pkg n).powered = false) ∧
        ((∀ m, (w.pkg m).st = .poweringUp ∨ (w.pkg m).st = .on → (w.pkg m).gate = true) →
          (w.upNow → ∀ n, (w.pkg n).powered = true → w.comesUp v n) ∧
          (¬ w.upNow → (∃ n, (w.pkg n).powered = true ∧ (w.pkg n).latch = 0 ∧ (w.pkg n).st.mayUp = true) → v.wm.owed ≠ none))))

/-- The first hiccup of a package holds its dies in reset and contains its fields; the third within 1 s is a rail fault; 1 s after the first,
with the rail back, the package starts again from its 39 ms event; 8 in a row latch the regulator off. A warm reset of a die of a package
in state 2 keeps its memory and counts its epoch on; its release, after 100 us, starts the boot ROM of a die that is enabled (log
entry 147). -/
def Obligations.HiccupsAndResets : Prop :=
  ∀ (s : State) (n : Fin 4) (t : Nat), let w := s.powerClock t; let k := w.pkg n
    (∀ rail : Fin 11, let row := NMap.get k.rowHiccups rail.val 0
      (8 ≤ row → exec (.regulatorHiccup n rail t) s = .next w ∧ ∃ v, exec (.regulatorLatchoff n rail t) s = .next v ∧
        v.pkg n = { k with rails := NMap.erase k.rails rail.val, inWin := k.inWin.filter (· ≠ rail) } ∧ w.otherPkgs v n ∧
        w.onlyChanges v [.pkgs]) ∧
      (row < 8 → exec (.regulatorLatchoff n rail t) s = .next w) ∧
      (row < 8 → (k.rails.any fun r => r.1 = rail.val) = true → w.wmUp = true → k.st = .on → k.gate = true →
        (k.hiccups = [] → k.held = none → ∃ v, exec (.regulatorHiccup n rail t) s = .next v ∧ (v.pkg n).held = some w.now ∧
          (v.pkg n).hiccups = [w.now] ∧ NMap.get (v.pkg n).rowHiccups rail.val 0 = row + 1 ∧ w.inReset v n ∧
          (∀ f ∈ w.pkgFields n, (v.field f).containing = true) ∧ w.otherPkgs v n ∧ w.memoryKept v) ∧
        (2 ≤ (k.hiccups.filter fun a => w.now < a + 1000000000).length → k.latch.getLsbD 2 = false → ∃ v,
          exec (.regulatorHiccup n rail t) s = .next v ∧ (v.pkg n).latch = k.latch ||| 4 ∧
          (v.pkg n).railId = 4 + 11 * n.val + rail.val ∧ w.goesDown v n .faulted ∧
          (∀ f ∈ w.pkgFields n, (v.field f).containing = true) ∧ w.otherPkgs v n ∧ w.memoryKept v))) ∧
    (∀ a, k.held = some a →
      exec (.hiccupWindowEnd n false t) s = .next w ∧
      (w.now < a + 1000000000 → exec (.hiccupWindowEnd n true t) s = .next w) ∧
      (a + 1000000000 ≤ w.now → w.wmUp = true → k.st = .on → ∃ v, exec (.hiccupWindowEnd n true t) s = .next v ∧
        v.pkg n = { k with held := none, hiccups := [], rowHiccups := [], st := .poweringUp, seq := 8, seqAt := w.now } ∧
        w.otherPkgs v n ∧ w.onlyChanges v [.pkgs])) ∧
    (∀ d, d.tray = w.span.num → d.pkg = n → k.st = .on →
      (w.dieUp d = false → exec (.dieWarmReset d t) s = .next w) ∧
      (w.dieUp d = true → ∃ v, exec (.dieWarmReset d t) s = .next v ∧ (v.die d).boot.st = .inReset ∧ (v.die d).boot.resetAt = w.now ∧
        (v.die d).trb.epoch = (w.die d).trb.epoch + 1 ∧ v.pkgs = w.pkgs ∧ w.memoryKept v ∧
        (∀ f, (w.die d).trb.log = [] → w.fieldOf d = some f → (v.field f).containing = true ∧
          ((w.field f).active.isSome = true → (v.field f).reloadDue.isSome = true))) ∧
      ((w.die d).boot.st = .inReset → k.held = none → w.wmUp = true → (w.die d).boot.testMode = false ∨ k.gate = true →
        (w.now < (w.die d).boot.resetAt + 100000 ∨ w.notEnabled d = true → exec (.dieResetRelease d t) s = .next w) ∧
        ((w.die d).boot.resetAt + 100000 ≤ w.now → w.notEnabled d = false → ∃ v, exec (.dieResetRelease d t) s = .next v ∧ (v.die d).boot.st = .bootRom ∧
          w.otherDies v d ∧ w.memoryKept v ∧ w.onlyChanges v [.dies, .links])))

/-! ### The rack -/

/-- The tray reset actions: On clears a halt and brings up every package in state 0, 5 or 7 without a latch, at once or after the restart
into a PENDING bank; ForceOff takes every package but a faulted one to state 7, or 4 for its latch, and PowerCycle does so and has On
follow after 1 s. None acts, or is answered, while the Watermaster is away. The package reset actions: On is refused in state 4, waits in
state 3, brings up in state 0, 5 or 7, and has nothing to do in state 1, 2, 6 or 8; ForceOff powers down, and GracefulShutdown too where no
field holds a die of the package, else 409; ForceRestart resets the dies that run; any other action is refused with 400. -/
def Obligations.ResetActions : Prop :=
  (∀ (s : State) (t : Nat), let w := s.powerClock t
      (w.wmUp = false → exec (.redfishTrayOn t) s = .next w ∧ exec (.redfishTrayForceoff t) s = .next w ∧
        exec (.redfishTrayPowercycle t) s = .next w ∧ exec (.powercycleOnDelay t) s = .next w) ∧
      (w.wmUp = true →
        (∃ v, exec (.redfishTrayOn t) s = .next v ∧ .redfish none ∈ v.effects ∧ v.wm.halted = false ∧
          (w.upNow → ∀ n, w.comesUp v n) ∧ (¬ w.upNow → (∃ n, (w.pkg n).st.mayUp = true) → v.wm.owed ≠ none) ∧
          ((∀ n, (w.pkg n).st.mayUp = false) → v.pkgs = w.pkgs)) ∧
        (∃ v, exec (.redfishTrayForceoff t) s = .next v ∧ v.effects = w.effects ++ [.redfish none] ∧ v.wm.firstGate = none ∧
          v.wm.cycleFrom = none ∧ (∀ n, w.goesDown v n .heldOff ∧ ((w.pkg n).st = .faulted → v.pkg n = w.pkg n) ∧
            ((w.pkg n).st ≠ .faulted → v.headsFor n .heldOff))) ∧
        (∃ v, exec (.redfishTrayPowercycle t) s = .next v ∧ v.effects = w.effects ++ [.redfish none] ∧ v.wm.cycleFrom = some w.now ∧
          (∀ n, w.goesDown v n .heldOff ∧ ((w.pkg n).st = .faulted → v.pkg n = w.pkg n) ∧
            ((w.pkg n).st ≠ .faulted → v.headsFor n .heldOff))) ∧
        (w.wm.cycleFrom = none → exec (.powercycleOnDelay t) s = .next w) ∧
        (∀ a, w.wm.cycleFrom = some a →
          (w.now < a + 1000000000 → exec (.powercycleOnDelay t) s = .next w) ∧
          (a + 1000000000 ≤ w.now → ∃ v, exec (.powercycleOnDelay t) s = .next v ∧ v.wm.cycleFrom = none ∧ v.wm.halted = false ∧
            (w.upNow → ∀ n, w.comesUp v n) ∧ (¬ w.upNow → (∃ n, (w.pkg n).st.mayUp = true) → v.wm.owed ≠ none))))) ∧
  ((∀ (s : State) (n : Fin 4) (t : Nat), let w := s.powerClock t; let k := w.pkg n
      (w.wmUp = false → exec (.redfishPkgOn n t) s = .next w ∧ exec (.redfishPkgForceoff n t) s = .next w ∧
        exec (.redfishPkgGracefulshutdown n t) s = .next w ∧ exec (.redfishPkgForcerestart n t) s = .next w) ∧
      (w.wmUp = true →
        (k.st = .faulted → exec (.redfishPkgOn n t) s = .next (w.emit (.redfish (some Config.redfishRefusal)))) ∧
        (k.st = .poweringDown → ∃ v, exec (.redfishPkgOn n t) s = .next v ∧ v.pkg n = { k with redfishWaits := k.redfishWaits + 1 } ∧
          w.otherPkgs v n ∧ w.onlyChanges v [.pkgs]) ∧
        (k.st = .poweringUp ∨ k.st = .on ∨ k.st = .unreachable ∨ k.st = .unplaced →
          exec (.redfishPkgOn n t) s = .next (w.emit (.redfish none))) ∧
        (k.st.mayUp = true → ∃ v, exec (.redfishPkgOn n t) s = .next v ∧ .redfish none ∈ v.effects ∧ w.otherPkgs v n ∧
          (w.upNow → w.comesUp v n) ∧ (¬ w.upNow → v.wm.owed = some [n])) ∧
        (k.st = .on → k.gate = true →
          (∃ v, exec (.redfishPkgForceoff n t) s = .next v ∧ w.goesDown v n .heldOff ∧ v.effects = w.effects ++ [.redfish none] ∧
            w.otherPkgs v n ∧ w.memoryKept v) ∧
          (w.pkgFields n = [] → ∃ v, exec (.redfishPkgGracefulshutdown n t) s = .next v ∧ w.goesDown v n .heldOff ∧
            v.effects = w.effects ++ [.redfish none] ∧ w.otherPkgs v n ∧ w.memoryKept v) ∧
          (∃ v, exec (.redfishPkgForcerestart n t) s = .next v ∧ v.pkgs = w.pkgs ∧ v.effects = w.effects ++ [.redfish none] ∧
            w.memoryKept v ∧ ∀ d ∈ packageDies w.span.num n, w.dieUp d = true → (v.die d).boot.st = .inReset ∧
              (v.die d).trb.epoch = (w.die d).trb.epoch + 1)) ∧
        (w.pkgFields n ≠ [] → exec (.redfishPkgGracefulshutdown n t) s = .next (w.emit (.redfish (some 409)))))) ∧
    (∀ s : State, (s.wmUp = true → exec .redfishResetUnsupported s = .next (s.emit (.redfish (some 400)))) ∧
      (s.wmUp = false → exec .redfishResetUnsupported s = .next s)))

/-- A Redfish cap of 0 or within its range reaches every Steward, and 400 refuses another; a protective cap of the tray is gone 60 s after it
was set or renewed; a reset action that is carried out is answered; clearing a fault empties a package's latches, and state 4 becomes 7; a
locate is set from now or cleared. The update service keeps a one-time image or stages, 409 while it is busy, makes
the other bank PENDING, and takes the recovery request, also while the Watermaster runs its recovery image. -/
def Obligations.RackServices : Prop :=
  ∀ (s : State) (t : Nat), let w := s.powerClock t
    (w.wmUp = true →
      (∀ c, ¬(c = 0 ∨ 5880 ≤ c ∧ c ≤ 10800) → exec (.redfishCap .tray c t) s = .next (w.emit (.redfish (some 400)))) ∧
      (∀ c, c = 0 ∨ 5880 ≤ c ∧ c ≤ 10800 → ∃ v, exec (.redfishCap .tray c t) s = .next v ∧ v.wm = { w.wm with redfishTray := c } ∧
        .redfish none ∈ v.effects ∧ w.memoryKept v ∧
        ∀ n, (w.pkg n).st ≠ .unreachable → w.stewardUp n = true → NMap.get (v.pkg n).trayCaps 1 0 = c) ∧
      (∀ (n : Fin 4) c, ¬(c = 0 ∨ 1100 ≤ c ∧ c ≤ 2330) →
        exec (.redfishCap (.pkg n) c t) s = .next (w.emit (.redfish (some 400)))) ∧
      (∀ (n : Fin 4) c, c = 0 ∨ 1100 ≤ c ∧ c ≤ 2330 → ∃ v, exec (.redfishCap (.pkg n) c t) s = .next v ∧
        v.wm = { w.wm with redfishPkg := NMap.set w.wm.redfishPkg n.val c } ∧ .redfish none ∈ v.effects ∧ w.memoryKept v ∧
        ((w.pkg n).st ≠ .unreachable → w.stewardUp n = true → NMap.get (v.pkg n).pkgCaps 1 0 = c)) ∧
      (∀ a, w.wm.protTray = some a → a + 60000000000 ≤ w.now → ∃ v, exec (.protectiveCapClear .tray t) s = .next v ∧
        v.wm.protTray = none) ∧
      (∃ v, exec (.redfishTrayOn t) s = .next v ∧ .redfish none ∈ v.effects) ∧
      (∃ v, exec (.redfishTrayForceoff t) s = .next v ∧ .redfish none ∈ v.effects) ∧
      (∃ v, exec (.redfishTrayPowercycle t) s = .next v ∧ v.wm.cycleFrom = some w.now) ∧
      (∀ a, w.wm.cycleFrom = some a → a + 1000000000 ≤ w.now → ∃ v, exec (.powercycleOnDelay t) s = .next v ∧
        v.wm.cycleFrom = none) ∧
      (∀ n,
        ((w.pkg n).st.mayUp = true → ∃ v, exec (.redfishPkgOn n t) s = .next v ∧ .redfish none ∈ v.effects) ∧
        (∃ v, exec (.redfishPkgForceoff n t) s = .next v ∧ .redfish none ∈ v.effects) ∧
        (w.pkgFields n = [] → ∃ v, exec (.redfishPkgGracefulshutdown n t) s = .next v ∧ .redfish none ∈ v.effects) ∧
        (∃ v, exec (.redfishPkgForcerestart n t) s = .next v ∧ .redfish none ∈ v.effects)) ∧
      (∀ n, ∃ v, exec (.redfishClearFault n t) s = .next v ∧ (v.pkg n).latch = 0 ∧
        (v.pkg n).st = (if (w.pkg n).st = .faulted then .heldOff else (w.pkg n).st) ∧ (v.pkg n).gate = (w.pkg n).gate ∧
        v.effects = w.effects ++ [.redfish none] ∧ w.otherPkgs v n ∧ w.onlyChanges v [.pkgs, .effects]) ∧
      (∀ l on, ∃ v, exec (.redfishLocate l on t) s = .next v ∧ v.wm.located l = (if on then some w.now else none) ∧
        v.effects = w.effects ++ [.redfish none] ∧ w.onlyChanges v [.wm, .effects])) ∧
    (w.wmAlive = true →
      (∀ one b, w.wm.stagingBusy false = true → exec (.redfishUpdatePush one b t) s = .next (w.emit (.redfish (some 409)))) ∧
      (∀ b, w.wm.stagingBusy false = false →
        (∃ v, exec (.redfishUpdatePush true b t) s = .next v ∧ v.wm = { w.wm with oneTime := some b } ∧
          v.effects = w.effects ++ [.redfish none] ∧ w.onlyChanges v [.wm, .effects]) ∧
        (∃ v, exec (.redfishUpdatePush false b t) s = .next v ∧ v.wm.staging = some none ∧ v.wm.other = { st := .staging } ∧
          v.wm.active = w.wm.active ∧ v.effects = w.effects ++ [.redfish none] ∧ w.onlyChanges v [.wm, .effects])) ∧
      (w.wm.staging = none →
        (w.wm.other.st ≠ .staged → exec (.redfishFwActivate t) s = .next (w.emit (.redfish (some Config.redfishRefusal)))) ∧
        (w.wm.other.st = .staged → ∃ v, exec (.redfishFwActivate t) s = .next v ∧ v.wm.other = { w.wm.other with st := .pending } ∧
          v.wm.active = w.wm.active ∧ v.effects = w.effects ++ [.redfish none] ∧ w.onlyChanges v [.wm, .effects]) ∧
        (w.wm.other.valid = false → exec (.redfishFwRollback t) s = .next (w.emit (.redfish (some Config.redfishRefusal)))) ∧
        (w.wm.other.valid = true → ∃ v, exec (.redfishFwRollback t) s = .next v ∧ v.wm.other = { w.wm.other with st := .pending } ∧
          v.wm.active = w.wm.active ∧ v.effects = w.effects ++ [.redfish none] ∧ w.onlyChanges v [.wm, .effects]))) ∧
    (s.wmUp = true → ∃ v, exec .redfishResetUnsupported s = .next v ∧ v.effects = s.effects ++ [.redfish (some 400)] ∧
      s.onlyChanges v [.effects]) ∧
    (s.wmAlive = true → ∃ v, exec .redfishRecoveryRequest s = .next v ∧ v.wm = { s.wm with recoveryAsked := true } ∧
      v.effects = s.effects ++ [.redfish none] ∧ s.onlyChanges v [.wm, .effects])

/-- A watchdog expiry, a firmware fault or a held button restarts the Watermaster at full cooling and leaves every package as it is; within 60
s of a boot an expiry counts, the third starts the recovery image. Service resumed ends the restart and heartbeats the Watermaster's
scopes, as each second does; 60 s clear the count. A press toggles tray locate and clears the others, a locate ends after 30 min, and a
staging ends as its verification found. -/
def Obligations.WatermasterService : Prop :=
  ∀ (s : State) (t : Nat), let w := s.powerClock t; let u := s.clock t
    (w.wmAlive = false → exec (.watchdogExpiry t) s = .next w ∧ exec (.wmFirmwareFault t) s = .next w ∧ exec (.buttonHold t) s = .next w) ∧
    (w.wmAlive = true →
      (∃ v, exec (.watchdogExpiry t) s = .next v ∧ v.wm.restarting = some .watchdog ∧ v.wm.fanDuty = 100 ∧ v.wm.pumpDuty = 100 ∧
        v.wm.staging = none ∧ v.pkgs = w.pkgs ∧ v.fields = w.fields ∧ w.memoryKept v ∧
        (w.wm.active.st ≠ .trial →
          v.wm.earlyExpiries = (if w.now < w.wm.bootedAt + 60000000000 then w.wm.earlyExpiries + 1 else 0) ∧
          (v.wm.recovery = true ↔ w.now < w.wm.bootedAt + 60000000000 ∧ 2 ≤ w.wm.earlyExpiries)) ∧
        (w.wm.active.st = .trial → v.wm.recovery = false)) ∧
      (∃ v, exec (.wmFirmwareFault t) s = .next v ∧ v.wm.restarting = some .fault ∧ v.wm.fanDuty = 100 ∧ v.wm.staging = none ∧
        v.pkgs = w.pkgs ∧ v.fields = w.fields ∧ w.memoryKept v) ∧
      (∃ v, exec (.buttonHold t) s = .next v ∧ v.wm.restarting = some .button ∧ v.wm.fanDuty = 100 ∧ v.wm.staging = none ∧
        v.pkgs = w.pkgs ∧ v.fields = w.fields ∧ w.memoryKept v) ∧
      (w.now < w.wm.bootedAt + 60000000000 → exec (.bootExpiryCountReset t) s = .next w) ∧
      (w.wm.bootedAt + 60000000000 ≤ w.now → ∃ v, exec (.bootExpiryCountReset t) s = .next v ∧
        v.wm = { w.wm with earlyExpiries := 0 } ∧ w.onlyChanges v [.wm])) ∧
    (u.wm.restarting = none → exec (.wmServiceResumed t) s = .next u) ∧
    (u.wm.restarting ≠ none → u.wm.recovery = true ∨ (u.wm.owed = none ∧ u.wm.firstGate = none) → ∃ v,
      exec (.wmServiceResumed t) s = .next v ∧ v.wm.restarting = none ∧ v.wm.bootedAt = u.now ∧
      (u.wm.recovery = false → v.wm.lastBeat = u.now ∧
        ∀ n, (v.scope n).owned = true → (v.scope n).src = 4 → (v.scope n).beat = u.now)) ∧
    (w.wmUp = true →
      (w.now < w.wm.lastBeat + 1000000000 → exec (.wmHeartbeatDue t) s = .next w) ∧
      (w.wm.lastBeat + 1000000000 ≤ w.now → ∃ v, exec (.wmHeartbeatDue t) s = .next v ∧ v.wm.lastBeat = w.now ∧
        (∀ n, (v.scope n).owned = true → (v.scope n).src = 4 → (v.scope n).beat = w.now) ∧ w.memoryKept v) ∧
      (∀ x, x < 100 ∨ 2000 < x → exec (.buttonPress x t) s = .next w) ∧
      (∀ x, 100 ≤ x → x ≤ 2000 → ∃ v, exec (.buttonPress x t) s = .next v ∧ v.wm.locPkg = [] ∧ v.wm.locCage = [] ∧
        v.wm.locTray = (if w.wm.locTray = none then some w.now else none) ∧ w.onlyChanges v [.wm]) ∧
      (∀ l a, w.wm.located l = some a →
        (w.now < a + 1800000000000 → exec (.locateTimeout l t) s = .next w) ∧
        (a + 1800000000000 ≤ w.now → ∃ v, exec (.locateTimeout l t) s = .next v ∧ v.wm.located l = none ∧ w.onlyChanges v [.wm]))) ∧
    (∀ len b, w.wm.staging = some len → w.wmAlive = true → let whole := len = none ∨ len = some b.length
      (whole → bundleOk b = true → ∃ v, exec (.stagingComplete b true t) s = .next v ∧ v.wm.staging = none ∧ v.wm.lastResult = 0 ∧
        v.wm.other = { st := .staged, bundle := bundleId b } ∧ v.wm.active = w.wm.active ∧ w.memoryKept v) ∧
      (¬ whole ∨ bundleOk b = false → ∃ v, exec (.stagingComplete b true t) s = .next v ∧ v.wm.staging = none ∧
        v.wm.lastResult = 0x0107 ∧ v.wm.other = {} ∧ v.wm.active = w.wm.active ∧ w.memoryKept v) ∧
      (∃ v, exec (.stagingComplete b false t) s = .next v ∧ v.wm.staging = none ∧ v.wm.lastResult = 0x0705 ∧
        v.wm.other = {} ∧ v.wm.active = w.wm.active ∧ w.memoryKept v))

/-- A hold of the button restarts the Watermaster; neither a hold nor a press, however long, powers a package up or down. -/
def Obligations.NoButtonActionPowersAPackage : Prop :=
  ∀ (s : State) (t : Nat), let w := s.powerClock t
    (w.wmAlive = true → ∃ v, exec (.buttonHold t) s = .next v ∧ v.wm.restarting = some .button ∧ v.pkgs = w.pkgs) ∧
    (w.wmAlive = false → exec (.buttonHold t) s = .next w) ∧
    (∀ x, ∃ v, exec (.buttonPress x t) s = .next v ∧ v.pkgs = w.pkgs)

/-! ### Start-up -/

/-- A tray power-up clears fields, scopes, the tray record and caps, is in bring-up, and enables the gates of the packages 50 ms apart; 180 s
after the first gate a bring-up has failed and its packages go down; the third failure of a confirmed bundle halts the tray with every
package held off; 10 s after a failed one the tray is powered up again. With every criterion met the tray is ready, which ends the
bring-up; degraded once what is left is held in an exception. -/
def Obligations.TrayPowerUpAndBringup : Prop :=
  ∀ (s : State) (t : Nat), let w := s.powerClock t; let u := s.clock t
    (w.input.present = true → w.wm.running = true → exec (.trayPowerUp t) s = .next w) ∧
    (w.input.present = false → w.wm.other.st ≠ .pending → ∃ v, exec (.trayPowerUp t) s = .next v ∧ v.input = { present := true } ∧
      v.wmUp = true ∧ v.tray = .bringUp ∧ v.wm.firstGate = some w.now ∧ v.fields = [] ∧ v.scopes = [] ∧ v.trouble = {} ∧
      v.capTray = 0 ∧ v.capPkg = [] ∧ v.sfTimerMs = 50 ∧
      ((∀ n, (w.pkg n).st = .off ∧ (w.pkg n).latch = 0) → (v.pkg 0).st = .poweringUp ∧ (v.pkg 0).gate = true ∧
        ∀ n : Fin 4, n ≠ 0 → (v.pkg n).gateDue = some (w.now + 50000000 * n.val))) ∧
    (w.wm.firstGate = none → exec (.bringupDeadline t) s = .next w) ∧
    (∀ a, w.wm.firstGate = some a → w.wmUp = true →
      (w.now < a + 180000000000 → exec (.bringupDeadline t) s = .next w) ∧
      (a + 180000000000 ≤ w.now → w.wm.bootsrc = 0 →
        (w.wm.failedBringups < 2 → ∃ v, exec (.bringupDeadline t) s = .next v ∧
          v.wm = { w.wm with failedBringups := w.wm.failedBringups + 1, firstGate := none, retryFrom := some w.now } ∧
          ∀ n, w.goesDown v n .off) ∧
        (w.wm.failedBringups = 2 → w.wm.active.st ≠ .trial → ∃ v, exec (.bringupDeadline t) s = .next v ∧
          v.wm = { w.wm with failedBringups := 3, firstGate := none, halted := true, lastResult := 0x0706 } ∧
          ∀ n, w.goesDown v n .heldOff ∧ ((w.pkg n).st = .off → (v.pkg n).st = .heldOff)))) ∧
    (w.wm.retryFrom = none → exec (.bringupRetry t) s = .next w) ∧
    (∀ a, w.wm.retryFrom = some a → w.wmUp = true →
      (w.now < a + 10000000000 → exec (.bringupRetry t) s = .next w) ∧
      (a + 10000000000 ≤ w.now → ∃ v, exec (.bringupRetry t) s = .next v ∧ v.tray = .bringUp ∧ v.wm.firstGate = some w.now ∧
        v.wm.retryFrom = none ∧ v.fields = [] ∧ v.scopes = [] ∧ v.trouble = {})) ∧
    (u.readyNow = false → exec (.trayReady t) s = .next u) ∧
    (u.serving.isSome = true → u.tray ≠ .ready → u.readyNow = true → ∃ v, exec (.trayReady t) s = .next v ∧ v.tray = .ready ∧
      (u.tray = .bringUp → v.wm.firstGate = none ∧ v.effects = u.effects ∧
        (u.wm.bootsrc = 0 → v.wm.failedBringups = 0 ∧ v.wm.active.st ≠ .trial)) ∧ v.pkgs = u.pkgs ∧ u.memoryKept v) ∧
    (u.degradedNow = false → exec (.trayDegraded t) s = .next u) ∧
    (u.serving.isSome = true → u.tray ≠ .degraded → u.degradedNow = true → ∃ v, exec (.trayDegraded t) s = .next v ∧
      v.tray = .degraded ∧ (u.tray = .bringUp → v.wm.firstGate = none) ∧ v.pkgs = u.pkgs ∧ u.memoryKept v)

/-- With VMGT in its window the chain switch closes and, every slot fitted, five addresses are given and the placement is checked; a slot
silent for the third time leaves the package unplaced. An unassigned, selected agent takes an ASSIGN and selects the next; an answering
one reads and writes, and a frame that does not fit is answered by its status alone. A line stuck low: recovery clocks that mend it leave
every package as it is, a tray-side fault opens every switch, and else those of the packages found stuck or changed; a package whose
switch was closed is UNREACHABLE unless it powers down. A retry that finds every line high and the stored UIDs gives the package its state
back. The poll empties a FIFO, and what it holds reaches the sink once. -/
def Obligations.HeadgateChain : Prop :=
  ((∀ (s : State) (n : Fin 4) (t : Nat), let w := s.powerClock t; let k := w.pkg n
      (k.st = .poweringUp → w.wmUp = true → k.sw = false → (k.rails.any fun r => r.1 = 1) = true → ∃ v,
        exec (.vmgtInWindow n t) s = .next v ∧ (v.pkg n).sw = true ∧ (v.pkg n).inWin.contains 1 = true ∧
        (∀ d ∈ packageDies w.span.num n, (w.die d).boot.st = .off → (v.die d).boot.st = .inReset) ∧ w.otherPkgs v n ∧ w.memoryKept v ∧
        (k.enumerated = 0 → (∀ d ∈ packageDies w.span.num n, (w.die d).boot.fitted = true ∧ (w.die d).boot.testMode = false) →
          (v.pkg n).enumerated = 5 ∧ (v.pkg n).enumDone = true ∧
          ∀ d ∈ packageDies w.span.num n, (v.die d).boot.addr = BitVec.ofNat 8 d.addr ∧ (v.die d).boot.selOut = true)) ∧
      (∀ slot : Fin 5, k.sw = true → k.enumDone = false → k.enumerated = slot.val → w.wmUp = true →
        (k.tries < 2 → ∃ v, exec (.assignNoAnswer n slot t) s = .next v ∧ v.pkg n = { k with tries := k.tries + 1 } ∧
          w.otherPkgs v n ∧ w.onlyChanges v [.pkgs]) ∧
        (2 ≤ k.tries → ∃ v, exec (.assignNoAnswer n slot t) s = .next v ∧ (v.pkg n).enumDone = true ∧ (v.pkg n).placed = false ∧
          (v.pkg n).lastStatus = 0x0430 ∧ w.otherPkgs v n ∧ w.memoryKept v))) ∧
    (∀ (s : State) (d : DieId) (a : Byte), s.agentUp d = true → (s.die d).boot.fitted = true → (s.die d).boot.testMode = false →
      (s.die d).boot.addr = 0 →
      (s.selIn d = false → exec (.chainAssign d a) s = .next s) ∧
      (s.selIn d = true → ∃ v, exec (.chainAssign d a) s = .next v ∧ (v.die d).boot.addr = a ∧ (v.die d).boot.selOut = true ∧
        .chain a 0x81 [Config.chainStatus true] ∈ v.effects ∧ s.memoryKept v)) ∧
    (∀ (s : State) (d : DieId) (o n : Nat) (data : List Byte), let b := (s.die d).boot.answersAt
      (s.answers d = false → exec (.chainRead d o n) s = .next s ∧ exec (.chainWrite d o data) s = .next s) ∧
      (s.answers d = true →
        (o + n ≤ 0x1000000 → n < 65536 → exec (.chainRead d o n) s =
          .next (s.emit (.chain b 0x82 (Config.chainStatus true :: s.mgmtRead d o n)))) ∧
        (0x1000000 < o + n ∨ 65536 ≤ n → exec (.chainRead d o n) s = .next (s.emit (.chain b 0x82 [Config.chainStatus false]))) ∧
        (o % 4 ≠ 0 ∨ data.length % 4 ≠ 0 ∨ 0x1000000 < o + data.length →
          exec (.chainWrite d o data) s = .next (s.emit (.chain b 0x83 [Config.chainStatus false]))) ∧
        (o % 4 = 0 → data.length % 4 = 0 → o + data.length ≤ 0x1000000 → ∃ v, exec (.chainWrite d o data) s = .next v ∧
          .chain (v.die d).boot.answersAt 0x83 [Config.chainStatus true] ∈ v.effects ∧ s.memoryKept v) ∧
        (∀ c l, (s.die d).trb.fifo = c :: l → ∃ v, exec (.chainWrite d 0x2000 [0, 1, 0, 0]) s = .next v ∧ (v.die d).trb.fifo = l ∧
          (v.die d).trb.log = (s.die d).trb.log ∧ s.otherDies v d ∧ s.onlyChanges v [.dies, .effects])))) ∧
  (∀ (s : State) (t : Nat), let w := s.powerClock t
      (w.wmUp = false → ∀ x, exec (.chainStuck x t) s = .next w) ∧
      (w.wmUp = true →
        (∀ x : StuckLine, x.recovers = true → ∃ v, exec (.chainStuck x t) s = .next v ∧ v.pkgs = w.pkgs ∧ w.memoryKept v) ∧
        (∀ x : StuckLine, x.recovers = false → ∃ v, exec (.chainStuck x t) s = .next v ∧ w.memoryKept v ∧
          ∀ n, ((x.traySide = true ∨ n ∈ x.pkgs ∨ n ∈ x.uidChanged) → (w.pkg n).sw = true → (v.pkg n).sw = false ∧
              ((w.pkg n).st ≠ .poweringDown → (v.pkg n).st = .unreachable ∧ (v.pkg n).beforeIsolation = (w.pkg n).st) ∧
              ((w.pkg n).st = .poweringDown → (v.pkg n).st = .poweringDown)) ∧
            (x.traySide = false → n ∉ x.pkgs → n ∉ x.uidChanged → v.pkg n = w.pkg n)) ∧
        (∀ n, (w.pkg n).st = .unreachable →
          (∀ b, exec (.chainRetry n false b t) s = .next w ∧ exec (.chainRetry n b false t) s = .next w) ∧
          ((w.pkg n).beforeIsolation ≠ .poweringUp → ∃ v, exec (.chainRetry n true true t) s = .next v ∧
            (v.pkg n).st = (w.pkg n).beforeIsolation ∧ (v.pkg n).sw = true ∧ w.otherPkgs v n ∧ w.memoryKept v))) ∧
      ((∀ d ∈ w.ownDies, w.agentUp d = true → (w.die d).trb.fifo = []) → exec (.chainAlarmPoll t) s = .next w) ∧
      (∀ d c, d ∈ w.ownDies → w.agentUp d = true → (w.die d).trb.fifo = [c] → (∀ e ∈ w.ownDies, e ≠ d → (w.die e).trb.fifo = []) →
        c.opcode = 0x50 → c.record.sev = 2 → c.record.isFC = false → w.actedOn w.sink c.record.key = false → ∃ v,
          exec (.chainAlarmPoll t) s = .next v ∧ (v.die d).trb.fifo = [] ∧ v.actedOn w.sink c.record.key = true ∧
          (w.trouble.records.length < 64 → v.trouble.records = w.trouble.records ++ [c.record]) ∧ v.pkgs = w.pkgs ∧ w.memoryKept v))

/-- A component that reaches a die and passes its check loads: a compute die then runs, an X with its second; a bad one is loaded again, at
most twice. HBM trained is noted, or its failure; scrubbed, every byte of it is 0 and no other die's memory changes. -/
def Obligations.DiesStartTheirFirmware : Prop :=
  ∀ (s : State) (d : DieId) (t : Nat), let w := s.powerClock t; let b := (w.die d).boot
    (∀ ok, w.canLoad d = false → exec (.firmwareComponentArrival d ok t) s = .next w) ∧
    (w.canLoad d = true →
      (b.loads < 2 → ∃ v, exec (.firmwareComponentArrival d false t) s = .next v ∧ (v.die d).boot = { b with loads := b.loads + 1 } ∧
        w.otherDies v d ∧ w.onlyChanges v [.dies]) ∧
      (2 ≤ b.loads → ∃ v, exec (.firmwareComponentArrival d false t) s = .next v ∧ (v.die d).boot.loadFailed = true ∧
        (v.die d).boot.st = .bootRom ∧ w.memoryKept v) ∧
      (d.isCompute = true → ∃ v, exec (.firmwareComponentArrival d true t) s = .next v ∧
        (v.die d).boot = { b with comps := b.comps + 1, loads := 0, st := .firmware } ∧
        ((∀ f, w.fieldOf d = some f → (w.field f).reloadDue = none) → w.otherDies v d ∧ w.onlyChanges v [.dies])) ∧
      (d.isCompute = false → b.comps = 0 → ∃ v, exec (.firmwareComponentArrival d true t) s = .next v ∧
        (v.die d).boot = { b with comps := 1, loads := 0 } ∧ w.otherDies v d ∧ w.onlyChanges v [.dies]) ∧
      (d.isCompute = false → 0 < b.comps → ∃ v, exec (.firmwareComponentArrival d true t) s = .next v ∧ v.runs d = true ∧
        (∀ p ∈ diePorts d, (v.port p).link.enabled = true) ∧ NMap.get (v.pkg d.pkg).trayCaps 0 0 = w.capTray ∧
        NMap.get (v.pkg d.pkg).trayCaps 1 0 = w.wm.redfishTray ∧ NMap.get (v.pkg d.pkg).trayCaps 2 0 = w.protTrayCap ∧
        w.memoryKept v)) ∧
    (d.isCompute = true → w.runs d = true → d.tray = w.span.num →
      (b.hbmTrained = false → b.hbmFailed = false →
        (∃ v, exec (.hbmTrainingDone d true t) s = .next v ∧ (v.die d).boot = { b with hbmTrained := true } ∧ w.otherDies v d ∧
          w.onlyChanges v [.dies]) ∧
        (∃ v, exec (.hbmTrainingDone d false t) s = .next v ∧ (v.die d).boot = { b with hbmFailed := true } ∧ w.memoryKept v)) ∧
      (b.hbmTrained = false → exec (.hbmScrubDone d t) s = .next w) ∧
      (b.hbmTrained = true → b.hbmScrubbed = false → ∃ v, exec (.hbmScrubDone d t) s = .next v ∧
        (v.die d).boot = { b with hbmScrubbed := true } ∧ (∀ a, Memory.get (v.die d).mem a = 0) ∧ (v.die d).poison = [] ∧
        w.otherDies v d ∧ w.onlyChanges v [.dies, .links]))

/-! ### Errors of dies, handling, samples -/

/-- RIDER_FAULT, DIE_UE and FABRIC_UE of a die that runs enter its log; a die that does not run raises none; DIE_UE contains the field that
holds the die. HANDLING_DONE clears its bit and no other; one set for 100 ms is HANDLER_HUNG. A pad overflow takes a port out of UP. A
port of a die whose tally is a multiple of 1,024 takes one sample. -/
def Obligations.ErrorsHandlingAndSamples : Prop :=
  ∀ (s : State) (d : DieId) (t : Nat), let u := s.clock t
    (u.dieUp d = false → exec (.dieUe d t) s = .next u ∧ exec (.fabricUe d t) s = .next u ∧ ∀ n, exec (.riderFault d n t) s = .next u) ∧
    (u.dieUp d = true → (u.die d).trb.log = [] →
      (∀ n, ∃ v r, exec (.riderFault d n t) s = .next v ∧ (v.die d).trb.log = [r] ∧ r.code = 0xE807 ∧ r.locKind = 4 ∧ r.location = n ∧
        r.field = u.fieldByte d ∧ u.memoryKept v ∧ u.onlyChanges v [.dies, .fields]) ∧
      (∃ v r, exec (.dieUe d t) s = .next v ∧ (v.die d).trb.log = [r] ∧ r.code = 0xE904 ∧ r.field = u.fieldByte d ∧
        (∀ f, u.fieldOf d = some f → (v.field f).containing = true) ∧ u.memoryKept v ∧ u.onlyChanges v [.dies, .fields]) ∧
      (∃ v r, exec (.fabricUe d t) s = .next v ∧ (v.die d).trb.log = [r] ∧ r.code = 0xE905 ∧ u.memoryKept v ∧
        u.onlyChanges v [.dies, .fields])) ∧
    (∀ c : Fin 9,
      (∃ v, exec (.handlingDone d c t) s = .next v ∧
        (∀ e, e ∈ (v.die d).trb.handling ↔ e ∈ (u.die d).trb.handling ∧ e.1 ≠ c.val + 1) ∧ (v.die d).trb.log = (u.die d).trb.log ∧
        u.otherDies v d ∧ u.onlyChanges v [.dies]) ∧
      (∀ e, ((u.die d).trb.handling.find? fun e => e.1 = c.val + 1) = some e →
        (u.now < e.2 + 100000000 → exec (.handlingTimeout d c t) s = .next u) ∧
        (e.2 + 100000000 ≤ u.now → (u.die d).trb.log = [] → ∃ v r, exec (.handlingTimeout d c t) s = .next v ∧
          (v.die d).trb.log = [r] ∧ r.code = 0xE808 ∧ r.info = c.val + 1 ∧ u.memoryKept v ∧ u.onlyChanges v [.dies, .fields]))) ∧
    (∀ p, (u.port p).link.st = .up → u.dieUp p.die = true → ∃ v, exec (.pinningPadOverflow p t) s = .next v ∧
      (v.port p).link.st ≠ .up ∧ u.otherPorts v p ∧ u.memoryKept v) ∧
    (∃ v, exec (.histogramSample t) s = .next v ∧ u.onlyChanges v [.links] ∧
      ∀ p, (p.die ∈ u.allDies → p ∈ diePorts p.die → u.dieUp p.die = true → (u.die p.die).tally.counting = true →
          u.tallyOf p.die % 1024 = 0 → (v.port p).histTray = (u.port p).histTray.sample ((u.port p).depths (profileOf p = 0) none)) ∧
        (u.tallyOf p.die % 1024 ≠ 0 → v.port p = u.port p))

/-- TRB_FEC of a die takes the first error of severity deferred or above, keeps it whatever error follows, and holds none again once TRB_CLEAR
clears it. -/
def Obligations.FirstErrorCaptureHoldsTheFirst : Prop :=
  ∀ (s : State) (d : DieId) (e : Err), let v := s.report d e
    (∀ r, (s.die d).trb.fec = some r → (v.die d).trb.fec = some r) ∧
    ((s.die d).trb.fec = none → codeSev e.code = 0 → (s.die d).trb.handles (codeClass e.code) = false → (v.die d).trb.fec = none) ∧
    ((s.die d).trb.fec = none → 1 ≤ codeSev e.code → (s.die d).trb.handles (codeClass e.code) = false → ∃ r,
      (v.die d).trb.fec = some r ∧ r.code = e.code ∧ r.die = d.addr ∧ r.location = e.location ∧ r.info = e.info) ∧
    (∀ x, x ≠ d → (v.die x).trb.fec = (s.die x).trb.fec) ∧
    (∀ mask : Half, ((s.clearDieRecord d mask).die d).trb.fec = if mask.getLsbD 1 then none else (s.die d).trb.fec)

/-! ### What holds of every step -/

/-- Whatever the state and the operands, a command changes no part of the tray but those listed for it, and the block then holds the queue it
was given. -/
def Obligations.CommandsTouchTheirPartsOnly : Prop :=
  ∀ (c : Instr) (s t : State), exec c s = .next t → s.onlyChanges t (touches c)

/-- From every state in its room a step leads to one in its room: memories in their canonical form, 32 log entries, 8 alarm copies and 64
waiting alarms of a die, 64 records of the tray. -/
def Obligations.EveryStepKeepsTheTrayInItsRoom : Prop :=
  ∀ s t : State, s.fits → step s = .next t → t.fits

/-- The side-flow request timer stays from 1 ms to 1 s at every step. -/
def Obligations.EveryStepKeepsTheTimerInRange : Prop :=
  (∀ s t : State, 1 ≤ s.sfTimerMs → s.sfTimerMs ≤ 1000 → step s = .next t → 1 ≤ t.sfTimerMs ∧ t.sfTimerMs ≤ 1000)
end

