-- ==== Sys2Proof/Laws/Frame.lean ====
section
/-! SUPPORT. Sys2Proof/Laws/Frame.lean: how frames compose. -/

namespace Sys2Proof.Machine

/-- Nothing changes from a state to itself. -/
theorem only_refl (s : State) (l : List Part) : s.onlyChanges s l := ⟨by intro p _; cases p <;> rfl⟩

/-- Two parts that agree in turn agree. -/
theorem agree_trans {s t u : State} {p : Part} (h : s.agree t p) (g : t.agree u p) : s.agree u p := by
  cases p <;> exact Eq.trans g h

/-- A step that changes the parts of a smaller list, after what changed the parts of a larger one. -/
theorem only_step {s u t : State} {k l : List Part} (h : u.onlyChanges t k) (hk : ∀ p ∈ k, p ∈ l) (hu : s.onlyChanges u l) :
    s.onlyChanges t l := ⟨fun p hp => agree_trans (hu.agrees p hp) (h.agrees p fun q => hp (hk p q))⟩

/-- A choice changes what either branch changes. -/
theorem only_ite {s t u : State} {l : List Part} {c : Prop} [Decidable c] (h : s.onlyChanges t l) (g : s.onlyChanges u l) :
    s.onlyChanges (if c then t else u) l := by split <;> assumption

/-- A loop changes what its passes change. -/
theorem only_forEach {α : Type} {s u : State} {l : List Part} {as : List α} {g : State → α → State} (hu : s.onlyChanges u l)
    (h : ∀ v a, s.onlyChanges v l → s.onlyChanges (g v a) l) : s.onlyChanges (u.forEach as g) l := by
  induction as generalizing u with
  | nil => exact hu
  | cons a r ih => exact ih (h u a hu)

theorem only_foldl {α : Type} {s u : State} {l : List Part} {as : List α} {g : State → α → State} (hu : s.onlyChanges u l)
    (h : ∀ v a, s.onlyChanges v l → s.onlyChanges (g v a) l) : s.onlyChanges (as.foldl g u) l := only_forEach hu h

/-- An outcome that, where it is a next state, changes only the listed parts. -/
structure Out.only (s : State) (o : Out) (l : List Part) : Prop where
  keeps : ∀ t, o = .next t → s.onlyChanges t l

theorem next_only {s t : State} {l : List Part} (h : s.onlyChanges t l) : Out.only s (.next t) l :=
  ⟨by intro u hu; cases hu; exact h⟩

theorem fault_only {s : State} {l : List Part} (f : Fault) : Out.only s (.fault f) l := ⟨by intro u hu; cases hu⟩

theorem out_ite {s : State} {o p : Out} {l : List Part} {c : Prop} [Decidable c] (h : Out.only s o l) (g : Out.only s p l) :
    Out.only s (if c then o else p) l := by split <;> assumption

/-- A pair's state changes what the operation that made the pair changes. -/
theorem only_pair {α : Type} {s t : State} {l : List Part} {x : State × α} {a : α} (h : x = (t, a)) (g : s.onlyChanges x.1 l) :
    s.onlyChanges t l := by subst h; exact g

/-- An optional state that, where there is one, changes only the listed parts; and one with a value beside it. -/
structure OptOnly (s : State) (o : Option State) (l : List Part) : Prop where
  keeps : ∀ t, o = some t → s.onlyChanges t l
structure OptPairOnly (s : State) (o : Option (State × Bool)) (l : List Part) : Prop where
  keeps : ∀ t b, o = some (t, b) → s.onlyChanges t l

theorem some_only {s t : State} {l : List Part} (h : s.onlyChanges t l) : OptOnly s (some t) l := ⟨by intro u hu; cases hu; exact h⟩
theorem none_only {s : State} {l : List Part} : OptOnly s none l := ⟨by intro u hu; cases hu⟩
theorem opt_ite {s : State} {o p : Option State} {l : List Part} {c : Prop} [Decidable c] (h : OptOnly s o l) (g : OptOnly s p l) :
    OptOnly s (if c then o else p) l := by split <;> assumption
theorem opt_weaken {s : State} {o : Option State} {k l : List Part} (h : OptOnly s o k) (hk : ∀ p ∈ k, p ∈ l) : OptOnly s o l :=
  ⟨fun t ht => only_step (h.keeps t ht) hk (only_refl _ _)⟩
theorem somePair_only {s t : State} {b : Bool} {l : List Part} (h : s.onlyChanges t l) : OptPairOnly s (some (t, b)) l :=
  ⟨by intro u c hu; cases hu; exact h⟩
theorem nonePair_only {s : State} {l : List Part} : OptPairOnly s none l := ⟨by intro u c hu; cases hu⟩
theorem optPair_ite {s : State} {o p : Option (State × Bool)} {l : List Part} {c : Prop} [Decidable c] (h : OptPairOnly s o l)
    (g : OptPairOnly s p l) : OptPairOnly s (if c then o else p) l := by split <;> assumption
/-- The state an optional operation made. -/
theorem only_opt {s u t : State} {o : Option State} {k l : List Part} (h : OptOnly u o k) (e : o = some t) (hk : ∀ p ∈ k, p ∈ l)
    (hu : s.onlyChanges u l) : s.onlyChanges t l := only_step (h.keeps t e) hk hu
theorem only_optPair {s u t : State} {b : Bool} {o : Option (State × Bool)} {k l : List Part} (h : OptPairOnly u o k)
    (e : o = some (t, b)) (hk : ∀ p ∈ k, p ∈ l) (hu : s.onlyChanges u l) : s.onlyChanges t l := only_step (h.keeps t b e) hk hu
/-- An optional state, or the state there was. -/
theorem only_getD {s u : State} {o : Option State} {k l : List Part} (h : OptOnly u o k) (hk : ∀ p ∈ k, p ∈ l)
    (hu : s.onlyChanges u l) : s.onlyChanges (o.getD u) l := by
  cases o with
  | none => exact hu
  | some t => exact only_step (h.keeps t rfl) hk hu
/-- The state of a pair an operation made. -/
theorem only_of_pair {α : Type} {s u t : State} {x : State × α} {a : α} {k l : List Part} (h : u.onlyChanges x.1 k) (e : x = (t, a))
    (hk : ∀ p ∈ k, p ∈ l) (hu : s.onlyChanges u l) : s.onlyChanges t l := only_step (only_pair e h) hk hu

/-- Serving a request: what the command's body changes, and the clock, the scopes, the channels and what their deadlines raise. -/
theorem serve_only {s u : State} {l : List Part} {r : MReq} {c : Cmd} {self : Instr} {early : State → Option Nat} {body : State → State}
    (hs : ∀ v, s.onlyChanges v l → s.onlyChanges ((v.setResumed false).clock r.t) l)
    (h1 : ∀ v, s.onlyChanges v l → s.onlyChanges v.settleOwn l)
    (h2 : ∀ v n, s.onlyChanges v l → s.onlyChanges (v.forgetSeized r n) l)
    (h3 : ∀ v o e, s.onlyChanges v l → s.onlyChanges (v.reply r o e []) l)
    (h4 : ∀ v k, s.onlyChanges v l → s.onlyChanges (v.tokenBeat k) l)
    (h5 : ∀ v w, s.onlyChanges v l → s.onlyChanges (v.setWaiting w) l)
    (hb : ∀ v, s.onlyChanges v l → s.onlyChanges (body v) l) (hu : s.onlyChanges u l) :
    s.onlyChanges (u.serve r c self early body) l := by
  unfold State.serve
  extract_lets again s1 s2
  refine only_ite (hs _ hu) ?_
  split
  · apply h3; exact only_ite (h2 _ _ (h1 _ (hs _ hu))) (h1 _ (hs _ hu))
  · split
    · exact h3 _ _ _ (h1 _ (hs _ hu))
    · exact only_ite (h5 _ _ (h4 _ _ (h1 _ (hs _ hu)))) (hb _ (h4 _ _ (h1 _ (hs _ hu))))

end Sys2Proof.Machine
end

