-- ==== Sys2Proof/Laws/Frames.lean ====
section
/-! SUPPORT. Sys2Proof/Laws/Frames.lean: one lemma per operation and per command: the parts of State it can change. -/

namespace Sys2Proof.Machine

set_option linter.all false

theorem State.setDie_only (s : State) (d : DieId) (x : Die) : s.onlyChanges (State.setDie s d x) [.dies] := by
  unfold State.setDie; exact ⟨by intro p hp; cases p <;> first | rfl | exact absurd (by decide) hp⟩
theorem State.onDie_only (s : State) (d : DieId) (g : Die → Die) : s.onlyChanges (State.onDie s d g) [.dies] := by
  unfold State.onDie
  repeat' first
    | with_reducible first
        | assumption | apply only_refl | decide | apply only_ite | apply only_step (State.setDie_only ..)
    | (intro v a hv) | (intro v hv) | extract_lets | split | (dsimp +zetaDelta only [])
theorem State.setPort_only (s : State) (p : PortId) (x : Port) : s.onlyChanges (State.setPort s p x) [.links] := by
  unfold State.setPort; exact ⟨by intro p hp; cases p <;> first | rfl | exact absurd (by decide) hp⟩
theorem State.onPort_only (s : State) (p : PortId) (g : Port → Port) : s.onlyChanges (State.onPort s p g) [.links] := by
  unfold State.onPort
  repeat' first
    | with_reducible first
        | assumption | apply only_refl | decide | apply only_ite | apply only_step (State.setPort_only ..)
    | (intro v a hv) | (intro v hv) | extract_lets | split | (dsimp +zetaDelta only [])
theorem State.onLink_only (s : State) (p : PortId) (g : Link → Link) : s.onlyChanges (State.onLink s p g) [.links] := by
  unfold State.onLink
  repeat' first
    | with_reducible first
        | assumption | apply only_refl | decide | apply only_ite | apply only_step (State.onPort_only ..)
    | (intro v a hv) | (intro v hv) | extract_lets | split | (dsimp +zetaDelta only [])
theorem State.setField_only (s : State) (f : Fin 8) (x : Field) : s.onlyChanges (State.setField s f x) [.fields] := by
  unfold State.setField; exact ⟨by intro p hp; cases p <;> first | rfl | exact absurd (by decide) hp⟩
theorem State.onField_only (s : State) (f : Fin 8) (g : Field → Field) : s.onlyChanges (State.onField s f g) [.fields] := by
  unfold State.onField
  repeat' first
    | with_reducible first
        | assumption | apply only_refl | decide | apply only_ite | apply only_step (State.setField_only ..)
    | (intro v a hv) | (intro v hv) | extract_lets | split | (dsimp +zetaDelta only [])
theorem State.setScope_only (s : State) (n : Fin 9) (x : Scope) : s.onlyChanges (State.setScope s n x) [.scopes] := by
  unfold State.setScope; exact ⟨by intro p hp; cases p <;> first | rfl | exact absurd (by decide) hp⟩
theorem State.setHost_only (s : State) (n : Fin 4) (x : HostPort) : s.onlyChanges (State.setHost s n x) [.ports] := by
  unfold State.setHost; exact ⟨by intro p hp; cases p <;> first | rfl | exact absurd (by decide) hp⟩
theorem State.onHost_only (s : State) (n : Fin 4) (g : HostPort → HostPort) : s.onlyChanges (State.onHost s n g) [.ports] := by
  unfold State.onHost
  repeat' first
    | with_reducible first
        | assumption | apply only_refl | decide | apply only_ite | apply only_step (State.setHost_only ..)
    | (intro v a hv) | (intro v hv) | extract_lets | split | (dsimp +zetaDelta only [])
theorem State.setChan_only (s : State) (n : Fin 4) (k : Fin 9) (x : Chan) : s.onlyChanges (State.setChan s n k x) [.ports] := by
  unfold State.setChan
  repeat' first
    | with_reducible first
        | assumption | apply only_refl | decide | apply only_ite | apply only_step (State.onHost_only ..)
    | (intro v a hv) | (intro v hv) | extract_lets | split | (dsimp +zetaDelta only [])
theorem State.setPkg_only (s : State) (n : Fin 4) (x : Pkg) : s.onlyChanges (State.setPkg s n x) [.pkgs] := by
  unfold State.setPkg; exact ⟨by intro p hp; cases p <;> first | rfl | exact absurd (by decide) hp⟩
theorem State.onPkg_only (s : State) (n : Fin 4) (g : Pkg → Pkg) : s.onlyChanges (State.onPkg s n g) [.pkgs] := by
  unfold State.onPkg
  repeat' first
    | with_reducible first
        | assumption | apply only_refl | decide | apply only_ite | apply only_step (State.setPkg_only ..)
    | (intro v a hv) | (intro v hv) | extract_lets | split | (dsimp +zetaDelta only [])
theorem State.setWaiting_only (s : State) (x : List Held) : s.onlyChanges (State.setWaiting s x) [.waiting] := by
  unfold State.setWaiting; exact ⟨by intro p hp; cases p <;> first | rfl | exact absurd (by decide) hp⟩
theorem State.setResumed_only (s : State) (x : Bool) : s.onlyChanges (State.setResumed s x) [.resumed] := by
  unfold State.setResumed; exact ⟨by intro p hp; cases p <;> first | rfl | exact absurd (by decide) hp⟩
theorem State.setWmReply_only (s : State) (x : Option Resp) : s.onlyChanges (State.setWmReply s x) [.wmReply] := by
  unfold State.setWmReply; exact ⟨by intro p hp; cases p <;> first | rfl | exact absurd (by decide) hp⟩
theorem State.setBundle_only (s : State) (x : Dword) : s.onlyChanges (State.setBundle s x) [.bundle] := by
  unfold State.setBundle; exact ⟨by intro p hp; cases p <;> first | rfl | exact absurd (by decide) hp⟩
theorem State.setTray_only (s : State) (x : TraySt) : s.onlyChanges (State.setTray s x) [.tray] := by
  unfold State.setTray; exact ⟨by intro p hp; cases p <;> first | rfl | exact absurd (by decide) hp⟩
theorem State.setSpan_only (s : State) (x : Span) : s.onlyChanges (State.setSpan s x) [.span] := by
  unfold State.setSpan; exact ⟨by intro p hp; cases p <;> first | rfl | exact absurd (by decide) hp⟩
theorem State.setPeers_only (s : State) (x : List TrayInfo) : s.onlyChanges (State.setPeers s x) [.peers] := by
  unfold State.setPeers; exact ⟨by intro p hp; cases p <;> first | rfl | exact absurd (by decide) hp⟩
theorem State.setServing_only (s : State) (x : Option (Fin 4)) : s.onlyChanges (State.setServing s x) [.serving] := by
  unfold State.setServing; exact ⟨by intro p hp; cases p <;> first | rfl | exact absurd (by decide) hp⟩
theorem State.setTargets_only (s : State) (x : NMap (Option (Fin 4))) : s.onlyChanges (State.setTargets s x) [.targets] := by
  unfold State.setTargets; exact ⟨by intro p hp; cases p <;> first | rfl | exact absurd (by decide) hp⟩
theorem State.setFields_only (s : State) (x : NMap Field) : s.onlyChanges (State.setFields s x) [.fields] := by
  unfold State.setFields; exact ⟨by intro p hp; cases p <;> first | rfl | exact absurd (by decide) hp⟩
theorem State.setDies_only (s : State) (x : NMap Die) : s.onlyChanges (State.setDies s x) [.dies] := by
  unfold State.setDies; exact ⟨by intro p hp; cases p <;> first | rfl | exact absurd (by decide) hp⟩
theorem State.setLinks_only (s : State) (x : NMap Port) : s.onlyChanges (State.setLinks s x) [.links] := by
  unfold State.setLinks; exact ⟨by intro p hp; cases p <;> first | rfl | exact absurd (by decide) hp⟩
theorem State.setLedgerEpoch_only (s : State) (x : Nat) : s.onlyChanges (State.setLedgerEpoch s x) [.ledgerEpoch] := by
  unfold State.setLedgerEpoch; exact ⟨by intro p hp; cases p <;> first | rfl | exact absurd (by decide) hp⟩
theorem State.setLeader_only (s : State) (x : Leader) : s.onlyChanges (State.setLeader s x) [.leader] := by
  unfold State.setLeader; exact ⟨by intro p hp; cases p <;> first | rfl | exact absurd (by decide) hp⟩
theorem State.putCleaner_only (s : State) (x : Cleaner) : s.onlyChanges (State.putCleaner s x) [.cleaner] := by
  unfold State.putCleaner; exact ⟨by intro p hp; cases p <;> first | rfl | exact absurd (by decide) hp⟩
theorem State.setTrouble_only (s : State) (x : Trouble) : s.onlyChanges (State.setTrouble s x) [.trouble] := by
  unfold State.setTrouble; exact ⟨by intro p hp; cases p <;> first | rfl | exact absurd (by decide) hp⟩
theorem State.setWm_only (s : State) (x : Wm) : s.onlyChanges (State.setWm s x) [.wm] := by
  unfold State.setWm; exact ⟨by intro p hp; cases p <;> first | rfl | exact absurd (by decide) hp⟩
theorem State.setInput_only (s : State) (x : Input) : s.onlyChanges (State.setInput s x) [.input] := by
  unfold State.setInput; exact ⟨by intro p hp; cases p <;> first | rfl | exact absurd (by decide) hp⟩
theorem State.setCapTray_only (s : State) (x : Nat) : s.onlyChanges (State.setCapTray s x) [.capTray] := by
  unfold State.setCapTray; exact ⟨by intro p hp; cases p <;> first | rfl | exact absurd (by decide) hp⟩
theorem State.setCapPkg_only (s : State) (x : NMap Nat) : s.onlyChanges (State.setCapPkg s x) [.capPkg] := by
  unfold State.setCapPkg; exact ⟨by intro p hp; cases p <;> first | rfl | exact absurd (by decide) hp⟩
theorem State.setTrayHolder_only (s : State) (x : Option Waiting) : s.onlyChanges (State.setTrayHolder s x) [.trayHolder] := by
  unfold State.setTrayHolder; exact ⟨by intro p hp; cases p <;> first | rfl | exact absurd (by decide) hp⟩
theorem State.setSfTimer_only (s : State) (x : Nat) : s.onlyChanges (State.setSfTimer s x) [.sfTimerMs] := by
  unfold State.setSfTimer; exact ⟨by intro p hp; cases p <;> first | rfl | exact absurd (by decide) hp⟩
theorem State.onWm_only (s : State) (g : Wm → Wm) : s.onlyChanges (State.onWm s g) [.wm] := by
  unfold State.onWm; exact ⟨by intro p hp; cases p <;> first | rfl | exact absurd (by decide) hp⟩
theorem State.onTile_only (s : State) (d : DieId) (n : Nat) (g : Tile → Tile) : s.onlyChanges (State.onTile s d n g) [.dies]
    := by
  unfold State.onTile
  repeat' first
    | with_reducible first
        | assumption | apply only_refl | decide | apply only_ite | apply only_step (State.onDie_only ..)
    | (intro v a hv) | (intro v hv) | extract_lets | split | (dsimp +zetaDelta only [])
theorem State.emit_only (s : State) (e : Effect) : s.onlyChanges (State.emit s e) [.effects] := by
  unfold State.emit; exact ⟨by intro p hp; cases p <;> first | rfl | exact absurd (by decide) hp⟩
theorem State.spend_only (s : State) : s.onlyChanges (State.spend s) [.free] := by
  unfold State.spend; exact ⟨by intro p hp; cases p <;> first | rfl | exact absurd (by decide) hp⟩
theorem State.tick_only (s : State) (n : Nat) : s.onlyChanges (State.tick s n) [.now, .dies] := by
  unfold State.tick; exact ⟨by intro p hp; cases p <;> first | rfl | exact absurd (by decide) hp⟩
theorem State.clock_only (s : State) (t : Nat) : s.onlyChanges (State.clock s t) [.now, .dies] := by
  unfold State.clock
  repeat' first
    | with_reducible first
        | assumption | apply only_refl | decide | apply only_ite | apply only_step (State.tick_only ..)
    | (intro v a hv) | (intro v hv) | extract_lets | split | (dsimp +zetaDelta only [])
theorem State.summarise_only (s : State) (i : Nat) : s.onlyChanges (State.summarise s i) [.trouble] := by
  unfold State.summarise
  repeat' first
    | with_reducible first
        | assumption | apply only_refl | decide | apply only_ite | apply only_step (State.setTrouble_only ..)
    | (intro v a hv) | (intro v hv) | extract_lets | split | (dsimp +zetaDelta only [])
theorem State.raise_only (s : State) (n : Fin 4) (v : Nat) : s.onlyChanges (State.raise s n v) [.effects, .ports] := by
  unfold State.raise
  repeat' first
    | with_reducible first
        | assumption | apply only_refl | decide | apply only_ite | apply only_step (State.emit_only ..)
        | apply only_step (State.setHost_only ..)
    | (intro v a hv) | (intro v hv) | extract_lets | split | (dsimp +zetaDelta only [])
theorem State.containField_only (s : State) (f : Fin 8) : s.onlyChanges (State.containField s f) [.fields] := by
  unfold State.containField
  repeat' first
    | with_reducible first
        | assumption | apply only_refl | decide | apply only_ite | apply only_step (State.setField_only ..)
    | (intro v a hv) | (intro v hv) | extract_lets | split | (dsimp +zetaDelta only [])
theorem State.containTray_only (s : State) : s.onlyChanges (State.containTray s) [.tray, .fields] := by
  unfold State.containTray
  repeat' first
    | with_reducible first
        | assumption | apply only_refl | decide | apply only_ite | apply only_step (State.containField_only ..)
        | apply only_step (State.setTray_only ..) | apply only_step (State.onField_only ..) | apply only_forEach
    | (intro v a hv) | (intro v hv) | extract_lets | split | (dsimp +zetaDelta only [])
theorem State.undelivered_only (s : State) (field die vector : Nat) : s.onlyChanges (State.undelivered s field die vector)
    [.dies, .trouble] := by
  unfold State.undelivered
  repeat' first
    | with_reducible first
        | assumption | apply only_refl | decide | apply only_ite | apply only_step (State.summarise_only ..)
        | apply only_step (State.setTrouble_only ..) | apply only_step (State.onDie_only ..)
    | (intro v a hv) | (intro v hv) | extract_lets | split | (dsimp +zetaDelta only [])
theorem State.notify_only (s : State) (n : Fin 9) (v : Nat) : s.onlyChanges (State.notify s n v) [.effects, .ports, .dies,
    .trouble] := by
  unfold State.notify
  repeat' first
    | with_reducible first
        | assumption | apply only_refl | decide | apply only_ite | apply only_step (State.undelivered_only ..)
        | apply only_step (State.raise_only ..)
    | (intro v a hv) | (intro v hv) | extract_lets | split | (dsimp +zetaDelta only [])
theorem State.sinkTake_only (s : State) (r : Rec) : s.onlyChanges (State.sinkTake s r) [.effects, .tray, .ports, .fields,
    .dies, .trouble] := by
  unfold State.sinkTake
  repeat' first
    | with_reducible first
        | assumption | apply only_refl | decide | apply only_ite | apply only_step (State.notify_only ..)
        | apply only_step (State.containTray_only ..) | apply only_step (State.summarise_only ..)
        | apply only_step (State.setTrouble_only ..) | apply only_forEach
    | (intro v a hv) | (intro v hv) | extract_lets | split | (dsimp +zetaDelta only [])
theorem State.noteActed_only (s : State) (d : DieId) (k : ActedKey) : s.onlyChanges (State.noteActed s d k) [.dies] := by
  unfold State.noteActed
  repeat' first
    | with_reducible first
        | assumption | apply only_refl | decide | apply only_ite | apply only_step (State.onDie_only ..)
    | (intro v a hv) | (intro v hv) | extract_lets | split | (dsimp +zetaDelta only [])
theorem State.report_only (s : State) (d : DieId) (e : Err) : s.onlyChanges (State.report s d e) [.fields, .dies] := by
  unfold State.report
  repeat' first
    | with_reducible first
        | assumption | apply only_refl | decide | apply only_ite | apply only_step (State.noteActed_only ..)
        | apply only_step (State.containField_only ..) | apply only_step (State.setDie_only ..) | apply only_forEach
        | apply only_foldl
    | (intro v a hv) | (intro v hv) | extract_lets | split | (dsimp +zetaDelta only [])
theorem State.wmReport_only (s : State) (e : Err) : s.onlyChanges (State.wmReport s e) [.effects, .tray, .ports, .fields,
    .dies, .trouble] := by
  unfold State.wmReport
  repeat' first
    | with_reducible first
        | assumption | apply only_refl | decide | apply only_ite | apply only_step (State.sinkTake_only ..)
    | (intro v a hv) | (intro v hv) | extract_lets | split | (dsimp +zetaDelta only [])
theorem State.containPkg_only (s : State) (n : Fin 4) : s.onlyChanges (State.containPkg s n) [.fields] := by
  unfold State.containPkg
  repeat' first
    | with_reducible first
        | assumption | apply only_refl | decide | apply only_ite | apply only_step (State.containField_only ..)
        | apply only_forEach
    | (intro v a hv) | (intro v hv) | extract_lets | split | (dsimp +zetaDelta only [])
theorem State.reply_only (s : State) (r : MReq) (opcode status : Nat) (body : List Byte) : s.onlyChanges (State.reply s r
    opcode status body) [.wmReply, .ports] := by
  unfold State.reply
  repeat' first
    | with_reducible first
        | assumption | apply only_refl | decide | apply only_ite | apply only_step (State.setWmReply_only ..)
        | apply only_step (State.setChan_only ..)
    | (intro v a hv) | (intro v hv) | extract_lets | split | (dsimp +zetaDelta only [])
theorem State.ownEvent_only (s : State) (src : Fin 5) : s.onlyChanges (State.ownEvent s src) [.effects, .ports] := by
  unfold State.ownEvent
  repeat' first
    | with_reducible first
        | assumption | apply only_refl | decide | apply only_ite | apply only_step (State.raise_only ..)
    | (intro v a hv) | (intro v hv) | extract_lets | split | (dsimp +zetaDelta only [])
theorem State.aim_only (s : State) (n : Fin 9) (a : Option (Fin 4)) : s.onlyChanges (State.aim s n a) [.targets] := by
  unfold State.aim
  repeat' first
    | with_reducible first
        | assumption | apply only_refl | decide | apply only_ite | apply only_step (State.setTargets_only ..)
    | (intro v a hv) | (intro v hv) | extract_lets | split | (dsimp +zetaDelta only [])
theorem State.payFwVector_only (s : State) (src : Fin 5) : s.onlyChanges (State.payFwVector s src) [.effects, .ports, .dies,
    .trouble, .wm] := by
  unfold State.payFwVector
  repeat' first
    | with_reducible first
        | assumption | apply only_refl | decide | apply only_ite | apply only_step (State.undelivered_only ..)
        | apply only_step (State.raise_only ..) | apply only_step (State.onWm_only ..)
    | (intro v a hv) | (intro v hv) | extract_lets | split | (dsimp +zetaDelta only [])
theorem State.grant_only (s : State) (n : Fin 9) (rid : Half) (src : Fin 5) : s.onlyChanges (State.grant s n rid src) [.free,
    .effects, .scopes, .targets, .ports, .dies, .trouble, .wm] := by
  unfold State.grant
  repeat' first
    | with_reducible first
        | assumption | apply only_refl | decide | apply only_ite | apply only_step (State.payFwVector_only ..)
        | apply only_step (State.aim_only ..) | apply only_step (State.ownEvent_only ..)
        | apply only_step (State.spend_only ..) | apply only_step (State.setScope_only ..)
    | (intro v a hv) | (intro v hv) | extract_lets | split | (dsimp +zetaDelta only [])
theorem State.endClaim_only (s : State) (n : Fin 9) (told : Bool) : s.onlyChanges (State.endClaim s n told) [.effects,
    .scopes, .targets, .ports] := by
  unfold State.endClaim
  repeat' first
    | with_reducible first
        | assumption | apply only_refl | decide | apply only_ite | apply only_step (State.aim_only ..)
        | apply only_step (State.ownEvent_only ..) | apply only_step (State.setScope_only ..)
    | (intro v a hv) | (intro v hv) | extract_lets | split | (dsimp +zetaDelta only [])
theorem State.lapse_only (s : State) (n : Fin 9) : s.onlyChanges (State.lapse s n) [.effects, .scopes, .targets, .ports] := by
  unfold State.lapse
  repeat' first
    | with_reducible first
        | assumption | apply only_refl | decide | apply only_ite | apply only_step (State.endClaim_only ..)
    | (intro v a hv) | (intro v hv) | extract_lets | split | (dsimp +zetaDelta only [])
theorem State.expireOffer_only (s : State) (n : Fin 9) : s.onlyChanges (State.expireOffer s n) [.scopes] := by
  unfold State.expireOffer
  repeat' first
    | with_reducible first
        | assumption | apply only_refl | decide | apply only_ite | apply only_step (State.setScope_only ..)
    | (intro v a hv) | (intro v hv) | extract_lets | split | (dsimp +zetaDelta only [])
theorem State.closeWindow_only (s : State) (n : Fin 9) : s.onlyChanges (State.closeWindow s n) [.wmReply, .free, .effects,
    .scopes, .targets, .ports, .dies, .trouble, .wm] := by
  unfold State.closeWindow
  repeat' first
    | with_reducible first
        | assumption | apply only_refl | decide | apply only_ite | apply only_step (State.grant_only ..)
        | apply only_step (State.reply_only ..) | apply only_step (State.setScope_only ..) | apply only_forEach
    | (intro v a hv) | (intro v hv) | extract_lets | split | (dsimp +zetaDelta only [])
theorem State.settleOwn_only (s : State) : s.onlyChanges (State.settleOwn s) [.wmReply, .free, .effects, .scopes, .targets,
    .ports, .dies, .trouble, .wm] := by
  unfold State.settleOwn
  repeat' first
    | with_reducible first
        | assumption | apply only_refl | decide | apply only_ite | apply only_step (State.closeWindow_only ..)
        | apply only_step (State.expireOffer_only ..) | apply only_step (State.lapse_only ..) | apply only_forEach
    | (intro v a hv) | (intro v hv) | extract_lets | split | (dsimp +zetaDelta only [])
theorem State.beat_only (s : State) (n : Fin 9) : s.onlyChanges (State.beat s n) [.scopes] := by
  unfold State.beat
  repeat' first
    | with_reducible first
        | assumption | apply only_refl | decide | apply only_ite | apply only_step (State.setScope_only ..)
    | (intro v a hv) | (intro v hv) | extract_lets | split | (dsimp +zetaDelta only [])
theorem State.tokenBeat_only (s : State) (token : Dword) : s.onlyChanges (State.tokenBeat s token) [.scopes] := by
  unfold State.tokenBeat
  repeat' first
    | with_reducible first
        | assumption | apply only_refl | decide | apply only_ite | apply only_step (State.beat_only ..) | apply only_forEach
    | (intro v a hv) | (intro v hv) | extract_lets | split | (dsimp +zetaDelta only [])
theorem State.forgetSeized_only (s : State) (r : MReq) (n : Need) : s.onlyChanges (State.forgetSeized s r n) [.scopes] := by
  unfold State.forgetSeized
  repeat' first
    | with_reducible first
        | assumption | apply only_refl | decide | apply only_ite | apply only_step (State.setScope_only ..)
        | apply only_forEach
    | (intro v a hv) | (intro v hv) | extract_lets | split | (dsimp +zetaDelta only [])
theorem State.serve_step {s u : State} {l : List Part} {r : MReq} {c : Cmd} {self : Instr} {early : State → Option Nat}
    {body : State → State}
    (hl : ∀ p ∈ ([.waiting, .resumed, .wmReply, .now, .free, .effects, .scopes, .targets, .ports, .dies, .trouble, .wm] : List Part), p ∈ l)
    (hu : s.onlyChanges u l) (hb : ∀ v, s.onlyChanges v l → s.onlyChanges (body v) l) :
    s.onlyChanges (u.serve r c self early body) l :=
  serve_only
    (fun v h => only_step (State.clock_only _ _) (fun p q => hl p (by revert p; decide))
      (only_step (State.setResumed_only _ _) (fun p q => hl p (by revert p; decide)) h))
    (fun v h => only_step (State.settleOwn_only _) (fun p q => hl p (by revert p; decide)) h)
    (fun v n h => only_step (State.forgetSeized_only _ _ _) (fun p q => hl p (by revert p; decide)) h)
    (fun v o e h => only_step (State.reply_only _ _ _ _ _) (fun p q => hl p (by revert p; decide)) h)
    (fun v k h => only_step (State.tokenBeat_only _ _) (fun p q => hl p (by revert p; decide)) h)
    (fun v w h => only_step (State.setWaiting_only _ _) (fun p q => hl p (by revert p; decide)) h) hb hu
theorem State.holdField_only (s : State) (f : Fin 8) (r : MReq) (opcode : Nat) : s.onlyChanges (State.holdField s f r opcode)
    [.fields] := by
  unfold State.holdField
  repeat' first
    | with_reducible first
        | assumption | apply only_refl | decide | apply only_ite | apply only_step (State.onField_only ..)
    | (intro v a hv) | (intro v hv) | extract_lets | split | (dsimp +zetaDelta only [])
theorem State.finishField_only (s : State) (f : Fin 8) (status : Nat) (body : List Byte) : s.onlyChanges (State.finishField s
    f status body) [.wmReply, .ports, .fields] := by
  unfold State.finishField
  repeat' first
    | with_reducible first
        | assumption | apply only_refl | decide | apply only_ite | apply only_step (State.reply_only ..)
        | apply only_step (State.onField_only ..)
    | (intro v a hv) | (intro v hv) | extract_lets | split | (dsimp +zetaDelta only [])
theorem State.finishTray_only (s : State) (status : Nat) (body : List Byte) : s.onlyChanges (State.finishTray s status body)
    [.wmReply, .ports, .trayHolder] := by
  unfold State.finishTray
  repeat' first
    | with_reducible first
        | assumption | apply only_refl | decide | apply only_ite | apply only_step (State.reply_only ..)
        | apply only_step (State.setTrayHolder_only ..)
    | (intro v a hv) | (intro v hv) | extract_lets | split | (dsimp +zetaDelta only [])
theorem State.moveServing_only (s : State) (inst : Option (Fin 4)) : s.onlyChanges (State.moveServing s inst) [.waiting,
    .wmReply, .serving, .scopes, .ports] := by
  unfold State.moveServing
  repeat' first
    | with_reducible first
        | assumption | apply only_refl | decide | apply only_ite | apply only_step (State.reply_only ..)
        | apply only_step (State.setServing_only ..) | apply only_step (State.setWaiting_only ..)
        | apply only_step (State.setChan_only ..) | apply only_step (State.setScope_only ..) | apply only_forEach
    | (intro v a hv) | (intro v hv) | extract_lets | split | (dsimp +zetaDelta only [])
theorem execIdTray_only (r : MReq) (s : State) : Out.only s (execIdTray r s) [.waiting, .resumed, .wmReply, .now, .free,
    .effects, .scopes, .targets, .ports, .dies, .trouble, .wm] := by
  unfold execIdTray
  repeat' first
    | with_reducible first
        | apply State.serve_step | apply next_only | apply fault_only | apply out_ite | assumption | apply only_refl | decide
        | apply only_ite | apply only_step (State.reply_only ..)
    | (intro v a hv) | (intro v hv) | extract_lets | split | (dsimp +zetaDelta only [])
theorem execIdDie_only (r : MReq) (tray die : Nat) (s : State) : Out.only s (execIdDie r tray die s) [.waiting, .resumed,
    .wmReply, .now, .free, .effects, .scopes, .targets, .ports, .dies, .trouble, .wm] := by
  unfold execIdDie
  repeat' first
    | with_reducible first
        | apply State.serve_step | apply next_only | apply fault_only | apply out_ite | assumption | apply only_refl | decide
        | apply only_ite | apply only_step (State.reply_only ..) | apply only_step (State.spend_only ..)
    | (intro v a hv) | (intro v hv) | extract_lets | split | (dsimp +zetaDelta only [])
theorem execStatus_only (r : MReq) (s : State) : Out.only s (execStatus r s) [.waiting, .resumed, .wmReply, .now, .free,
    .effects, .scopes, .targets, .ports, .dies, .trouble, .wm] := by
  unfold execStatus
  repeat' first
    | with_reducible first
        | apply State.serve_step | apply next_only | apply fault_only | apply out_ite | assumption | apply only_refl | decide
        | apply only_ite | apply only_step (State.reply_only ..)
    | (intro v a hv) | (intro v hv) | extract_lets | split | (dsimp +zetaDelta only [])
theorem execPlacement_only (r : MReq) (pkg : Nat) (s : State) : Out.only s (execPlacement r pkg s) [.waiting, .resumed,
    .wmReply, .now, .free, .effects, .scopes, .targets, .ports, .dies, .trouble, .wm] := by
  unfold execPlacement
  repeat' first
    | with_reducible first
        | apply State.serve_step | apply next_only | apply fault_only | apply out_ite | assumption | apply only_refl | decide
        | apply only_ite | apply only_step (State.reply_only ..)
    | (intro v a hv) | (intro v hv) | extract_lets | split | (dsimp +zetaDelta only [])
theorem execOwnClaim_only (r : MReq) (scope : Nat) (s : State) : Out.only s (execOwnClaim r scope s) [.waiting, .resumed,
    .wmReply, .now, .free, .effects, .scopes, .targets, .ports, .dies, .trouble, .wm] := by
  unfold execOwnClaim
  repeat' first
    | with_reducible first
        | apply State.serve_step | apply next_only | apply fault_only | apply out_ite | assumption | apply only_refl | decide
        | apply only_ite | apply only_step (State.reply_only ..) | apply only_step (State.setScope_only ..)
    | (intro v a hv) | (intro v hv) | extract_lets | split | (dsimp +zetaDelta only [])
theorem execOwnClaimWindowClose_only (scope : Fin 9) (t : Nat) (s : State) : Out.only s (execOwnClaimWindowClose scope t s)
    [.wmReply, .now, .free, .effects, .scopes, .targets, .ports, .dies, .trouble, .wm] := by
  unfold execOwnClaimWindowClose
  repeat' first
    | with_reducible first
        | apply next_only | apply fault_only | apply out_ite | assumption | apply only_refl | decide | apply only_ite
        | apply only_step (State.closeWindow_only ..) | apply only_step (State.clock_only ..)
    | (intro v a hv) | (intro v hv) | extract_lets | split | (dsimp +zetaDelta only [])
theorem execOwnRelease_only (r : MReq) (scope : Nat) (s : State) : Out.only s (execOwnRelease r scope s) [.waiting, .resumed,
    .wmReply, .now, .free, .effects, .scopes, .targets, .ports, .dies, .trouble, .wm] := by
  unfold execOwnRelease
  repeat' first
    | with_reducible first
        | apply State.serve_step | apply next_only | apply fault_only | apply out_ite | assumption | apply only_refl | decide
        | apply only_ite | apply only_step (State.endClaim_only ..) | apply only_step (State.reply_only ..)
    | (intro v a hv) | (intro v hv) | extract_lets | split | (dsimp +zetaDelta only [])
theorem execOwnHeartbeat_only (r : MReq) (scope : Nat) (s : State) : Out.only s (execOwnHeartbeat r scope s) [.waiting,
    .resumed, .wmReply, .now, .free, .effects, .scopes, .targets, .ports, .dies, .trouble, .wm] := by
  unfold execOwnHeartbeat
  repeat' first
    | with_reducible first
        | apply State.serve_step | apply next_only | apply fault_only | apply out_ite | assumption | apply only_refl | decide
        | apply only_ite | apply only_step (State.beat_only ..) | apply only_step (State.reply_only ..)
    | (intro v a hv) | (intro v hv) | extract_lets | split | (dsimp +zetaDelta only [])
theorem execOwnHandover_only (r : MReq) (scope : Nat) (succRid : Half) (succSrc : Nat) (s : State) : Out.only s
    (execOwnHandover r scope succRid succSrc s) [.waiting, .resumed, .wmReply, .now, .free, .effects, .scopes, .targets,
    .ports, .dies, .trouble, .wm] := by
  unfold execOwnHandover
  repeat' first
    | with_reducible first
        | apply State.serve_step | apply next_only | apply fault_only | apply out_ite | assumption | apply only_refl | decide
        | apply only_ite | apply only_step (State.ownEvent_only ..) | apply only_step (State.reply_only ..)
        | apply only_step (State.setScope_only ..)
    | (intro v a hv) | (intro v hv) | extract_lets | split | (dsimp +zetaDelta only [])
theorem execOwnAccept_only (r : MReq) (scope : Nat) (s : State) : Out.only s (execOwnAccept r scope s) [.waiting, .resumed,
    .wmReply, .now, .free, .effects, .scopes, .targets, .ports, .dies, .trouble, .wm] := by
  unfold execOwnAccept
  repeat' first
    | with_reducible first
        | apply State.serve_step | apply next_only | apply fault_only | apply out_ite | assumption | apply only_refl | decide
        | apply only_ite | apply only_step (State.grant_only ..) | apply only_step (State.ownEvent_only ..)
        | apply only_step (State.reply_only ..)
    | (intro v a hv) | (intro v hv) | extract_lets | split | (dsimp +zetaDelta only [])
theorem execHandoverExpiry_only (scope : Fin 9) (t : Nat) (s : State) : Out.only s (execHandoverExpiry scope t s) [.now,
    .scopes, .dies] := by
  unfold execHandoverExpiry
  repeat' first
    | with_reducible first
        | apply next_only | apply fault_only | apply out_ite | assumption | apply only_refl | decide | apply only_ite
        | apply only_step (State.expireOffer_only ..) | apply only_step (State.clock_only ..)
    | (intro v a hv) | (intro v hv) | extract_lets | split | (dsimp +zetaDelta only [])
theorem execOwnQuery_only (r : MReq) (s : State) : Out.only s (execOwnQuery r s) [.waiting, .resumed, .wmReply, .now, .free,
    .effects, .scopes, .targets, .ports, .dies, .trouble, .wm] := by
  unfold execOwnQuery
  repeat' first
    | with_reducible first
        | apply State.serve_step | apply next_only | apply fault_only | apply out_ite | assumption | apply only_refl | decide
        | apply only_ite | apply only_step (State.reply_only ..)
    | (intro v a hv) | (intro v hv) | extract_lets | split | (dsimp +zetaDelta only [])
theorem execOwnNolapse_only (r : MReq) (scope : Nat) (set : Nat) (s : State) : Out.only s (execOwnNolapse r scope set s)
    [.waiting, .resumed, .wmReply, .now, .free, .effects, .scopes, .targets, .ports, .dies, .trouble, .wm] := by
  unfold execOwnNolapse
  repeat' first
    | with_reducible first
        | apply State.serve_step | apply next_only | apply fault_only | apply out_ite | assumption | apply only_refl | decide
        | apply only_ite | apply only_step (State.reply_only ..) | apply only_step (State.setScope_only ..)
    | (intro v a hv) | (intro v hv) | extract_lets | split | (dsimp +zetaDelta only [])
theorem execOwnSeize_only (r : MReq) (scope : Nat) (s : State) : Out.only s (execOwnSeize r scope s) [.waiting, .resumed,
    .wmReply, .now, .free, .effects, .scopes, .targets, .ports, .dies, .trouble, .wm] := by
  unfold execOwnSeize
  repeat' first
    | with_reducible first
        | apply State.serve_step | apply next_only | apply fault_only | apply out_ite | assumption | apply only_refl | decide
        | apply only_ite | apply only_step (State.grant_only ..) | apply only_step (State.ownEvent_only ..)
        | apply only_step (State.reply_only ..) | apply only_step (State.setScope_only ..)
    | (intro v a hv) | (intro v hv) | extract_lets | split | (dsimp +zetaDelta only [])
theorem execOwnExpert_only (r : MReq) (field enable : Nat) (s : State) : Out.only s (execOwnExpert r field enable s)
    [.waiting, .resumed, .wmReply, .now, .free, .effects, .scopes, .targets, .ports, .dies, .trouble, .wm] := by
  unfold execOwnExpert
  repeat' first
    | with_reducible first
        | apply State.serve_step | apply next_only | apply fault_only | apply out_ite | assumption | apply only_refl | decide
        | apply only_ite | apply only_step (State.reply_only ..) | apply only_step (State.setScope_only ..)
    | (intro v a hv) | (intro v hv) | extract_lets | split | (dsimp +zetaDelta only [])
theorem execOwnBeatWrite_only (port : Fin 4) (rid : Half) (bits : Half) (t : Nat) (s : State) : Out.only s (execOwnBeatWrite
    port rid bits t s) [.wmReply, .now, .free, .effects, .scopes, .targets, .ports, .dies, .trouble, .wm] := by
  unfold execOwnBeatWrite
  repeat' first
    | with_reducible first
        | apply next_only | apply fault_only | apply out_ite | assumption | apply only_refl | decide | apply only_ite
        | apply only_step (State.beat_only ..) | apply only_step (State.settleOwn_only ..)
        | apply only_step (State.clock_only ..) | apply only_forEach
    | (intro v a hv) | (intro v hv) | extract_lets | split | (dsimp +zetaDelta only [])
theorem execOwnerLapse_only (scope : Fin 9) (t : Nat) (s : State) : Out.only s (execOwnerLapse scope t s) [.now, .effects,
    .scopes, .targets, .ports, .dies] := by
  unfold execOwnerLapse
  repeat' first
    | with_reducible first
        | apply next_only | apply fault_only | apply out_ite | assumption | apply only_refl | decide | apply only_ite
        | apply only_step (State.lapse_only ..) | apply only_step (State.clock_only ..)
    | (intro v a hv) | (intro v hv) | extract_lets | split | (dsimp +zetaDelta only [])
theorem execDbiMbxLockRead_only (port : Fin 4) (k : Fin 9) (rid : Half) (t : Nat) (s : State) : Out.only s (execDbiMbxLockRead
    port k rid t s) [.now, .ports, .dies] := by
  unfold execDbiMbxLockRead
  repeat' first
    | with_reducible first
        | apply next_only | apply fault_only | apply out_ite | assumption | apply only_refl | decide | apply only_ite
        | apply only_step (State.clock_only ..) | apply only_step (State.setChan_only ..)
        | apply only_step (State.onHost_only ..)
    | (intro v a hv) | (intro v hv) | extract_lets | split | (dsimp +zetaDelta only [])
theorem execMbxSubmit_only (port : Fin 4) (k : Fin 9) (rid : Half) (t : Nat) (s : State) : Out.only s (execMbxSubmit port k
    rid t s) [.wmReply, .now, .ports, .dies] := by
  unfold execMbxSubmit
  repeat' first
    | with_reducible first
        | apply next_only | apply fault_only | apply out_ite | assumption | apply only_refl | decide | apply only_ite
        | apply only_step (State.reply_only ..) | apply only_step (State.clock_only ..)
        | apply only_step (State.setChan_only ..)
    | (intro v a hv) | (intro v hv) | extract_lets | split | (dsimp +zetaDelta only [])
theorem execMbxRelease_only (port : Fin 4) (k : Fin 9) (rid : Half) (t : Nat) (s : State) : Out.only s (execMbxRelease port k
    rid t s) [.now, .ports, .dies] := by
  unfold execMbxRelease
  repeat' first
    | with_reducible first
        | apply next_only | apply fault_only | apply out_ite | assumption | apply only_refl | decide | apply only_ite
        | apply only_step (State.clock_only ..) | apply only_step (State.setChan_only ..)
    | (intro v a hv) | (intro v hv) | extract_lets | split | (dsimp +zetaDelta only [])
theorem execMbxResponsePosted_only (port : Fin 4) (k : Fin 9) (t : Nat) (s : State) : Out.only s (execMbxResponsePosted port k
    t s) [.now, .effects, .ports, .dies] := by
  unfold execMbxResponsePosted
  repeat' first
    | with_reducible first
        | apply next_only | apply fault_only | apply out_ite | assumption | apply only_refl | decide | apply only_ite
        | apply only_step (State.raise_only ..) | apply only_step (State.clock_only ..)
        | apply only_step (State.setChan_only ..)
    | (intro v a hv) | (intro v hv) | extract_lets | split | (dsimp +zetaDelta only [])
theorem execMbxLockSubmitTimeout_only (port : Fin 4) (k : Fin 9) (t : Nat) (s : State) : Out.only s (execMbxLockSubmitTimeout
    port k t s) [.now, .ports, .dies] := by
  unfold execMbxLockSubmitTimeout
  repeat' first
    | with_reducible first
        | apply next_only | apply fault_only | apply out_ite | assumption | apply only_refl | decide | apply only_ite
        | apply only_step (State.clock_only ..) | apply only_step (State.setChan_only ..)
    | (intro v a hv) | (intro v hv) | extract_lets | split | (dsimp +zetaDelta only [])
theorem execMbxLockDoneTimeout_only (port : Fin 4) (k : Fin 9) (t : Nat) (s : State) : Out.only s (execMbxLockDoneTimeout port
    k t s) [.now, .ports, .dies] := by
  unfold execMbxLockDoneTimeout
  repeat' first
    | with_reducible first
        | apply next_only | apply fault_only | apply out_ite | assumption | apply only_refl | decide | apply only_ite
        | apply only_step (State.clock_only ..) | apply only_step (State.setChan_only ..)
    | (intro v a hv) | (intro v hv) | extract_lets | split | (dsimp +zetaDelta only [])
theorem execWmAbsentTimeout_only (port : Fin 4) (k : Fin 9) (t : Nat) (s : State) : Out.only s (execWmAbsentTimeout port k t
    s) [.waiting, .wmReply, .now, .ports, .dies] := by
  unfold execWmAbsentTimeout
  repeat' first
    | with_reducible first
        | apply next_only | apply fault_only | apply out_ite | assumption | apply only_refl | decide | apply only_ite
        | apply only_step (State.reply_only ..) | apply only_step (State.clock_only ..)
        | apply only_step (State.setWaiting_only ..)
    | (intro v a hv) | (intro v hv) | extract_lets | split | (dsimp +zetaDelta only [])
theorem execHostPortReset_only (port : Fin 4) (s : State) : Out.only s (execHostPortReset port s) [.ports] := by
  unfold execHostPortReset
  repeat' first
    | with_reducible first
        | apply next_only | apply fault_only | apply out_ite | assumption | apply only_refl | decide | apply only_ite
        | apply only_step (State.onHost_only ..)
    | (intro v a hv) | (intro v hv) | extract_lets | split | (dsimp +zetaDelta only [])
theorem execPciePowerStateChange_only (port : Fin 4) (d3 : Bool) (s : State) : Out.only s (execPciePowerStateChange port d3 s)
    [.ports] := by
  unfold execPciePowerStateChange
  repeat' first
    | with_reducible first
        | apply next_only | apply fault_only | apply out_ite | assumption | apply only_refl | decide | apply only_ite
        | apply only_step (State.onHost_only ..)
    | (intro v a hv) | (intro v hv) | extract_lets | split | (dsimp +zetaDelta only [])
theorem execIdsTallyLoRead_only (port : Fin 4) (s : State) : Out.only s (execIdsTallyLoRead port s) [.ports] := by
  unfold execIdsTallyLoRead
  repeat' first
    | with_reducible first
        | apply next_only | apply fault_only | apply out_ite | assumption | apply only_refl | decide | apply only_ite
        | apply only_step (State.onHost_only ..)
    | (intro v a hv) | (intro v hv) | extract_lets | split | (dsimp +zetaDelta only [])
theorem execIdsTallyHiRead_only (port : Fin 4) (s : State) : Out.only s (execIdsTallyHiRead port s) [.ports] := by
  unfold execIdsTallyHiRead
  repeat' first
    | with_reducible first
        | apply next_only | apply fault_only | apply out_ite | assumption | apply only_refl | decide | apply only_ite
        | apply only_step (State.onHost_only ..)
    | (intro v a hv) | (intro v hv) | extract_lets | split | (dsimp +zetaDelta only [])
theorem execTrbSummaryWrite_only (port : Fin 4) (rid : Half) (value : Dword) (s : State) : Out.only s (execTrbSummaryWrite
    port rid value s) [.fields, .trouble] := by
  unfold execTrbSummaryWrite
  repeat' first
    | with_reducible first
        | apply next_only | apply fault_only | apply out_ite | assumption | apply only_refl | decide | apply only_ite
        | apply only_step (State.setTrouble_only ..) | apply only_step (State.onField_only ..) | apply only_forEach
    | (intro v a hv) | (intro v hv) | extract_lets | split | (dsimp +zetaDelta only [])
theorem State.popAlarm_only (s : State) (d : DieId) : s.onlyChanges (State.popAlarm s d) [.dies] := by
  unfold State.popAlarm
  repeat' first
    | with_reducible first
        | assumption | apply only_refl | decide | apply only_ite | apply only_step (State.onDie_only ..)
    | (intro v a hv) | (intro v hv) | extract_lets | split | (dsimp +zetaDelta only [])
theorem execHgAlmctlPop_only (d : DieId) (s : State) : Out.only s (execHgAlmctlPop d s) [.dies] := by
  unfold execHgAlmctlPop
  repeat' first
    | with_reducible first
        | apply next_only | apply fault_only | apply out_ite | assumption | apply only_refl | decide | apply only_ite
        | apply only_step (State.popAlarm_only ..)
    | (intro v a hv) | (intro v hv) | extract_lets | split | (dsimp +zetaDelta only [])
theorem State.countRefused_only (s : State) : s.onlyChanges (State.countRefused s) [.trouble] := by
  unfold State.countRefused
  repeat' first
    | with_reducible first
        | assumption | apply only_refl | decide | apply only_ite | apply only_step (State.setTrouble_only ..)
    | (intro v a hv) | (intro v hv) | extract_lets | split | (dsimp +zetaDelta only [])
theorem execLaunchDoorbell_only (port : Fin 4) (rid : Half) (f : Fin 8) (prod : Byte) (t : Nat) (s : State) : Out.only s
    (execLaunchDoorbell port rid f prod t s) [.wmReply, .now, .free, .effects, .scopes, .targets, .ports, .fields, .dies,
    .trouble, .wm] := by
  unfold execLaunchDoorbell
  repeat' first
    | with_reducible first
        | apply next_only | apply fault_only | apply out_ite | assumption | apply only_refl | decide | apply only_ite
        | apply only_step (State.countRefused_only ..) | apply only_step (State.settleOwn_only ..)
        | apply only_step (State.raise_only ..) | apply only_step (State.clock_only ..)
        | apply only_step (State.onHost_only ..) | apply only_step (State.setField_only ..) | apply only_foldl
    | (intro v a hv) | (intro v hv) | extract_lets | split | (dsimp +zetaDelta only [])
theorem execLaunchRingWrite_only (port : Fin 4) (rid : Half) (f : Fin 8) (ofs : Nat) (data : List Byte) (s : State) : Out.only
    s (execLaunchRingWrite port rid f ofs data s) [.fields, .trouble] := by
  unfold execLaunchRingWrite
  repeat' first
    | with_reducible first
        | apply next_only | apply fault_only | apply out_ite | assumption | apply only_refl | decide | apply only_ite
        | apply only_step (State.countRefused_only ..) | apply only_step (State.setField_only ..)
    | (intro v a hv) | (intro v hv) | extract_lets | split | (dsimp +zetaDelta only [])
theorem State.meshError_only (s : State) (d : DieId) (code locKind location : Nat) : s.onlyChanges (State.meshError s d code
    locKind location) [.fields, .dies] := by
  unfold State.meshError
  repeat' first
    | with_reducible first
        | assumption | apply only_refl | decide | apply only_ite | apply only_step (State.report_only ..)
    | (intro v a hv) | (intro v hv) | extract_lets | split | (dsimp +zetaDelta only [])
theorem State.memError_only (s : State) (d : DieId) (ce de locKind location : Nat) (e : HdrErr) : s.onlyChanges
    (State.memError s d ce de locKind location e) [.fields, .dies] := by
  unfold State.memError
  repeat' first
    | with_reducible first
        | assumption | apply only_refl | decide | apply only_ite | apply only_step (State.meshError_only ..)
    | (intro v a hv) | (intro v hv) | extract_lets | split | (dsimp +zetaDelta only [])
theorem State.hbmRead_only (s : State) (d : DieId) (line : Nat) : s.onlyChanges (State.hbmRead s d line) [.free, .fields,
    .dies] := by
  unfold State.hbmRead
  repeat' first
    | with_reducible first
        | assumption | apply only_refl | decide | apply only_ite | apply only_step (State.memError_only ..)
        | apply only_step (State.spend_only ..) | apply only_step (State.onDie_only ..)
    | (intro v a hv) | (intro v hv) | extract_lets | split | (dsimp +zetaDelta only [])
theorem State.barCheck_only (s : State) (port : Fin 4) (x : Field) (o len : Nat) : s.onlyChanges (State.barCheck s port x o
    len) [.free, .fields, .dies] := by
  unfold State.barCheck
  repeat' first
    | with_reducible first
        | assumption | apply only_refl | decide | apply only_ite | apply only_step (State.hbmRead_only ..)
        | apply only_forEach
    | (intro v a hv) | (intro v hv) | extract_lets | split | (dsimp +zetaDelta only [])
theorem execHostBar4Read_only (port : Fin 4) (rid : Half) (ofs len : Nat) (s : State) : Out.only s (execHostBar4Read port rid
    ofs len s) [.free, .ports, .fields, .dies] := by
  unfold execHostBar4Read
  repeat' first
    | with_reducible first
        | apply next_only | apply fault_only | apply out_ite | assumption | apply only_refl | decide | apply only_ite
        | apply only_step (State.barCheck_only ..) | apply only_step (State.onHost_only ..)
    | (intro v a hv) | (intro v hv) | extract_lets | split | (dsimp +zetaDelta only [])
theorem State.hostLine_only (s : State) (port : Fin 4) (d : DieId) (a : Nat) (bs : List Byte) : s.onlyChanges (State.hostLine
    s port d a bs) [.dies] := by
  unfold State.hostLine
  repeat' first
    | with_reducible first
        | assumption | apply only_refl | decide | apply only_ite | apply only_step (State.onDie_only ..)
    | (intro v a hv) | (intro v hv) | extract_lets | split | (dsimp +zetaDelta only [])
theorem State.barStore_only (s : State) (port : Fin 4) (x : Field) (o : Nat) (bs : List Byte) (m : List (Nat × DieId)) :
    s.onlyChanges (s.barStore port x o bs m) [.dies] := by
  induction m generalizing s with
  | nil => exact only_refl _ _
  | cons e m ih =>
    refine only_step (ih _) (fun p q => q) (only_ite (only_forEach (only_refl _ _) fun v a hv => ?_) (only_refl _ _))
    exact only_step (State.hostLine_only _ _ _ _ _) (by decide) hv
theorem execHostBar4Write_only (port : Fin 4) (rid : Half) (ofs : Nat) (data : List Byte) (s : State) : Out.only s
    (execHostBar4Write port rid ofs data s) [.dies, .trouble] := by
  unfold execHostBar4Write
  repeat' first
    | with_reducible first
        | apply next_only | apply fault_only | apply out_ite | assumption | apply only_refl | decide | apply only_ite
        | apply only_step (State.barStore_only ..) | apply only_step (State.countRefused_only ..)
    | (intro v a hv) | (intro v hv) | extract_lets | split | (dsimp +zetaDelta only [])
theorem State.syncCaches_only (s : State) (f : Fin 8) : s.onlyChanges (State.syncCaches s f) [.dies] := by
  unfold State.syncCaches
  repeat' first
    | with_reducible first
        | assumption | apply only_refl | decide | apply only_ite | apply only_step (State.onDie_only ..) | apply only_forEach
    | (intro v a hv) | (intro v hv) | extract_lets | split | (dsimp +zetaDelta only [])
theorem State.copyInits_only (s : State) (p : Plan) : s.onlyChanges (State.copyInits s p) [.dies] := by
  unfold State.copyInits
  repeat' first
    | with_reducible first
        | assumption | apply only_refl | decide | apply only_ite | apply only_step (State.onDie_only ..) | apply only_forEach
    | (intro v a hv) | (intro v hv) | extract_lets | split | (dsimp +zetaDelta only [])
theorem State.substitute_only (s : State) (d : DieId) (lost : Packet) (ahead : Nat) : s.onlyChanges (State.substitute s d lost
    ahead) [.free, .dies] := by
  unfold State.substitute
  repeat' first
    | with_reducible first
        | assumption | apply only_refl | decide | apply only_ite | apply only_step (State.spend_only ..)
        | apply only_step (State.onTile_only ..)
    | (intro v a hv) | (intro v hv) | extract_lets | split | (dsimp +zetaDelta only [])
theorem State.substituteFrom_only (s : State) (d : DieId) (lost : Packet) (before : List Packet) : s.onlyChanges
    (State.substituteFrom s d lost before) [.free, .dies] := by
  unfold State.substituteFrom
  repeat' first
    | with_reducible first
        | assumption | apply only_refl | decide | apply only_ite | apply only_step (State.substitute_only ..)
    | (intro v a hv) | (intro v hv) | extract_lets | split | (dsimp +zetaDelta only [])
theorem State.inject_only (s : State) (d : DieId) (l : List Packet) : s.onlyChanges (State.inject s d l) [.dies] := by
  unfold State.inject
  repeat' first
    | with_reducible first
        | assumption | apply only_refl | decide | apply only_ite | apply only_step (State.onDie_only ..)
    | (intro v a hv) | (intro v hv) | extract_lets | split | (dsimp +zetaDelta only [])
theorem State.notePassed_only (s : State) (d : DieId) (router : Nat) (k : Packet) : s.onlyChanges (State.notePassed s d router
    k) [.dies] := by
  unfold State.notePassed
  repeat' first
    | with_reducible first
        | assumption | apply only_refl | decide | apply only_ite | apply only_step (State.onDie_only ..)
    | (intro v a hv) | (intro v hv) | extract_lets | split | (dsimp +zetaDelta only [])
theorem execRouterForward_only (d : DieId) (idx : Nat) (cycle : Fin 64) (err : HdrErr) (s : State) : Out.only s
    (execRouterForward d idx cycle err s) [.free, .fields, .dies, .links] := by
  unfold execRouterForward
  repeat' first
    | with_reducible first
        | apply next_only | apply fault_only | apply out_ite | assumption | apply only_refl | decide | apply only_ite
        | apply only_step (State.notePassed_only ..) | apply only_step (State.substituteFrom_only ..)
        | apply only_step (State.meshError_only ..) | apply only_step (State.onPort_only ..)
        | apply only_step (State.onDie_only ..)
    | (intro v a hv) | (intro v hv) | extract_lets | split | (dsimp +zetaDelta only [])
theorem State.takeArrived_only (s : State) (d : DieId) (g : Packet → Bool) : s.onlyChanges (State.takeArrived s d g) [.dies]
    := by
  unfold State.takeArrived
  repeat' first
    | with_reducible first
        | assumption | apply only_refl | decide | apply only_ite | apply only_step (State.onDie_only ..)
    | (intro v a hv) | (intro v hv) | extract_lets | split | (dsimp +zetaDelta only [])
theorem execMeshPacketArrival_only (d : DieId) (tile : Fin 1024) (p : Packet) (s : State) : Out.only s (execMeshPacketArrival
    d tile p s) [.free, .fields, .dies] := by
  unfold execMeshPacketArrival
  repeat' first
    | with_reducible first
        | apply next_only | apply fault_only | apply out_ite | assumption | apply only_refl | decide | apply only_ite
        | apply only_step (State.takeArrived_only ..) | apply only_step (State.substitute_only ..)
        | apply only_step (State.meshError_only ..) | apply only_step (State.onTile_only ..)
    | (intro v a hv) | (intro v hv) | extract_lets | split | (dsimp +zetaDelta only [])
theorem State.creditBack_only (s : State) (d : DieId) (tile : Nat) (p : Packet) : s.onlyChanges (State.creditBack s d tile p)
    [.dies] := by
  unfold State.creditBack
  repeat' first
    | with_reducible first
        | assumption | apply only_refl | decide | apply only_ite | apply only_step (State.onTile_only ..)
        | apply only_step (State.onDie_only ..)
    | (intro v a hv) | (intro v hv) | extract_lets | split | (dsimp +zetaDelta only [])
theorem execRuleFire_only (d : DieId) (tile : Fin 1024) (s : State) : Out.only s (execRuleFire d tile s) [.free, .fields,
    .dies] := by
  unfold execRuleFire
  repeat' first
    | with_reducible first
        | apply next_only | apply fault_only | apply out_ite | assumption | apply only_refl | decide | apply only_ite
        | apply only_step (State.creditBack_only ..) | apply only_step (State.inject_only ..)
        | apply only_step (State.memError_only ..) | apply only_step (State.spend_only ..)
        | apply only_step (State.onTile_only ..) | apply only_forEach
    | (intro v a hv) | (intro v hv) | extract_lets | split | (dsimp +zetaDelta only [])
theorem execIterationComplete_only (d : DieId) (tile : Fin 1024) (tag : Byte) (s : State) : Out.only s (execIterationComplete
    d tile tag s) [.dies] := by
  unfold execIterationComplete
  repeat' first
    | with_reducible first
        | apply next_only | apply fault_only | apply out_ite | assumption | apply only_refl | decide | apply only_ite
        | apply only_step (State.onTile_only ..)
    | (intro v a hv) | (intro v hv) | extract_lets | split | (dsimp +zetaDelta only [])
theorem execCreditReturn_only (d : DieId) (src dst channel : Nat) (s : State) : Out.only s (execCreditReturn d src dst channel
    s) [.dies] := by
  unfold execCreditReturn
  repeat' first
    | with_reducible first
        | apply next_only | apply fault_only | apply out_ite | assumption | apply only_refl | decide | apply only_ite
        | apply only_step (State.onTile_only ..) | apply only_step (State.onDie_only ..)
    | (intro v a hv) | (intro v hv) | extract_lets | split | (dsimp +zetaDelta only [])
theorem execMemoryReadRequest_only (d : DieId) (ep : Fin 32) (addr : Nat) (p : Packet) (reply t : Nat) (s : State) : Out.only
    s (execMemoryReadRequest d ep addr p reply t s) [.now, .fields, .dies] := by
  unfold execMemoryReadRequest
  repeat' first
    | with_reducible first
        | apply next_only | apply fault_only | apply out_ite | assumption | apply only_refl | decide | apply only_ite
        | apply only_step (State.takeArrived_only ..) | apply only_step (State.meshError_only ..)
        | apply only_step (State.clock_only ..) | apply only_step (State.onDie_only ..)
    | (intro v a hv) | (intro v hv) | extract_lets | split | (dsimp +zetaDelta only [])
theorem State.countPoison_only (s : State) (d : DieId) : s.onlyChanges (State.countPoison s d) [.fields] := by
  unfold State.countPoison
  repeat' first
    | with_reducible first
        | assumption | apply only_refl | decide | apply only_ite | apply only_step (State.onField_only ..)
    | (intro v a hv) | (intro v hv) | extract_lets | split | (dsimp +zetaDelta only [])
theorem execMemoryWrite_only (d : DieId) (ep : Fin 32) (addr : Nat) (p : Packet) (t : Nat) (s : State) : Out.only s
    (execMemoryWrite d ep addr p t s) [.now, .fields, .dies] := by
  unfold execMemoryWrite
  repeat' first
    | with_reducible first
        | apply next_only | apply fault_only | apply out_ite | assumption | apply only_refl | decide | apply only_ite
        | apply only_step (State.countPoison_only ..) | apply only_step (State.takeArrived_only ..)
        | apply only_step (State.meshError_only ..) | apply only_step (State.clock_only ..)
        | apply only_step (State.onDie_only ..)
    | (intro v a hv) | (intro v hv) | extract_lets | split | (dsimp +zetaDelta only [])
theorem execMemoryReadResponse_only (d : DieId) (ep : Fin 32) (t : Nat) (s : State) : Out.only s (execMemoryReadResponse d ep
    t s) [.now, .free, .fields, .dies] := by
  unfold execMemoryReadResponse
  repeat' first
    | with_reducible first
        | apply next_only | apply fault_only | apply out_ite | assumption | apply only_refl | decide | apply only_ite
        | apply only_step (State.inject_only ..) | apply only_step (State.hbmRead_only ..)
        | apply only_step (State.clock_only ..) | apply only_step (State.onDie_only ..)
    | (intro v a hv) | (intro v hv) | extract_lets | split | (dsimp +zetaDelta only [])
theorem State.ingressAdd_only (s : State) (q : PortId) (k : Packet) : s.onlyChanges (State.ingressAdd s q k) [.free, .fields,
    .dies, .links] := by
  unfold State.ingressAdd
  repeat' first
    | with_reducible first
        | assumption | apply only_refl | decide | apply only_ite | apply only_step (State.substitute_only ..)
        | apply only_step (State.meshError_only ..) | apply only_step (State.onPort_only ..)
    | (intro v a hv) | (intro v hv) | extract_lets | split | (dsimp +zetaDelta only [])
theorem execIngressInject_only (p : PortId) (s : State) : Out.only s (execIngressInject p s) [.free, .fields, .dies, .links]
    := by
  unfold execIngressInject
  repeat' first
    | with_reducible first
        | apply next_only | apply fault_only | apply out_ite | assumption | apply only_refl | decide | apply only_ite
        | apply only_step (State.substitute_only ..) | apply only_step (State.meshError_only ..)
        | apply only_step (State.onPort_only ..) | apply only_step (State.onDie_only ..)
    | (intro v a hv) | (intro v hv) | extract_lets | split | (dsimp +zetaDelta only [])
theorem State.localLevee_only (s : State) (d : DieId) (tile : Nat) : OptOnly s (State.localLevee s d tile) [.fields, .dies] :=
    by
  unfold State.localLevee
  repeat' first
    | with_reducible first
        | apply some_only | apply none_only | apply opt_ite | assumption | apply only_refl | decide | apply only_ite
        | apply only_step (State.meshError_only ..)
    | (intro v a hv) | (intro v hv) | extract_lets | split | (dsimp +zetaDelta only [])
theorem execDrainMarkerArrival_only (d : DieId) (tile : Fin 1024) (channel : Nat) (s : State) : Out.only s
    (execDrainMarkerArrival d tile channel s) [.fields, .dies] := by
  unfold execDrainMarkerArrival
  repeat' first
    | with_reducible first
        | apply next_only | apply fault_only | apply out_ite | assumption | apply only_refl | decide | apply only_ite
        | exact opt_weaken (State.localLevee_only ..) (by decide) | refine only_getD (State.localLevee_only ..) (by decide) ?_
        | apply only_step (State.takeArrived_only ..) | apply only_step (State.onTile_only ..)
    | (refine only_opt (State.localLevee_only ..) (by assumption) (by decide) ?_) | (intro v a hv) | (intro v hv)
    | extract_lets | split | (dsimp +zetaDelta only [])
theorem execTileDrained_only (d : DieId) (tile : Fin 1024) (s : State) : Out.only s (execTileDrained d tile s) [.dies] := by
  unfold execTileDrained
  repeat' first
    | with_reducible first
        | apply next_only | apply fault_only | apply out_ite | assumption | apply only_refl | decide | apply only_ite
        | apply only_step (State.inject_only ..) | apply only_step (State.onTile_only ..)
    | (intro v a hv) | (intro v hv) | extract_lets | split | (dsimp +zetaDelta only [])
theorem execConfigPacketArrival_only (d : DieId) (tile : Fin 1024) (p : Packet) (s : State) : Out.only s
    (execConfigPacketArrival d tile p s) [.fields, .dies] := by
  unfold execConfigPacketArrival
  repeat' first
    | with_reducible first
        | apply next_only | apply fault_only | apply out_ite | assumption | apply only_refl | decide | apply only_ite
        | exact opt_weaken (State.localLevee_only ..) (by decide) | refine only_getD (State.localLevee_only ..) (by decide) ?_
        | apply only_step (State.takeArrived_only ..) | apply only_step (State.onTile_only ..)
    | (refine only_opt (State.localLevee_only ..) (by assumption) (by decide) ?_) | (intro v a hv) | (intro v hv)
    | extract_lets | split | (dsimp +zetaDelta only [])
theorem execTileSwitch_only (d : DieId) (tile : Fin 1024) (s : State) : Out.only s (execTileSwitch d tile s) [.dies] := by
  unfold execTileSwitch
  repeat' first
    | with_reducible first
        | apply next_only | apply fault_only | apply out_ite | assumption | apply only_refl | decide | apply only_ite
        | apply only_step (State.onTile_only ..)
    | (intro v a hv) | (intro v hv) | extract_lets | split | (dsimp +zetaDelta only [])
theorem State.send_only (s : State) (m : Msg) : s.onlyChanges (State.send s m) [.dies] := by
  unfold State.send
  repeat' first
    | with_reducible first
        | assumption | apply only_refl | decide | apply only_ite | apply only_step (State.onDie_only ..)
    | (intro v a hv) | (intro v hv) | extract_lets | split | (dsimp +zetaDelta only [])
theorem State.sfDiscard_only (s : State) (d : DieId) (field : Nat) : s.onlyChanges (State.sfDiscard s d field) [.fields,
    .dies] := by
  unfold State.sfDiscard
  repeat' first
    | with_reducible first
        | assumption | apply only_refl | decide | apply only_ite | apply only_step (State.report_only ..)
    | (intro v a hv) | (intro v hv) | extract_lets | split | (dsimp +zetaDelta only [])
theorem State.setAcctSrc_only (s : State) (a : AcctId) (x : AcctSrc) : s.onlyChanges (State.setAcctSrc s a x) [.dies] := by
  unfold State.setAcctSrc
  repeat' first
    | with_reducible first
        | assumption | apply only_refl | decide | apply only_ite | apply only_step (State.onDie_only ..)
    | (intro v a hv) | (intro v hv) | extract_lets | split | (dsimp +zetaDelta only [])
theorem State.setAcctSink_only (s : State) (a : AcctId) (x : AcctSink) : s.onlyChanges (State.setAcctSink s a x) [.dies] := by
  unfold State.setAcctSink
  repeat' first
    | with_reducible first
        | assumption | apply only_refl | decide | apply only_ite | apply only_step (State.onDie_only ..)
    | (intro v a hv) | (intro v hv) | extract_lets | split | (dsimp +zetaDelta only [])
theorem State.arrive_only (s : State) (h : Hdr) : s.onlyChanges (State.arrive s h) [.dies] := by
  unfold State.arrive
  repeat' first
    | with_reducible first
        | assumption | apply only_refl | decide | apply only_ite | apply only_step (State.setAcctSink_only ..)
    | (intro v a hv) | (intro v hv) | extract_lets | split | (dsimp +zetaDelta only [])
theorem State.resetAcct_only (s : State) (a : AcctId) (epoch : Byte) : s.onlyChanges (State.resetAcct s a epoch) [.dies] := by
  unfold State.resetAcct
  repeat' first
    | with_reducible first
        | assumption | apply only_refl | decide | apply only_ite | apply only_step (State.setAcctSink_only ..)
        | apply only_step (State.setAcctSrc_only ..)
    | (intro v a hv) | (intro v hv) | extract_lets | split | (dsimp +zetaDelta only [])
theorem State.settleTimers_only (s : State) (d : DieId) : s.onlyChanges (State.settleTimers s d) [.dies] := by
  unfold State.settleTimers
  repeat' first
    | with_reducible first
        | assumption | apply only_refl | decide | apply only_ite | apply only_step (State.onDie_only ..)
    | (intro v a hv) | (intro v hv) | extract_lets | split | (dsimp +zetaDelta only [])
theorem State.settleAllTimers_only (s : State) : s.onlyChanges (State.settleAllTimers s) [.dies] := by
  unfold State.settleAllTimers
  repeat' first
    | with_reducible first
        | assumption | apply only_refl | decide | apply only_ite | apply only_step (State.settleTimers_only ..)
        | apply only_forEach
    | (intro v a hv) | (intro v hv) | extract_lets | split | (dsimp +zetaDelta only [])
theorem State.loseReq_only (s : State) (d : DieId) (unit tag : Nat) : s.onlyChanges (State.loseReq s d unit tag) [.fields,
    .dies] := by
  unfold State.loseReq
  repeat' first
    | with_reducible first
        | assumption | apply only_refl | decide | apply only_ite | apply only_step (State.report_only ..)
        | apply only_step (State.onDie_only ..)
    | (intro v a hv) | (intro v hv) | extract_lets | split | (dsimp +zetaDelta only [])
theorem State.loseReqs_only (s : State) (d : DieId) (g : OutReq → Bool) : s.onlyChanges (State.loseReqs s d g) [.fields,
    .dies] := by
  unfold State.loseReqs
  repeat' first
    | with_reducible first
        | assumption | apply only_refl | decide | apply only_ite | apply only_step (State.loseReq_only ..)
        | apply only_forEach
    | (intro v a hv) | (intro v hv) | extract_lets | split | (dsimp +zetaDelta only [])
theorem State.complete_only (s : State) (h : Hdr) (data : List Byte) : s.onlyChanges (State.complete s h data) [.fields,
    .dies] := by
  unfold State.complete
  repeat' first
    | with_reducible first
        | assumption | apply only_refl | decide | apply only_ite | apply only_step (State.sfDiscard_only ..)
        | apply only_step (State.onDie_only ..)
    | (intro v a hv) | (intro v hv) | extract_lets | split | (dsimp +zetaDelta only [])
theorem State.respond_only (s : State) (h : Hdr) (op cst : Nat) (data : List Byte) : s.onlyChanges (State.respond s h op cst
    data) [.dies] := by
  unfold State.respond
  repeat' first
    | with_reducible first
        | assumption | apply only_refl | decide | apply only_ite | apply only_step (State.send_only ..)
    | (intro v a hv) | (intro v hv) | extract_lets | split | (dsimp +zetaDelta only [])
theorem State.unsupported_only (s : State) (h : Hdr) : s.onlyChanges (State.unsupported s h) [.fields, .dies] := by
  unfold State.unsupported
  repeat' first
    | with_reducible first
        | assumption | apply only_refl | decide | apply only_ite | apply only_step (State.respond_only ..)
        | apply only_step (State.sfDiscard_only ..)
    | (intro v a hv) | (intro v hv) | extract_lets | split | (dsimp +zetaDelta only [])
theorem State.refuse_only (s : State) (h : Hdr) : s.onlyChanges (State.refuse s h) [.fields, .dies] := by
  unfold State.refuse
  repeat' first
    | with_reducible first
        | assumption | apply only_refl | decide | apply only_ite | apply only_step (State.respond_only ..)
        | apply only_step (State.sfDiscard_only ..)
    | (intro v a hv) | (intro v hv) | extract_lets | split | (dsimp +zetaDelta only [])
theorem State.noteHold_only (s : State) (d src : DieId) (on : Bool) : s.onlyChanges (State.noteHold s d src on) [.dies] := by
  unfold State.noteHold
  repeat' first
    | with_reducible first
        | assumption | apply only_refl | decide | apply only_ite | apply only_step (State.settleTimers_only ..)
        | apply only_step (State.onDie_only ..)
    | (intro v a hv) | (intro v hv) | extract_lets | split | (dsimp +zetaDelta only [])
theorem State.tellHold_only (s : State) (d who : DieId) (on : Bool) : s.onlyChanges (State.tellHold s d who on) [.dies] := by
  unfold State.tellHold
  repeat' first
    | with_reducible first
        | assumption | apply only_refl | decide | apply only_ite | apply only_step (State.noteHold_only ..)
        | apply only_step (State.send_only ..)
    | (intro v a hv) | (intro v hv) | extract_lets | split | (dsimp +zetaDelta only [])
theorem State.routeHold_only (s : State) (p : PortId) (who : DieId) : s.onlyChanges (State.routeHold s p who) [.dies, .links]
    := by
  unfold State.routeHold
  repeat' first
    | with_reducible first
        | assumption | apply only_refl | decide | apply only_ite | apply only_step (State.tellHold_only ..)
        | apply only_step (State.onPort_only ..)
    | (intro v a hv) | (intro v hv) | extract_lets | split | (dsimp +zetaDelta only [])
theorem State.routeHoldAll_only (s : State) (p : PortId) : s.onlyChanges (State.routeHoldAll s p) [.dies, .links] := by
  unfold State.routeHoldAll
  repeat' first
    | with_reducible first
        | assumption | apply only_refl | decide | apply only_ite | apply only_step (State.routeHold_only ..)
        | apply only_forEach
    | (intro v a hv) | (intro v hv) | extract_lets | split | (dsimp +zetaDelta only [])
theorem State.routeClear_only (s : State) (p : PortId) : s.onlyChanges (State.routeClear s p) [.dies, .links] := by
  unfold State.routeClear
  repeat' first
    | with_reducible first
        | assumption | apply only_refl | decide | apply only_ite | apply only_step (State.tellHold_only ..)
        | apply only_step (State.onPort_only ..) | apply only_forEach
    | (intro v a hv) | (intro v hv) | extract_lets | split | (dsimp +zetaDelta only [])
theorem State.lostNotice_only (s : State) (d : DieId) (h : Hdr) : s.onlyChanges (State.lostNotice s d h) [.dies] := by
  unfold State.lostNotice
  repeat' first
    | with_reducible first
        | assumption | apply only_refl | decide | apply only_ite | apply only_step (State.send_only ..)
    | (intro v a hv) | (intro v hv) | extract_lets | split | (dsimp +zetaDelta only [])
theorem State.discardHeld_only (s : State) (p : PortId) (g : Flit → Bool) : s.onlyChanges (State.discardHeld s p g) [.dies,
    .links] := by
  unfold State.discardHeld
  repeat' first
    | with_reducible first
        | assumption | apply only_refl | decide | apply only_ite | apply only_step (State.lostNotice_only ..)
        | apply only_step (State.routeClear_only ..) | apply only_step (State.setPort_only ..) | apply only_forEach
    | (intro v a hv) | (intro v hv) | extract_lets | split | (dsimp +zetaDelta only [])
theorem State.endStream_only (s : State) (p : PortId) : s.onlyChanges (State.endStream s p) [.dies, .links] := by
  unfold State.endStream
  repeat' first
    | with_reducible first
        | assumption | apply only_refl | decide | apply only_ite | apply only_step (State.lostNotice_only ..)
        | apply only_step (State.routeClear_only ..) | apply only_step (State.onPort_only ..) | apply only_forEach
    | (intro v a hv) | (intro v hv) | extract_lets | split | (dsimp +zetaDelta only [])
theorem State.onCnt_only (s : State) (d : DieId) (g : FieldCnt → FieldCnt) : s.onlyChanges (State.onCnt s d g) [.dies] := by
  unfold State.onCnt
  repeat' first
    | with_reducible first
        | assumption | apply only_refl | decide | apply only_ite | apply only_step (State.onDie_only ..)
    | (intro v a hv) | (intro v hv) | extract_lets | split | (dsimp +zetaDelta only [])
theorem State.unqueue_only (s : State) (m : Msg) : s.onlyChanges (State.unqueue s m) [.dies] := by
  unfold State.unqueue
  repeat' first
    | with_reducible first
        | assumption | apply only_refl | decide | apply only_ite | apply only_step (State.onDie_only ..)
    | (intro v a hv) | (intro v hv) | extract_lets | split | (dsimp +zetaDelta only [])
theorem State.unassemble_only (s : State) (p : PortId) (m : Msg) : s.onlyChanges (State.unassemble s p m) [.links] := by
  unfold State.unassemble
  repeat' first
    | with_reducible first
        | assumption | apply only_refl | decide | apply only_ite | apply only_step (State.onPort_only ..)
    | (intro v a hv) | (intro v hv) | extract_lets | split | (dsimp +zetaDelta only [])
theorem State.queueOut_only (s : State) (p : PortId) (m : Msg) : OptOnly s (State.queueOut s p m) [.dies, .links] := by
  unfold State.queueOut
  repeat' first
    | with_reducible first
        | apply some_only | apply none_only | apply opt_ite | assumption | apply only_refl | decide | apply only_ite
        | apply only_step (State.routeHold_only ..) | apply only_step (State.setPort_only ..)
    | (intro v a hv) | (intro v hv) | extract_lets | split | (dsimp +zetaDelta only [])
theorem State.hop_only (s : State) (d : DieId) (m : Msg) : OptOnly s (State.hop s d m) [.fields, .dies, .links] := by
  unfold State.hop
  repeat' first
    | with_reducible first
        | apply some_only | apply none_only | apply opt_ite | assumption | apply only_refl | decide | apply only_ite
        | exact opt_weaken (State.queueOut_only ..) (by decide) | refine only_getD (State.queueOut_only ..) (by decide) ?_
        | apply only_step (State.unsupported_only ..)
    | (refine only_opt (State.queueOut_only ..) (by assumption) (by decide) ?_) | (intro v a hv) | (intro v hv) | extract_lets
    | split | (dsimp +zetaDelta only [])
theorem State.blocked_only (s : State) (d : DieId) (field : Nat) : s.onlyChanges (State.blocked s d field) [.dies] := by
  unfold State.blocked
  repeat' first
    | with_reducible first
        | assumption | apply only_refl | decide | apply only_ite | apply only_step (State.onCnt_only ..)
    | (intro v a hv) | (intro v hv) | extract_lets | split | (dsimp +zetaDelta only [])
theorem State.giveUp_only (s : State) (d : DieId) (h : Hdr) : s.onlyChanges (State.giveUp s d h) [.dies] := by
  unfold State.giveUp
  repeat' first
    | with_reducible first
        | assumption | apply only_refl | decide | apply only_ite | apply only_step (State.onDie_only ..)
    | (intro v a hv) | (intro v hv) | extract_lets | split | (dsimp +zetaDelta only [])
theorem State.launchMsg_only (s : State) (d : DieId) (m0 : Msg) : s.onlyChanges (State.launchMsg s d m0) [.fields, .dies,
    .links] := by
  unfold State.launchMsg
  repeat' first
    | with_reducible first
        | assumption | apply only_refl | decide | apply only_ite | apply only_step (State.giveUp_only ..)
        | apply only_step (State.blocked_only ..) | exact opt_weaken (State.hop_only ..) (by decide)
        | refine only_getD (State.hop_only ..) (by decide) ?_ | apply only_step (State.unqueue_only ..)
        | apply only_step (State.onCnt_only ..) | apply only_step (State.setAcctSrc_only ..)
        | apply only_step (State.sfDiscard_only ..) | apply only_step (State.onDie_only ..)
    | (refine only_opt (State.hop_only ..) (by assumption) (by decide) ?_) | (intro v a hv) | (intro v hv) | extract_lets
    | split | (dsimp +zetaDelta only [])
theorem execMessageForward_only (d : DieId) (m : Msg) (arrival : Option (Fin 5)) (t : Nat) (s : State) : Out.only s
    (execMessageForward d m arrival t s) [.now, .fields, .dies, .links] := by
  unfold execMessageForward
  repeat' first
    | with_reducible first
        | apply next_only | apply fault_only | apply out_ite | assumption | apply only_refl | decide | apply only_ite
        | apply only_step (State.launchMsg_only ..) | apply only_step (State.blocked_only ..)
        | exact opt_weaken (State.hop_only ..) (by decide) | refine only_getD (State.hop_only ..) (by decide) ?_
        | apply only_step (State.unassemble_only ..) | apply only_step (State.report_only ..)
        | apply only_step (State.clock_only ..)
    | (refine only_opt (State.hop_only ..) (by assumption) (by decide) ?_) | (intro v a hv) | (intro v hv) | extract_lets
    | split | (dsimp +zetaDelta only [])
theorem State.layer_step {s u : State} {l : List Part} {h : Hdr} {g : State → State}
    (hl : ∀ p ∈ ([.fields, .dies] : List Part), p ∈ l) (hu : s.onlyChanges u l)
    (hg : ∀ v, s.onlyChanges v l → s.onlyChanges (g v) l) : s.onlyChanges (u.layer h g) l := by
  unfold State.layer
  exact only_ite hu (only_ite (hg _ hu) (only_step (State.sfDiscard_only _ _ _) (fun p q => hl p (by revert p; decide)) hu))
theorem execCredit_only (h : Hdr) (data : List Byte) (s : State) : Out.only s (execCredit h data s) [.fields, .dies] := by
  unfold execCredit
  repeat' first
    | with_reducible first
        | apply State.layer_step | apply next_only | apply fault_only | apply out_ite | assumption | apply only_refl | decide
        | apply only_ite | apply only_step (State.setAcctSrc_only ..)
    | (intro v a hv) | (intro v hv) | extract_lets | split | (dsimp +zetaDelta only [])
theorem execCreditSendDue_only (a : AcctId) (t : Nat) (s : State) : Out.only s (execCreditSendDue a t s) [.now, .dies] := by
  unfold execCreditSendDue
  repeat' first
    | with_reducible first
        | apply next_only | apply fault_only | apply out_ite | assumption | apply only_refl | decide | apply only_ite
        | apply only_step (State.setAcctSink_only ..) | apply only_step (State.send_only ..)
        | apply only_step (State.clock_only ..)
    | (intro v a hv) | (intro v hv) | extract_lets | split | (dsimp +zetaDelta only [])
theorem State.checkCensus_only (s : State) (a : AcctId) (epoch : Byte) (granted received : Nat) : s.onlyChanges
    (State.checkCensus s a epoch granted received) [.fields, .dies] := by
  unfold State.checkCensus
  repeat' first
    | with_reducible first
        | assumption | apply only_refl | decide | apply only_ite | apply only_step (State.loseReqs_only ..)
        | apply only_step (State.resetAcct_only ..) | apply only_step (State.setAcctSrc_only ..)
        | apply only_step (State.report_only ..)
    | (intro v a hv) | (intro v hv) | extract_lets | split | (dsimp +zetaDelta only [])
theorem execCensus_only (h : Hdr) (data : List Byte) (t : Nat) (s : State) : Out.only s (execCensus h data t s) [.now,
    .fields, .dies] := by
  unfold execCensus
  repeat' first
    | with_reducible first
        | apply State.layer_step | apply next_only | apply fault_only | apply out_ite | assumption | apply only_refl | decide
        | apply only_ite | apply only_step (State.checkCensus_only ..) | apply only_step (State.clock_only ..)
    | (intro v a hv) | (intro v hv) | extract_lets | split | (dsimp +zetaDelta only [])
theorem execCensusDue_only (a : AcctId) (s : State) : Out.only s (execCensusDue a s) [.fields, .dies] := by
  unfold execCensusDue
  repeat' first
    | with_reducible first
        | apply next_only | apply fault_only | apply out_ite | assumption | apply only_refl | decide | apply only_ite
        | apply only_step (State.checkCensus_only ..) | apply only_step (State.send_only ..)
    | (intro v a hv) | (intro v hv) | extract_lets | split | (dsimp +zetaDelta only [])
theorem execLostNotice_only (h : Hdr) (data : List Byte) (t : Nat) (s : State) : Out.only s (execLostNotice h data t s) [.now,
    .fields, .dies] := by
  unfold execLostNotice
  repeat' first
    | with_reducible first
        | apply State.layer_step | apply next_only | apply fault_only | apply out_ite | assumption | apply only_refl | decide
        | apply only_ite | apply only_step (State.loseReq_only ..) | apply only_step (State.setAcctSrc_only ..)
        | apply only_step (State.clock_only ..)
    | (intro v a hv) | (intro v hv) | extract_lets | split | (dsimp +zetaDelta only [])
theorem execRouteHold_only (h : Hdr) (t : Nat) (s : State) : Out.only s (execRouteHold h t s) [.now, .fields, .dies] := by
  unfold execRouteHold
  repeat' first
    | with_reducible first
        | apply State.layer_step | apply next_only | apply fault_only | apply out_ite | assumption | apply only_refl | decide
        | apply only_ite | apply only_step (State.noteHold_only ..) | apply only_step (State.clock_only ..)
    | (intro v a hv) | (intro v hv) | extract_lets | split | (dsimp +zetaDelta only [])
theorem execRouteClear_only (h : Hdr) (t : Nat) (s : State) : Out.only s (execRouteClear h t s) [.now, .fields, .dies] := by
  unfold execRouteClear
  repeat' first
    | with_reducible first
        | apply State.layer_step | apply next_only | apply fault_only | apply out_ite | assumption | apply only_refl | decide
        | apply only_ite | apply only_step (State.noteHold_only ..) | apply only_step (State.clock_only ..)
    | (intro v a hv) | (intro v hv) | extract_lets | split | (dsimp +zetaDelta only [])
theorem execSfTimerExpiry_only (d : DieId) (unit tag : Nat) (t : Nat) (s : State) : Out.only s (execSfTimerExpiry d unit tag t
    s) [.now, .fields, .dies] := by
  unfold execSfTimerExpiry
  repeat' first
    | with_reducible first
        | apply next_only | apply fault_only | apply out_ite | assumption | apply only_refl | decide | apply only_ite
        | apply only_step (State.settleTimers_only ..) | apply only_step (State.report_only ..)
        | apply only_step (State.clock_only ..) | apply only_step (State.onDie_only ..)
    | (intro v a hv) | (intro v hv) | extract_lets | split | (dsimp +zetaDelta only [])
theorem execSfCeilingExpiry_only (d : DieId) (unit tag : Nat) (t : Nat) (s : State) : Out.only s (execSfCeilingExpiry d unit
    tag t s) [.now, .fields, .dies] := by
  unfold execSfCeilingExpiry
  repeat' first
    | with_reducible first
        | apply next_only | apply fault_only | apply out_ite | assumption | apply only_refl | decide | apply only_ite
        | apply only_step (State.settleTimers_only ..) | apply only_step (State.report_only ..)
        | apply only_step (State.clock_only ..) | apply only_step (State.onDie_only ..)
    | (intro v a hv) | (intro v hv) | extract_lets | split | (dsimp +zetaDelta only [])
theorem State.leveeRefuse_only (s : State) (h : Hdr) : s.onlyChanges (State.leveeRefuse s h) [.fields, .dies] := by
  unfold State.leveeRefuse
  repeat' first
    | with_reducible first
        | assumption | apply only_refl | decide | apply only_ite | apply only_step (State.onCnt_only ..)
        | apply only_step (State.refuse_only ..) | apply only_step (State.report_only ..)
    | (intro v a hv) | (intro v hv) | extract_lets | split | (dsimp +zetaDelta only [])
theorem State.readCheck_only (s : State) (d : DieId) (a len : Nat) : s.onlyChanges (State.readCheck s d a len) [.free,
    .fields, .dies] := by
  unfold State.readCheck
  repeat' first
    | with_reducible first
        | assumption | apply only_refl | decide | apply only_ite | apply only_step (State.hbmRead_only ..)
        | apply only_forEach
    | (intro v a hv) | (intro v hv) | extract_lets | split | (dsimp +zetaDelta only [])
theorem execMemRd_only (h : Hdr) (t : Nat) (s : State) : Out.only s (execMemRd h t s) [.now, .free, .effects, .fields, .dies]
    := by
  unfold execMemRd
  repeat' first
    | with_reducible first
        | apply next_only | apply fault_only | apply out_ite | assumption | apply only_refl | decide | apply only_ite
        | apply only_step (State.readCheck_only ..) | apply only_step (State.leveeRefuse_only ..)
        | apply only_step (State.refuse_only ..) | apply only_step (State.unsupported_only ..)
        | apply only_step (State.respond_only ..) | apply only_step (State.arrive_only ..)
        | apply only_step (State.clock_only ..) | apply only_step (State.spend_only ..) | apply only_step (State.emit_only ..)
    | (intro v a hv) | (intro v hv) | extract_lets | split | (dsimp +zetaDelta only [])
theorem State.memWrite_only (s : State) (h : Hdr) (data : List Byte) : s.onlyChanges (State.memWrite s h data).1 [.effects,
    .fields, .dies] := by
  unfold State.memWrite
  repeat' first
    | with_reducible first
        | assumption | apply only_refl | decide | apply only_ite | apply only_step (State.leveeRefuse_only ..)
        | apply only_step (State.refuse_only ..) | apply only_step (State.unsupported_only ..)
        | apply only_step (State.emit_only ..) | apply only_step (State.onDie_only ..)
    | (intro v a hv) | (intro v hv) | extract_lets | split | (dsimp +zetaDelta only [])
theorem execMemWr_only (h : Hdr) (data : List Byte) (t : Nat) (s : State) : Out.only s (execMemWr h data t s) [.now, .effects,
    .fields, .dies] := by
  unfold execMemWr
  repeat' first
    | with_reducible first
        | apply next_only | apply fault_only | apply out_ite | assumption | apply only_refl | decide | apply only_ite
        | apply only_step (State.memWrite_only ..) | apply only_step (State.arrive_only ..)
        | apply only_step (State.clock_only ..)
    | (refine only_of_pair (State.memWrite_only ..) (by assumption) (by decide) ?_) | (intro v a hv) | (intro v hv)
    | extract_lets | split | (dsimp +zetaDelta only [])
theorem execMemWrNp_only (h : Hdr) (data : List Byte) (t : Nat) (s : State) : Out.only s (execMemWrNp h data t s) [.now,
    .effects, .fields, .dies] := by
  unfold execMemWrNp
  repeat' first
    | with_reducible first
        | apply next_only | apply fault_only | apply out_ite | assumption | apply only_refl | decide | apply only_ite
        | apply only_step (State.memWrite_only ..) | apply only_step (State.respond_only ..)
        | apply only_step (State.arrive_only ..) | apply only_step (State.clock_only ..)
    | (refine only_of_pair (State.memWrite_only ..) (by assumption) (by decide) ?_) | (intro v a hv) | (intro v hv)
    | extract_lets | split | (dsimp +zetaDelta only [])
theorem execMemAtomic_only (h : Hdr) (data : List Byte) (t : Nat) (s : State) : Out.only s (execMemAtomic h data t s) [.now,
    .free, .effects, .fields, .dies] := by
  unfold execMemAtomic
  repeat' first
    | with_reducible first
        | apply next_only | apply fault_only | apply out_ite | assumption | apply only_refl | decide | apply only_ite
        | apply only_step (State.readCheck_only ..) | apply only_step (State.leveeRefuse_only ..)
        | apply only_step (State.refuse_only ..) | apply only_step (State.unsupported_only ..)
        | apply only_step (State.respond_only ..) | apply only_step (State.arrive_only ..)
        | apply only_step (State.clock_only ..) | apply only_step (State.spend_only ..) | apply only_step (State.emit_only ..)
        | apply only_step (State.onDie_only ..)
    | (intro v a hv) | (intro v hv) | extract_lets | split | (dsimp +zetaDelta only [])
theorem execMemCpl_only (h : Hdr) (data : List Byte) (t : Nat) (s : State) : Out.only s (execMemCpl h data t s) [.now,
    .fields, .dies] := by
  unfold execMemCpl
  repeat' first
    | with_reducible first
        | apply next_only | apply fault_only | apply out_ite | assumption | apply only_refl | decide | apply only_ite
        | apply only_step (State.complete_only ..) | apply only_step (State.clock_only ..)
    | (intro v a hv) | (intro v hv) | extract_lets | split | (dsimp +zetaDelta only [])
theorem execMemCplNd_only (h : Hdr) (t : Nat) (s : State) : Out.only s (execMemCplNd h t s) [.now, .fields, .dies] := by
  unfold execMemCplNd
  repeat' first
    | with_reducible first
        | apply next_only | apply fault_only | apply out_ite | assumption | apply only_refl | decide | apply only_ite
        | apply only_step (State.complete_only ..) | apply only_step (State.clock_only ..)
    | (intro v a hv) | (intro v hv) | extract_lets | split | (dsimp +zetaDelta only [])
theorem State.ownGrant_only (s : State) (home agent : DieId) (tag line field cst : Nat) : s.onlyChanges (State.ownGrant s home
    agent tag line field cst) [.free, .fields, .dies] := by
  unfold State.ownGrant
  repeat' first
    | with_reducible first
        | assumption | apply only_refl | decide | apply only_ite | apply only_step (State.send_only ..)
        | apply only_step (State.hbmRead_only ..)
    | (intro v a hv) | (intro v hv) | extract_lets | split | (dsimp +zetaDelta only [])
theorem State.sendInval_only (s : State) (home owner : DieId) (line field : Nat) : s.onlyChanges (State.sendInval s home owner
    line field) [.dies] := by
  unfold State.sendInval
  repeat' first
    | with_reducible first
        | assumption | apply only_refl | decide | apply only_ite | apply only_step (State.send_only ..)
        | apply only_step (State.onDie_only ..)
    | (intro v a hv) | (intro v hv) | extract_lets | split | (dsimp +zetaDelta only [])
theorem execOwnReq_only (h : Hdr) (t : Nat) (s : State) : Out.only s (execOwnReq h t s) [.now, .free, .fields, .dies] := by
  unfold execOwnReq
  repeat' first
    | with_reducible first
        | apply next_only | apply fault_only | apply out_ite | assumption | apply only_refl | decide | apply only_ite
        | apply only_step (State.sendInval_only ..) | apply only_step (State.ownGrant_only ..)
        | apply only_step (State.leveeRefuse_only ..) | apply only_step (State.unsupported_only ..)
        | apply only_step (State.respond_only ..) | apply only_step (State.arrive_only ..)
        | apply only_step (State.clock_only ..) | apply only_step (State.onDie_only ..)
    | (intro v a hv) | (intro v hv) | extract_lets | split | (dsimp +zetaDelta only [])
theorem State.evict_only (s : State) (d : DieId) : s.onlyChanges (State.evict s d) [.dies] := by
  unfold State.evict
  repeat' first
    | with_reducible first
        | assumption | apply only_refl | decide | apply only_ite | apply only_step (State.send_only ..)
        | apply only_step (State.onDie_only ..)
    | (intro v a hv) | (intro v hv) | extract_lets | split | (dsimp +zetaDelta only [])
theorem execOwnGrant_only (h : Hdr) (data : List Byte) (t : Nat) (s : State) : Out.only s (execOwnGrant h data t s) [.now,
    .fields, .dies] := by
  unfold execOwnGrant
  repeat' first
    | with_reducible first
        | apply next_only | apply fault_only | apply out_ite | assumption | apply only_refl | decide | apply only_ite
        | apply only_step (State.evict_only ..) | apply only_step (State.complete_only ..)
        | apply only_step (State.clock_only ..) | apply only_step (State.onDie_only ..)
    | (intro v a hv) | (intro v hv) | extract_lets | split | (dsimp +zetaDelta only [])
theorem execInval_only (h : Hdr) (s : State) : Out.only s (execInval h s) [.fields, .dies] := by
  unfold execInval
  repeat' first
    | with_reducible first
        | apply next_only | apply fault_only | apply out_ite | assumption | apply only_refl | decide | apply only_ite
        | apply only_step (State.respond_only ..) | apply only_step (State.sfDiscard_only ..)
        | apply only_step (State.onDie_only ..)
    | (intro v a hv) | (intro v hv) | extract_lets | split | (dsimp +zetaDelta only [])
theorem State.writeBack_only (s : State) (home : DieId) (line field : Nat) (data : List Byte) (bad : Bool) : s.onlyChanges
    (State.writeBack s home line field data bad) [.fields, .dies] := by
  unfold State.writeBack
  repeat' first
    | with_reducible first
        | assumption | apply only_refl | decide | apply only_ite | apply only_step (State.onCnt_only ..)
        | apply only_step (State.report_only ..) | apply only_step (State.onDie_only ..)
    | (intro v a hv) | (intro v hv) | extract_lets | split | (dsimp +zetaDelta only [])
theorem State.lineBack_only (s : State) (home : DieId) (line field : Nat) (data : List Byte) (bad : Bool) : s.onlyChanges
    (State.lineBack s home line field data bad) [.free, .fields, .dies] := by
  unfold State.lineBack
  repeat' first
    | with_reducible first
        | assumption | apply only_refl | decide | apply only_ite | apply only_step (State.writeBack_only ..)
        | apply only_step (State.sendInval_only ..) | apply only_step (State.ownGrant_only ..)
        | apply only_step (State.onDie_only ..) | apply only_forEach
    | (intro v a hv) | (intro v hv) | extract_lets | split | (dsimp +zetaDelta only [])
theorem execInvalAck_only (h : Hdr) (data : List Byte) (s : State) : Out.only s (execInvalAck h data s) [.free, .fields,
    .dies] := by
  unfold execInvalAck
  repeat' first
    | with_reducible first
        | apply next_only | apply fault_only | apply out_ite | assumption | apply only_refl | decide | apply only_ite
        | apply only_step (State.lineBack_only ..) | apply only_step (State.sfDiscard_only ..)
    | (intro v a hv) | (intro v hv) | extract_lets | split | (dsimp +zetaDelta only [])
theorem execRelease_only (h : Hdr) (data : List Byte) (t : Nat) (s : State) : Out.only s (execRelease h data t s) [.now,
    .free, .fields, .dies] := by
  unfold execRelease
  repeat' first
    | with_reducible first
        | apply next_only | apply fault_only | apply out_ite | assumption | apply only_refl | decide | apply only_ite
        | apply only_step (State.lineBack_only ..) | apply only_step (State.unsupported_only ..)
        | apply only_step (State.arrive_only ..) | apply only_step (State.clock_only ..)
    | (intro v a hv) | (intro v hv) | extract_lets | split | (dsimp +zetaDelta only [])
theorem execIntMsg_only (h : Hdr) (data : List Byte) (t : Nat) (s : State) : Out.only s (execIntMsg h data t s) [.now,
    .effects, .ports, .fields, .dies, .trouble] := by
  unfold execIntMsg
  repeat' first
    | with_reducible first
        | apply next_only | apply fault_only | apply out_ite | assumption | apply only_refl | decide | apply only_ite
        | apply only_step (State.unsupported_only ..) | apply only_step (State.arrive_only ..)
        | apply only_step (State.sfDiscard_only ..) | apply only_step (State.undelivered_only ..)
        | apply only_step (State.raise_only ..) | apply only_step (State.clock_only ..)
    | (intro v a hv) | (intro v hv) | extract_lets | split | (dsimp +zetaDelta only [])
theorem State.completeEntry_only (s : State) (f : Fin 8) (status reached poison csum clean : Nat) : s.onlyChanges
    (State.completeEntry s f status reached poison csum clean) [.effects, .ports, .fields, .dies, .trouble] := by
  unfold State.completeEntry
  repeat' first
    | with_reducible first
        | assumption | apply only_refl | decide | apply only_ite | apply only_step (State.notify_only ..)
        | apply only_step (State.setField_only ..)
    | (intro v a hv) | (intro v hv) | extract_lets | split | (dsimp +zetaDelta only [])
theorem State.completeBare_only (s : State) (f : Fin 8) (status : Nat) : s.onlyChanges (State.completeBare s f status)
    [.effects, .ports, .fields, .dies, .trouble] := by
  unfold State.completeBare
  repeat' first
    | with_reducible first
        | assumption | apply only_refl | decide | apply only_ite | apply only_step (State.completeEntry_only ..)
    | (intro v a hv) | (intro v hv) | extract_lets | split | (dsimp +zetaDelta only [])
theorem State.completeRun_only (s : State) (f : Fin 8) (r : Running) (status : Nat) : s.onlyChanges (State.completeRun s f r
    status) [.effects, .ports, .fields, .dies, .trouble] := by
  unfold State.completeRun
  repeat' first
    | with_reducible first
        | assumption | apply only_refl | decide | apply only_ite | apply only_step (State.completeEntry_only ..)
        | apply only_step (State.onField_only ..)
    | (intro v a hv) | (intro v hv) | extract_lets | split | (dsimp +zetaDelta only [])
theorem State.settlePonds_only (s : State) (f : Fin 8) : s.onlyChanges (State.settlePonds s f) [.links] := by
  unfold State.settlePonds
  repeat' first
    | with_reducible first
        | assumption | apply only_refl | decide | apply only_ite | apply only_step (State.onPort_only ..) | apply only_forEach
    | (intro v a hv) | (intro v hv) | extract_lets | split | (dsimp +zetaDelta only [])
theorem State.completeAll_only (s : State) (f : Fin 8) (status : Nat) : s.onlyChanges (State.completeAll s f status)
    [.effects, .ports, .fields, .dies, .links, .trouble] := by
  unfold State.completeAll
  repeat' first
    | with_reducible first
        | assumption | apply only_refl | decide | apply only_ite | apply only_step (State.settlePonds_only ..)
        | apply only_step (State.completeRun_only ..) | apply only_step (State.completeBare_only ..)
        | apply only_step (State.onField_only ..) | apply only_foldl
    | (intro v a hv) | (intro v hv) | extract_lets | split | (dsimp +zetaDelta only [])
theorem State.startWave_only (s : State) (f : Fin 8) : s.onlyChanges (State.startWave s f) [.dies] := by
  unfold State.startWave
  repeat' first
    | with_reducible first
        | assumption | apply only_refl | decide | apply only_ite | apply only_step (State.inject_only ..)
        | apply only_step (State.onDie_only ..) | apply only_forEach
    | (intro v a hv) | (intro v hv) | extract_lets | split | (dsimp +zetaDelta only [])
theorem State.startDrain_only (s : State) (f : Fin 8) (why : Why) : s.onlyChanges (State.startDrain s f why) [.fields, .dies]
    := by
  unfold State.startDrain
  repeat' first
    | with_reducible first
        | assumption | apply only_refl | decide | apply only_ite | apply only_step (State.startWave_only ..)
        | apply only_step (State.onField_only ..)
    | (intro v a hv) | (intro v hv) | extract_lets | split | (dsimp +zetaDelta only [])
theorem State.flushDie_only (s : State) (d : DieId) : s.onlyChanges (State.flushDie s d) [.dies, .links] := by
  unfold State.flushDie
  repeat' first
    | with_reducible first
        | assumption | apply only_refl | decide | apply only_ite | apply only_step (State.onPort_only ..)
        | apply only_step (State.onDie_only ..) | apply only_forEach
    | (intro v a hv) | (intro v hv) | extract_lets | split | (dsimp +zetaDelta only [])
theorem State.flushField_only (s : State) (f : Fin 8) (whole : Bool) : s.onlyChanges (State.flushField s f whole) [.fields,
    .dies, .links] := by
  unfold State.flushField
  repeat' first
    | with_reducible first
        | assumption | apply only_refl | decide | apply only_ite | apply only_step (State.flushDie_only ..)
        | apply only_step (State.discardHeld_only ..) | apply only_step (State.loseReqs_only ..) | apply only_forEach
    | (intro v a hv) | (intro v hv) | extract_lets | split | (dsimp +zetaDelta only [])
theorem State.streamBlock_only (s : State) (f : Fin 8) (d : DieId) : s.onlyChanges (State.streamBlock s f d) [.dies] := by
  unfold State.streamBlock
  repeat' first
    | with_reducible first
        | assumption | apply only_refl | decide | apply only_ite | apply only_step (State.inject_only ..)
    | (intro v a hv) | (intro v hv) | extract_lets | split | (dsimp +zetaDelta only [])
theorem State.startSwitch_only (s : State) (f : Fin 8) (form : Form) (staged : Bool) : s.onlyChanges (State.startSwitch s f
    form staged) [.fields, .dies] := by
  unfold State.startSwitch
  repeat' first
    | with_reducible first
        | assumption | apply only_refl | decide | apply only_ite | apply only_step (State.streamBlock_only ..)
        | apply only_step (State.onField_only ..) | apply only_step (State.onDie_only ..) | apply only_forEach
    | (intro v a hv) | (intro v hv) | extract_lets | split | (dsimp +zetaDelta only [])
theorem State.finishSwitch_only (s : State) (f : Fin 8) : s.onlyChanges (State.finishSwitch s f) [.fields, .dies] := by
  unfold State.finishSwitch
  repeat' first
    | with_reducible first
        | assumption | apply only_refl | decide | apply only_ite | apply only_step (State.onField_only ..)
        | apply only_step (State.onDie_only ..) | apply only_forEach | apply only_foldl
    | (intro v a hv) | (intro v hv) | extract_lets | split | (dsimp +zetaDelta only [])
theorem State.startReload_only (s : State) (f : Fin 8) (staged : Bool) : s.onlyChanges (State.startReload s f staged)
    [.fields, .dies] := by
  unfold State.startReload
  repeat' first
    | with_reducible first
        | assumption | apply only_refl | decide | apply only_ite | apply only_step (State.startDrain_only ..)
        | apply only_step (State.onField_only ..)
    | (intro v a hv) | (intro v hv) | extract_lets | split | (dsimp +zetaDelta only [])
theorem State.reloadNow_only (s : State) (f : Fin 8) : s.onlyChanges (State.reloadNow s f) [.fields, .dies] := by
  unfold State.reloadNow
  repeat' first
    | with_reducible first
        | assumption | apply only_refl | decide | apply only_ite | apply only_step (State.startReload_only ..)
    | (intro v a hv) | (intro v hv) | extract_lets | split | (dsimp +zetaDelta only [])
theorem State.dropOverrun_only (s : State) (f : Fin 8) (p : Plan) (set : Option Nat) : s.onlyChanges (State.dropOverrun s f p
    set) [.free, .fields, .dies, .links] := by
  unfold State.dropOverrun
  repeat' first
    | with_reducible first
        | assumption | apply only_refl | decide | apply only_ite | apply only_step (State.substituteFrom_only ..)
        | apply only_step (State.meshError_only ..) | apply only_step (State.onPort_only ..) | apply only_forEach
    | (intro v a hv) | (intro v hv) | extract_lets | split | (dsimp +zetaDelta only [])
theorem State.dropInserted_only (s : State) (f : Fin 8) : s.onlyChanges (State.dropInserted s f) [.free, .fields, .dies,
    .links] := by
  unfold State.dropInserted
  repeat' first
    | with_reducible first
        | assumption | apply only_refl | decide | apply only_ite | apply only_step (State.dropOverrun_only ..)
    | (intro v a hv) | (intro v hv) | extract_lets | split | (dsimp +zetaDelta only [])
theorem State.keepSet_only (s : State) (f : Fin 8) (b : Nat) : s.onlyChanges (State.keepSet s f b) [.fields] := by
  unfold State.keepSet
  repeat' first
    | with_reducible first
        | assumption | apply only_refl | decide | apply only_ite | apply only_step (State.onField_only ..)
    | (intro v a hv) | (intro v hv) | extract_lets | split | (dsimp +zetaDelta only [])
theorem State.beginStep_only (s : State) (f : Fin 8) (r : Running) (b : Nat) : s.onlyChanges (State.beginStep s f r b) [.free,
    .fields, .dies, .links] := by
  unfold State.beginStep
  repeat' first
    | with_reducible first
        | assumption | apply only_refl | decide | apply only_ite | apply only_step (State.dropOverrun_only ..)
        | apply only_step (State.onField_only ..)
    | (intro v a hv) | (intro v hv) | extract_lets | split | (dsimp +zetaDelta only [])
theorem State.nextStep_only (s : State) (f : Fin 8) (r : Running) (b : Nat) : s.onlyChanges (State.nextStep s f r b) [.free,
    .fields, .dies, .links] := by
  unfold State.nextStep
  repeat' first
    | with_reducible first
        | assumption | apply only_refl | decide | apply only_ite | apply only_step (State.beginStep_only ..)
        | apply only_step (State.dropInserted_only ..) | apply only_step (State.onField_only ..)
    | (intro v a hv) | (intro v hv) | extract_lets | split | (dsimp +zetaDelta only [])
theorem State.afterStep_only (s : State) (f : Fin 8) (r : Running) (b len : Nat) : s.onlyChanges (State.afterStep s f r b len)
    [.free, .fields, .dies, .links] := by
  unfold State.afterStep
  repeat' first
    | with_reducible first
        | assumption | apply only_refl | decide | apply only_ite | apply only_step (State.nextStep_only ..)
        | apply only_step (State.dropInserted_only ..) | apply only_step (State.onField_only ..)
    | (intro v a hv) | (intro v hv) | extract_lets | split | (dsimp +zetaDelta only [])
theorem State.startLaunch_only (s : State) (f : Fin 8) (r : Running) (exactAt : Option Nat) : s.onlyChanges (State.startLaunch
    s f r exactAt) [.free, .fields, .dies, .links] := by
  unfold State.startLaunch
  repeat' first
    | with_reducible first
        | assumption | apply only_refl | decide | apply only_ite | apply only_step (State.nextStep_only ..)
        | apply only_step (State.onField_only ..)
    | (intro v a hv) | (intro v hv) | extract_lets | split | (dsimp +zetaDelta only [])
theorem State.recallHomes_only (s : State) (f : Fin 8) : s.onlyChanges (State.recallHomes s f) [.fields, .dies] := by
  unfold State.recallHomes
  repeat' first
    | with_reducible first
        | assumption | apply only_refl | decide | apply only_ite | apply only_step (State.sendInval_only ..)
        | apply only_step (State.onField_only ..) | apply only_forEach
    | (intro v a hv) | (intro v hv) | extract_lets | split | (dsimp +zetaDelta only [])
theorem State.checkEntry_only (s : State) (f : Fin 8) (i : Nat) (exactAt : Option Nat) : s.onlyChanges (State.checkEntry s f i
    exactAt) [.free, .effects, .ports, .fields, .dies, .links, .trouble] := by
  unfold State.checkEntry
  repeat' first
    | with_reducible first
        | assumption | apply only_refl | decide | apply only_ite | apply only_step (State.startLaunch_only ..)
        | apply only_step (State.completeBare_only ..) | apply only_step (State.onField_only ..)
    | (intro v a hv) | (intro v hv) | extract_lets | split | (dsimp +zetaDelta only [])
theorem State.applyChange_only (s : State) (f : Fin 8) (b : Nat) : s.onlyChanges (State.applyChange s f b) [.fields] := by
  unfold State.applyChange
  repeat' first
    | with_reducible first
        | assumption | apply only_refl | decide | apply only_ite | apply only_step (State.onField_only ..)
    | (intro v a hv) | (intro v hv) | extract_lets | split | (dsimp +zetaDelta only [])
theorem State.closeGate_only (s : State) (f : Fin 8) (why : Why) : s.onlyChanges (State.closeGate s f why) [.effects, .ports,
    .fields, .dies, .trouble] := by
  unfold State.closeGate
  repeat' first
    | with_reducible first
        | assumption | apply only_refl | decide | apply only_ite | apply only_step (State.startDrain_only ..)
        | apply only_step (State.completeRun_only ..) | apply only_step (State.onField_only ..)
    | (intro v a hv) | (intro v hv) | extract_lets | split | (dsimp +zetaDelta only [])
theorem State.endStep_only (s : State) (f : Fin 8) (r : Running) : s.onlyChanges (State.endStep s f r).1 [.free, .fields,
    .dies] := by
  unfold State.endStep
  repeat' first
    | with_reducible first
        | assumption | apply only_refl | decide | apply only_ite | apply only_step (State.report_only ..)
        | apply only_step (State.spend_only ..) | apply only_step (State.onField_only ..) | apply only_forEach
    | (intro v a hv) | (intro v hv) | extract_lets | split | (dsimp +zetaDelta only [])
theorem State.endLaunch_only (s : State) (f : Fin 8) (r : Running) (b status : Nat) : s.onlyChanges (State.endLaunch s f r b
    status) [.effects, .ports, .fields, .dies, .trouble] := by
  unfold State.endLaunch
  repeat' first
    | with_reducible first
        | assumption | apply only_refl | decide | apply only_ite | apply only_step (State.completeRun_only ..)
        | apply only_step (State.onField_only ..)
    | (intro v a hv) | (intro v hv) | extract_lets | split | (dsimp +zetaDelta only [])
theorem State.freezeField_only (s : State) (f : Fin 8) (b : Nat) (r : Option Running) : s.onlyChanges (State.freezeField s f b
    r) [.fields] := by
  unfold State.freezeField
  repeat' first
    | with_reducible first
        | assumption | apply only_refl | decide | apply only_ite | apply only_step (State.onField_only ..)
    | (intro v a hv) | (intro v hv) | extract_lets | split | (dsimp +zetaDelta only [])
theorem State.stopCancelled_only (s : State) (f : Fin 8) (r : Running) (b : Nat) : s.onlyChanges (State.stopCancelled s f r b)
    [.effects, .ports, .fields, .dies, .trouble] := by
  unfold State.stopCancelled
  repeat' first
    | with_reducible first
        | assumption | apply only_refl | decide | apply only_ite | apply only_step (State.startDrain_only ..)
        | apply only_step (State.completeRun_only ..) | apply only_step (State.onField_only ..)
    | (intro v a hv) | (intro v hv) | extract_lets | split | (dsimp +zetaDelta only [])
theorem State.passBoundary_only (s : State) (f : Fin 8) (r : Running) (b : Nat) : s.onlyChanges (State.passBoundary s f r b)
    [.free, .effects, .ports, .fields, .dies, .links, .trouble] := by
  unfold State.passBoundary
  repeat' first
    | with_reducible first
        | assumption | apply only_refl | decide | apply only_ite | apply only_step (State.stopCancelled_only ..)
        | apply only_step (State.freezeField_only ..) | apply only_step (State.endLaunch_only ..)
        | apply only_step (State.endStep_only ..) | apply only_step (State.closeGate_only ..)
        | apply only_step (State.applyChange_only ..) | apply only_step (State.afterStep_only ..)
        | apply only_step (State.beginStep_only ..) | apply only_step (State.keepSet_only ..)
        | apply only_step (State.settlePonds_only ..) | apply only_step (State.onField_only ..)
    | (refine only_of_pair (State.endStep_only ..) (by assumption) (by decide) ?_) | (intro v a hv) | (intro v hv)
    | extract_lets | split | (dsimp +zetaDelta only [])
theorem State.sluice_only (s : State) (d : DieId) (f : Fin 8) (port : Nat) : s.onlyChanges (State.sluice s d f port) [.fields,
    .dies] := by
  unfold State.sluice
  repeat' first
    | with_reducible first
        | assumption | apply only_refl | decide | apply only_ite | apply only_step (State.onField_only ..)
        | apply only_step (State.onDie_only ..) | apply only_foldl
    | (intro v a hv) | (intro v hv) | extract_lets | split | (dsimp +zetaDelta only [])
theorem State.stalePlans_only (s : State) (p : PortId) : s.onlyChanges (State.stalePlans s p) [.fields] := by
  unfold State.stalePlans
  repeat' first
    | with_reducible first
        | assumption | apply only_refl | decide | apply only_ite | apply only_step (State.onField_only ..)
        | apply only_forEach
    | (intro v a hv) | (intro v hv) | extract_lets | split | (dsimp +zetaDelta only [])
theorem State.publish_only (s : State) (p : PortId) (peer : Option PortId) (pinned : Nat) : s.onlyChanges (State.publish s p
    peer pinned) [.fields, .links, .ledgerEpoch] := by
  unfold State.publish
  repeat' first
    | with_reducible first
        | assumption | apply only_refl | decide | apply only_ite | apply only_step (State.stalePlans_only ..)
        | apply only_step (State.setLedgerEpoch_only ..) | apply only_step (State.onLink_only ..)
    | (intro v a hv) | (intro v hv) | extract_lets | split | (dsimp +zetaDelta only [])
theorem State.publishPort_only (s : State) (p : PortId) : s.onlyChanges (State.publishPort s p) [.fields, .links,
    .ledgerEpoch] := by
  unfold State.publishPort
  repeat' first
    | with_reducible first
        | assumption | apply only_refl | decide | apply only_ite | apply only_step (State.publish_only ..)
        | apply only_step (State.onLink_only ..)
    | (intro v a hv) | (intro v hv) | extract_lets | split | (dsimp +zetaDelta only [])
theorem State.losePin_only (s : State) (p : PortId) : s.onlyChanges (State.losePin s p) [.fields, .dies] := by
  unfold State.losePin
  repeat' first
    | with_reducible first
        | assumption | apply only_refl | decide | apply only_ite | apply only_step (State.sluice_only ..)
        | apply only_step (State.report_only ..) | apply only_forEach
    | (intro v a hv) | (intro v hv) | extract_lets | split | (dsimp +zetaDelta only [])
theorem State.markPinLost_only (s : State) (p : PortId) : s.onlyChanges (State.markPinLost s p) [.fields, .dies, .links] := by
  unfold State.markPinLost
  repeat' first
    | with_reducible first
        | assumption | apply only_refl | decide | apply only_ite | apply only_step (State.losePin_only ..)
        | apply only_step (State.onPort_only ..)
    | (intro v a hv) | (intro v hv) | extract_lets | split | (dsimp +zetaDelta only [])
theorem State.sendLc_only (s : State) (p : PortId) (m : LcMsg) : s.onlyChanges (State.sendLc s p m) [.links] := by
  unfold State.sendLc
  repeat' first
    | with_reducible first
        | assumption | apply only_refl | decide | apply only_ite | apply only_step (State.onPort_only ..)
    | (intro v a hv) | (intro v hv) | extract_lets | split | (dsimp +zetaDelta only [])
theorem State.lcAnswered_only (s : State) (p : PortId) (type : Nat) : s.onlyChanges (State.lcAnswered s p type) [.links] := by
  unfold State.lcAnswered
  repeat' first
    | with_reducible first
        | assumption | apply only_refl | decide | apply only_ite | apply only_step (State.onPort_only ..)
    | (intro v a hv) | (intro v hv) | extract_lets | split | (dsimp +zetaDelta only [])
theorem execTallyMarkSend_only (p : PortId) (t : Nat) (s : State) : Out.only s (execTallyMarkSend p t s) [.now, .dies, .links]
    := by
  unfold execTallyMarkSend
  repeat' first
    | with_reducible first
        | apply next_only | apply fault_only | apply out_ite | assumption | apply only_refl | decide | apply only_ite
        | apply only_step (State.sendLc_only ..) | apply only_step (State.clock_only ..)
        | apply only_step (State.onPort_only ..)
    | (intro v a hv) | (intro v hv) | extract_lets | split | (dsimp +zetaDelta only [])
theorem State.onTally_only (s : State) (d : DieId) (g : Tally → Tally) : s.onlyChanges (State.onTally s d g) [.dies] := by
  unfold State.onTally
  repeat' first
    | with_reducible first
        | assumption | apply only_refl | decide | apply only_ite | apply only_step (State.onDie_only ..)
    | (intro v a hv) | (intro v hv) | extract_lets | split | (dsimp +zetaDelta only [])
theorem State.enterFault_only (s : State) (d : DieId) : s.onlyChanges (State.enterFault s d) [.fields, .dies] := by
  unfold State.enterFault
  repeat' first
    | with_reducible first
        | assumption | apply only_refl | decide | apply only_ite | apply only_step (State.onTally_only ..)
        | apply only_step (State.losePin_only ..) | apply only_step (State.sluice_only ..)
        | apply only_step (State.report_only ..) | apply only_forEach
    | (intro v a hv) | (intro v hv) | extract_lets | split | (dsimp +zetaDelta only [])
theorem State.enterHoldover_only (s : State) (d : DieId) : s.onlyChanges (State.enterHoldover s d) [.dies] := by
  unfold State.enterHoldover
  repeat' first
    | with_reducible first
        | assumption | apply only_refl | decide | apply only_ite | apply only_step (State.onTally_only ..)
    | (intro v a hv) | (intro v hv) | extract_lets | split | (dsimp +zetaDelta only [])
theorem State.takeParent_only (s : State) (d : DieId) (q : Fin 5) (x : Seen) : s.onlyChanges (State.takeParent s d q x)
    [.fields, .dies] := by
  unfold State.takeParent
  repeat' first
    | with_reducible first
        | assumption | apply only_refl | decide | apply only_ite | apply only_step (State.enterHoldover_only ..)
        | apply only_step (State.enterFault_only ..) | apply only_step (State.onTally_only ..)
    | (intro v a hv) | (intro v hv) | extract_lets | split | (dsimp +zetaDelta only [])
theorem State.parentFails_only (s : State) (d : DieId) : s.onlyChanges (State.parentFails s d) [.fields, .dies] := by
  unfold State.parentFails
  repeat' first
    | with_reducible first
        | assumption | apply only_refl | decide | apply only_ite | apply only_step (State.takeParent_only ..)
        | apply only_step (State.enterHoldover_only ..) | apply only_step (State.onTally_only ..)
    | (intro v a hv) | (intro v hv) | extract_lets | split | (dsimp +zetaDelta only [])
theorem State.linkLeaves_only (s : State) (p : PortId) : s.onlyChanges (State.linkLeaves s p) [.fields, .dies] := by
  unfold State.linkLeaves
  repeat' first
    | with_reducible first
        | assumption | apply only_refl | decide | apply only_ite | apply only_step (State.parentFails_only ..)
        | apply only_step (State.onTally_only ..)
    | (intro v a hv) | (intro v hv) | extract_lets | split | (dsimp +zetaDelta only [])
theorem State.setCleaner_only (s : State) : s.onlyChanges (State.setCleaner s) [.cleaner] := by
  unfold State.setCleaner
  repeat' first
    | with_reducible first
        | assumption | apply only_refl | decide | apply only_ite | apply only_step (State.putCleaner_only ..)
    | (intro v a hv) | (intro v hv) | extract_lets | split | (dsimp +zetaDelta only [])
theorem State.checkPin_only (s : State) (p : PortId) (m : Mark) (e : Int) : s.onlyChanges (State.checkPin s p m e) [.fields,
    .dies, .links] := by
  unfold State.checkPin
  repeat' first
    | with_reducible first
        | assumption | apply only_refl | decide | apply only_ite | apply only_step (State.markPinLost_only ..)
        | apply only_step (State.onPort_only ..) | apply only_step (State.setPort_only ..) | apply only_forEach
    | (intro v a hv) | (intro v hv) | extract_lets | split | (dsimp +zetaDelta only [])
theorem State.treatVacant_only (s : State) (d : DieId) : s.onlyChanges (State.treatVacant s d) [.effects, .dies, .leader] := by
  unfold State.treatVacant
  repeat' first
    | with_reducible first
        | assumption | apply only_refl | decide | apply only_ite | apply only_step (State.onTally_only ..)
        | apply only_step (State.emit_only ..) | apply only_step (State.setLeader_only ..)
    | (intro v a hv) | (intro v hv) | extract_lets | split | (dsimp +zetaDelta only [])
theorem State.withdraw_only (s : State) (m : Mark) : s.onlyChanges (State.withdraw s m) [.fields, .dies, .leader] := by
  unfold State.withdraw
  repeat' first
    | with_reducible first
        | assumption | apply only_refl | decide | apply only_ite | apply only_step (State.enterFault_only ..)
        | apply only_step (State.onTally_only ..) | apply only_step (State.setLeader_only ..) | apply only_forEach
    | (intro v a hv) | (intro v hv) | extract_lets | split | (dsimp +zetaDelta only [])
theorem execTallyMark_only (p : PortId) (m : Mark) (frac : Fin 128) (t : Nat) (s : State) : Out.only s (execTallyMark p m frac
    t s) [.now, .effects, .fields, .dies, .links, .leader, .cleaner] := by
  unfold execTallyMark
  repeat' first
    | with_reducible first
        | apply next_only | apply fault_only | apply out_ite | assumption | apply only_refl | decide | apply only_ite
        | apply only_step (State.withdraw_only ..) | apply only_step (State.treatVacant_only ..)
        | apply only_step (State.checkPin_only ..) | apply only_step (State.setCleaner_only ..)
        | apply only_step (State.parentFails_only ..) | apply only_step (State.takeParent_only ..)
        | apply only_step (State.onTally_only ..) | apply only_step (State.clock_only ..)
    | (intro v a hv) | (intro v hv) | extract_lets | split | (dsimp +zetaDelta only [])
theorem execSlewStep_only (d : DieId) (t : Nat) (s : State) : Out.only s (execSlewStep d t s) [.now, .dies] := by
  unfold execSlewStep
  repeat' first
    | with_reducible first
        | apply next_only | apply fault_only | apply out_ite | assumption | apply only_refl | decide | apply only_ite
        | apply only_step (State.onTally_only ..) | apply only_step (State.clock_only ..)
    | (intro v a hv) | (intro v hv) | extract_lets | split | (dsimp +zetaDelta only [])
theorem execParentSilence_only (d : DieId) (t : Nat) (s : State) : Out.only s (execParentSilence d t s) [.now, .dies] := by
  unfold execParentSilence
  repeat' first
    | with_reducible first
        | apply next_only | apply fault_only | apply out_ite | assumption | apply only_refl | decide | apply only_ite
        | apply only_step (State.enterHoldover_only ..) | apply only_step (State.clock_only ..)
    | (intro v a hv) | (intro v hv) | extract_lets | split | (dsimp +zetaDelta only [])
theorem execHoldoverDescendantEnd_only (d : DieId) (t : Nat) (s : State) : Out.only s (execHoldoverDescendantEnd d t s) [.now,
    .fields, .dies] := by
  unfold execHoldoverDescendantEnd
  repeat' first
    | with_reducible first
        | apply next_only | apply fault_only | apply out_ite | assumption | apply only_refl | decide | apply only_ite
        | apply only_step (State.takeParent_only ..) | apply only_step (State.onTally_only ..)
        | apply only_step (State.clock_only ..)
    | (intro v a hv) | (intro v hv) | extract_lets | split | (dsimp +zetaDelta only [])
theorem execHoldoverVacant_only (d : DieId) (t : Nat) (s : State) : Out.only s (execHoldoverVacant d t s) [.now, .effects,
    .dies, .leader] := by
  unfold execHoldoverVacant
  repeat' first
    | with_reducible first
        | apply next_only | apply fault_only | apply out_ite | assumption | apply only_refl | decide | apply only_ite
        | apply only_step (State.treatVacant_only ..) | apply only_step (State.clock_only ..)
    | (intro v a hv) | (intro v hv) | extract_lets | split | (dsimp +zetaDelta only [])
theorem execHoldoverFault_only (d : DieId) (t : Nat) (s : State) : Out.only s (execHoldoverFault d t s) [.now, .fields, .dies]
    := by
  unfold execHoldoverFault
  repeat' first
    | with_reducible first
        | apply next_only | apply fault_only | apply out_ite | assumption | apply only_refl | decide | apply only_ite
        | apply only_step (State.enterFault_only ..) | apply only_step (State.clock_only ..)
    | (intro v a hv) | (intro v hv) | extract_lets | split | (dsimp +zetaDelta only [])
theorem State.makeRoot_only (s : State) (d : DieId) (epoch : Half) : s.onlyChanges (State.makeRoot s d epoch) [.waiting,
    .wmReply, .serving, .scopes, .ports, .fields, .dies, .leader] := by
  unfold State.makeRoot
  repeat' first
    | with_reducible first
        | assumption | apply only_refl | decide | apply only_ite | apply only_step (State.onTally_only ..)
        | apply only_step (State.moveServing_only ..) | apply only_step (State.report_only ..)
        | apply only_step (State.setLeader_only ..)
    | (intro v a hv) | (intro v hv) | extract_lets | split | (dsimp +zetaDelta only [])
theorem State.rootLost_only (s : State) (d : DieId) : s.onlyChanges (State.rootLost s d) [.waiting, .wmReply, .serving,
    .scopes, .ports, .fields, .dies, .leader] := by
  unfold State.rootLost
  repeat' first
    | with_reducible first
        | assumption | apply only_refl | decide | apply only_ite | apply only_step (State.makeRoot_only ..)
        | apply only_step (State.enterHoldover_only ..) | apply only_step (State.moveServing_only ..)
        | apply only_step (State.setLeader_only ..)
    | (intro v a hv) | (intro v hv) | extract_lets | split | (dsimp +zetaDelta only [])
theorem State.takeClaim_only (s : State) (serial : Dword) : s.onlyChanges (State.takeClaim s serial) [.effects, .leader] := by
  unfold State.takeClaim
  repeat' first
    | with_reducible first
        | assumption | apply only_refl | decide | apply only_ite | apply only_step (State.emit_only ..)
        | apply only_step (State.setLeader_only ..)
    | (intro v a hv) | (intro v hv) | extract_lets | split | (dsimp +zetaDelta only [])
theorem State.followLeader_only (s : State) (serial : Dword) : s.onlyChanges (State.followLeader s serial) [.waiting,
    .wmReply, .serving, .scopes, .ports, .leader] := by
  unfold State.followLeader
  repeat' first
    | with_reducible first
        | assumption | apply only_refl | decide | apply only_ite | apply only_step (State.moveServing_only ..)
        | apply only_step (State.setLeader_only ..)
    | (intro v a hv) | (intro v hv) | extract_lets | split | (dsimp +zetaDelta only [])
theorem State.takeAnswer_only (s : State) (serial : Dword) (epoch : Half) : s.onlyChanges (State.takeAnswer s serial epoch)
    [.waiting, .wmReply, .serving, .scopes, .ports, .leader] := by
  unfold State.takeAnswer
  repeat' first
    | with_reducible first
        | assumption | apply only_refl | decide | apply only_ite | apply only_step (State.followLeader_only ..)
        | apply only_step (State.setLeader_only ..)
    | (intro v a hv) | (intro v hv) | extract_lets | split | (dsimp +zetaDelta only [])
theorem execLeaderClaim_only (c : Claim) (t : Nat) (s : State) : Out.only s (execLeaderClaim c t s) [.waiting, .wmReply, .now,
    .effects, .serving, .scopes, .ports, .dies, .leader] := by
  unfold execLeaderClaim
  repeat' first
    | with_reducible first
        | apply next_only | apply fault_only | apply out_ite | assumption | apply only_refl | decide | apply only_ite
        | apply only_step (State.takeAnswer_only ..) | apply only_step (State.takeClaim_only ..)
        | apply only_step (State.clock_only ..) | apply only_step (State.emit_only ..)
        | apply only_step (State.setLeader_only ..)
    | (intro v a hv) | (intro v hv) | extract_lets | split | (dsimp +zetaDelta only [])
theorem State.endForm_only (s : State) : s.onlyChanges (State.endForm s) [.wmReply, .span, .ports, .trayHolder] := by
  unfold State.endForm
  repeat' first
    | with_reducible first
        | assumption | apply only_refl | decide | apply only_ite | apply only_step (State.finishTray_only ..)
        | apply only_step (State.setSpan_only ..)
    | (intro v a hv) | (intro v hv) | extract_lets | split | (dsimp +zetaDelta only [])
theorem execLeaderClaimWindowClose_only (t : Nat) (s : State) : Out.only s (execLeaderClaimWindowClose t s) [.waiting,
    .wmReply, .now, .span, .serving, .scopes, .ports, .fields, .dies, .leader, .cleaner, .trayHolder] := by
  unfold execLeaderClaimWindowClose
  repeat' first
    | with_reducible first
        | apply next_only | apply fault_only | apply out_ite | assumption | apply only_refl | decide | apply only_ite
        | apply only_step (State.endForm_only ..) | apply only_step (State.followLeader_only ..)
        | apply only_step (State.makeRoot_only ..) | apply only_step (State.setCleaner_only ..)
        | apply only_step (State.onTally_only ..) | apply only_step (State.clock_only ..)
        | apply only_step (State.setLeader_only ..) | apply only_forEach
    | (intro v a hv) | (intro v hv) | extract_lets | split | (dsimp +zetaDelta only [])
theorem execReferenceInputFail_only (t : Nat) (s : State) : Out.only s (execReferenceInputFail t s) [.now, .dies, .links,
    .leader, .cleaner] := by
  unfold execReferenceInputFail
  repeat' first
    | with_reducible first
        | apply next_only | apply fault_only | apply out_ite | assumption | apply only_refl | decide | apply only_ite
        | apply only_step (State.enterHoldover_only ..) | apply only_step (State.clock_only ..)
        | apply only_step (State.putCleaner_only ..) | apply only_step (State.setLeader_only ..)
        | apply only_step (State.onLink_only ..)
    | (intro v a hv) | (intro v hv) | extract_lets | split | (dsimp +zetaDelta only [])
theorem execRootTallyStart_only (t : Nat) (s : State) : Out.only s (execRootTallyStart t s) [.waiting, .wmReply, .now,
    .serving, .scopes, .ports, .dies, .leader] := by
  unfold execRootTallyStart
  repeat' first
    | with_reducible first
        | apply next_only | apply fault_only | apply out_ite | assumption | apply only_refl | decide | apply only_ite
        | apply only_step (State.onTally_only ..) | apply only_step (State.moveServing_only ..)
        | apply only_step (State.clock_only ..) | apply only_step (State.setLeader_only ..)
    | (intro v a hv) | (intro v hv) | extract_lets | split | (dsimp +zetaDelta only [])
theorem State.retire_only (s : State) (p : PortId) (k lane src : Nat) : s.onlyChanges (State.retire s p k lane src) [.fields,
    .dies, .wm] := by
  unfold State.retire
  repeat' first
    | with_reducible first
        | assumption | apply only_refl | decide | apply only_ite | apply only_step (State.report_only ..)
        | apply only_step (State.onWm_only ..)
    | (intro v a hv) | (intro v hv) | extract_lets | split | (dsimp +zetaDelta only [])
theorem State.setMap_only (s : State) (p : PortId) (k : Nat) (m : Half) : s.onlyChanges (State.setMap s p k m) [.links] := by
  unfold State.setMap
  repeat' first
    | with_reducible first
        | assumption | apply only_refl | decide | apply only_ite | apply only_step (State.onPort_only ..)
    | (intro v a hv) | (intro v hv) | extract_lets | split | (dsimp +zetaDelta only [])
theorem State.enterTr_only (s : State) (p : PortId) (st : TrSt) : s.onlyChanges (State.enterTr s p st) [.links] := by
  unfold State.enterTr
  repeat' first
    | with_reducible first
        | assumption | apply only_refl | decide | apply only_ite | apply only_step (State.onLink_only ..)
    | (intro v a hv) | (intro v hv) | extract_lets | split | (dsimp +zetaDelta only [])
theorem State.startTraining_only (s : State) (p : PortId) : s.onlyChanges (State.startTraining s p) [.links] := by
  unfold State.startTraining
  repeat' first
    | with_reducible first
        | assumption | apply only_refl | decide | apply only_ite | apply only_step (State.enterTr_only ..)
        | apply only_step (State.onLink_only ..)
    | (intro v a hv) | (intro v hv) | extract_lets | split | (dsimp +zetaDelta only [])
theorem State.failAttempt_only (s : State) (p : PortId) (status : Nat) : s.onlyChanges (State.failAttempt s p status)
    [.fields, .dies, .links] := by
  unfold State.failAttempt
  repeat' first
    | with_reducible first
        | assumption | apply only_refl | decide | apply only_ite | apply only_step (State.report_only ..)
        | apply only_step (State.onLink_only ..)
    | (intro v a hv) | (intro v hv) | extract_lets | split | (dsimp +zetaDelta only [])
theorem State.trainWork_step {s u : State} {l : List Part} {p : PortId} {st : TrSt} {work : State → State}
    (hl : ∀ p ∈ ([.fields, .dies, .links] : List Part), p ∈ l) (hu : s.onlyChanges u l)
    (hw : ∀ v, s.onlyChanges v l → s.onlyChanges (work v) l) : s.onlyChanges (u.trainWork p st work) l := by
  unfold State.trainWork
  extract_lets k
  exact only_ite hu (only_ite (only_step (State.failAttempt_only _ _ _) (fun p q => hl p (by revert p; decide)) hu) (hw _ hu))
theorem State.bump_only (s : State) (p : PortId) (i n : Nat) : s.onlyChanges (State.bump s p i n) [.links] := by
  unfold State.bump
  repeat' first
    | with_reducible first
        | assumption | apply only_refl | decide | apply only_ite | apply only_step (State.onPort_only ..)
    | (intro v a hv) | (intro v hv) | extract_lets | split | (dsimp +zetaDelta only [])
theorem State.leaveUp_only (s : State) (p : PortId) : s.onlyChanges (State.leaveUp s p) [.dies, .links] := by
  unfold State.leaveUp
  repeat' first
    | with_reducible first
        | assumption | apply only_refl | decide | apply only_ite | apply only_step (State.routeHoldAll_only ..)
        | apply only_step (State.settleAllTimers_only ..) | apply only_step (State.onPort_only ..)
    | (intro v a hv) | (intro v hv) | extract_lets | split | (dsimp +zetaDelta only [])
theorem State.linkEvent_only (s : State) : s.onlyChanges (State.linkEvent s) [.effects, .ports, .dies, .trouble] := by
  unfold State.linkEvent
  repeat' first
    | with_reducible first
        | assumption | apply only_refl | decide | apply only_ite | apply only_step (State.notify_only ..)
    | (intro v a hv) | (intro v hv) | extract_lets | split | (dsimp +zetaDelta only [])
theorem State.portDown_only (s : State) (p : PortId) (status : Nat) : s.onlyChanges (State.portDown s p status) [.effects,
    .ports, .fields, .dies, .links, .trouble] := by
  unfold State.portDown
  repeat' first
    | with_reducible first
        | assumption | apply only_refl | decide | apply only_ite | apply only_step (State.linkEvent_only ..)
        | apply only_step (State.leaveUp_only ..) | apply only_step (State.bump_only ..)
        | apply only_step (State.startTraining_only ..) | apply only_step (State.linkLeaves_only ..)
        | apply only_step (State.losePin_only ..) | apply only_step (State.report_only ..)
        | apply only_step (State.onLink_only ..)
    | (intro v a hv) | (intro v hv) | extract_lets | split | (dsimp +zetaDelta only [])
theorem State.portIdle_only (s : State) (p : PortId) : s.onlyChanges (State.portIdle s p) [.effects, .ports, .fields, .dies,
    .links, .trouble] := by
  unfold State.portIdle
  repeat' first
    | with_reducible first
        | assumption | apply only_refl | decide | apply only_ite | apply only_step (State.linkEvent_only ..)
        | apply only_step (State.leaveUp_only ..) | apply only_step (State.linkLeaves_only ..)
        | apply only_step (State.losePin_only ..) | apply only_step (State.onLink_only ..)
    | (intro v a hv) | (intro v hv) | extract_lets | split | (dsimp +zetaDelta only [])
theorem State.settleWaking_only (s : State) (p : PortId) : s.onlyChanges (State.settleWaking s p) [.wmReply, .ports, .fields]
    := by
  unfold State.settleWaking
  repeat' first
    | with_reducible first
        | assumption | apply only_refl | decide | apply only_ite | apply only_step (State.finishField_only ..)
        | apply only_step (State.onField_only ..) | apply only_forEach
    | (intro v a hv) | (intro v hv) | extract_lets | split | (dsimp +zetaDelta only [])
theorem State.comeUp_only (s : State) (p : PortId) : s.onlyChanges (State.comeUp s p) [.wmReply, .effects, .ports, .fields,
    .dies, .links, .ledgerEpoch, .trouble] := by
  unfold State.comeUp
  repeat' first
    | with_reducible first
        | assumption | apply only_refl | decide | apply only_ite | apply only_step (State.settleWaking_only ..)
        | apply only_step (State.linkEvent_only ..) | apply only_step (State.sendLc_only ..)
        | apply only_step (State.publishPort_only ..) | apply only_step (State.settleAllTimers_only ..)
        | apply only_step (State.onLink_only ..) | apply only_step (State.onPort_only ..)
    | (intro v a hv) | (intro v hv) | extract_lets | split | (dsimp +zetaDelta only [])
theorem State.settleForced_only (s : State) : s.onlyChanges (State.settleForced s) [.effects, .ports, .fields, .dies, .links,
    .trouble] := by
  unfold State.settleForced
  repeat' first
    | with_reducible first
        | assumption | apply only_refl | decide | apply only_ite | apply only_step (State.portIdle_only ..)
        | apply only_step (State.onLink_only ..) | apply only_forEach
    | (intro v a hv) | (intro v hv) | extract_lets | split | (dsimp +zetaDelta only [])
theorem State.sluiceAct_only (s : State) (d : DieId) (f : Fin 8) (b : Nat) : s.onlyChanges (State.sluiceAct s d f b) [.fields,
    .dies] := by
  unfold State.sluiceAct
  repeat' first
    | with_reducible first
        | assumption | apply only_refl | decide | apply only_ite | apply only_step (State.report_only ..)
        | apply only_step (State.onField_only ..)
    | (intro v a hv) | (intro v hv) | extract_lets | split | (dsimp +zetaDelta only [])
theorem execSluice_only (d : DieId) (f : Fin 8) (port : Nat) (boundary : Nat) (from_ : DieId) (t : Nat) (s : State) : Out.only
    s (execSluice d f port boundary from_ t s) [.now, .fields, .dies] := by
  unfold execSluice
  repeat' first
    | with_reducible first
        | apply next_only | apply fault_only | apply out_ite | assumption | apply only_refl | decide | apply only_ite
        | apply only_step (State.sluiceAct_only ..) | apply only_step (State.arrive_only ..)
        | apply only_step (State.noteActed_only ..) | apply only_step (State.clock_only ..)
    | (intro v a hv) | (intro v hv) | extract_lets | split | (dsimp +zetaDelta only [])
theorem State.commandMv_only (s : State) (d : DieId) (mv rung : Nat) : s.onlyChanges (State.commandMv s d mv rung) [.dies] := by
  unfold State.commandMv
  repeat' first
    | with_reducible first
        | assumption | apply only_refl | decide | apply only_ite | apply only_step (State.onDie_only ..)
    | (intro v a hv) | (intro v hv) | extract_lets | split | (dsimp +zetaDelta only [])
theorem State.settleMv_only (s : State) (d : DieId) (rung : Nat) : s.onlyChanges (State.settleMv s d rung) [.dies] := by
  unfold State.settleMv
  repeat' first
    | with_reducible first
        | assumption | apply only_refl | decide | apply only_ite | apply only_step (State.commandMv_only ..)
    | (intro v a hv) | (intro v hv) | extract_lets | split | (dsimp +zetaDelta only [])
theorem State.nameChange_only (s : State) (f : Fin 8) (k : ChangeKind) : s.onlyChanges (State.nameChange s f k) [.free,
    .fields] := by
  unfold State.nameChange
  repeat' first
    | with_reducible first
        | assumption | apply only_refl | decide | apply only_ite | apply only_step (State.spend_only ..)
        | apply only_step (State.onField_only ..)
    | (intro v a hv) | (intro v hv) | extract_lets | split | (dsimp +zetaDelta only [])
theorem State.abandonChange_only (s : State) (f : Fin 8) : s.onlyChanges (State.abandonChange s f) [.fields, .dies] := by
  unfold State.abandonChange
  repeat' first
    | with_reducible first
        | assumption | apply only_refl | decide | apply only_ite | apply only_step (State.commandMv_only ..)
        | apply only_step (State.onField_only ..) | apply only_forEach
    | (intro v a hv) | (intro v hv) | extract_lets | split | (dsimp +zetaDelta only [])
theorem State.reviewLimits_only (s : State) (f : Fin 8) : s.onlyChanges (State.reviewLimits s f) [.free, .fields, .dies] := by
  unfold State.reviewLimits
  repeat' first
    | with_reducible first
        | assumption | apply only_refl | decide | apply only_ite | apply only_step (State.abandonChange_only ..)
        | apply only_step (State.nameChange_only ..)
    | (intro v a hv) | (intro v hv) | extract_lets | split | (dsimp +zetaDelta only [])
theorem execStewardLimit_only (f : Fin 8) (t : Nat) (s : State) : Out.only s (execStewardLimit f t s) [.now, .free, .fields,
    .dies] := by
  unfold execStewardLimit
  repeat' first
    | with_reducible first
        | apply next_only | apply fault_only | apply out_ite | assumption | apply only_refl | decide | apply only_ite
        | apply only_step (State.reviewLimits_only ..) | apply only_step (State.clock_only ..)
    | (intro v a hv) | (intro v hv) | extract_lets | split | (dsimp +zetaDelta only [])
theorem execFieldChangeNotice_only (f : Fin 8) (d : DieId) (t : Nat) (s : State) : Out.only s (execFieldChangeNotice f d t s)
    [.now, .fields, .dies] := by
  unfold execFieldChangeNotice
  repeat' first
    | with_reducible first
        | apply next_only | apply fault_only | apply out_ite | assumption | apply only_refl | decide | apply only_ite
        | apply only_step (State.commandMv_only ..) | apply only_step (State.clock_only ..)
        | apply only_step (State.onField_only ..)
    | (intro v a hv) | (intro v hv) | extract_lets | split | (dsimp +zetaDelta only [])
theorem execFieldChangeConfirm_only (f : Fin 8) (d : DieId) (t : Nat) (s : State) : Out.only s (execFieldChangeConfirm f d t
    s) [.now, .fields, .dies] := by
  unfold execFieldChangeConfirm
  repeat' first
    | with_reducible first
        | apply next_only | apply fault_only | apply out_ite | assumption | apply only_refl | decide | apply only_ite
        | apply only_step (State.clock_only ..) | apply only_step (State.onField_only ..)
    | (intro v a hv) | (intro v hv) | extract_lets | split | (dsimp +zetaDelta only [])
theorem execCommitDeadline_only (f : Fin 8) (t : Nat) (s : State) : Out.only s (execCommitDeadline f t s) [.now, .free,
    .fields, .dies] := by
  unfold execCommitDeadline
  repeat' first
    | with_reducible first
        | apply next_only | apply fault_only | apply out_ite | assumption | apply only_refl | decide | apply only_ite
        | apply only_step (State.nameChange_only ..) | apply only_step (State.clock_only ..)
        | apply only_step (State.onField_only ..)
    | (intro v a hv) | (intro v hv) | extract_lets | split | (dsimp +zetaDelta only [])
theorem execFieldChangeCommit_only (f : Fin 8) (d : DieId) (t : Nat) (s : State) : Out.only s (execFieldChangeCommit f d t s)
    [.now, .fields, .dies] := by
  unfold execFieldChangeCommit
  repeat' first
    | with_reducible first
        | apply next_only | apply fault_only | apply out_ite | assumption | apply only_refl | decide | apply only_ite
        | apply only_step (State.clock_only ..) | apply only_step (State.onField_only ..)
    | (intro v a hv) | (intro v hv) | extract_lets | split | (dsimp +zetaDelta only [])
theorem State.capBoundary_only (s : State) (f : Fin 8) : s.onlyChanges (State.capBoundary s f) [.fields, .dies] := by
  unfold State.capBoundary
  repeat' first
    | with_reducible first
        | assumption | apply only_refl | decide | apply only_ite | apply only_step (State.report_only ..)
        | apply only_step (State.onField_only ..) | apply only_foldl
    | (intro v a hv) | (intro v hv) | extract_lets | split | (dsimp +zetaDelta only [])
theorem State.afterChange_only (s : State) (f : Fin 8) (old : Field) : s.onlyChanges (State.afterChange s f old) [.wmReply,
    .free, .ports, .fields, .dies] := by
  unfold State.afterChange
  repeat' first
    | with_reducible first
        | assumption | apply only_refl | decide | apply only_ite | apply only_step (State.capBoundary_only ..)
        | apply only_step (State.reviewLimits_only ..) | apply only_step (State.settleMv_only ..)
        | apply only_step (State.finishField_only ..) | apply only_step (State.onDie_only ..) | apply only_forEach
    | (intro v a hv) | (intro v hv) | extract_lets | split | (dsimp +zetaDelta only [])
theorem State.unfreeze_only (s : State) (f : Fin 8) (b : Nat) : s.onlyChanges (State.unfreeze s f b) [.fields] := by
  unfold State.unfreeze
  repeat' first
    | with_reducible first
        | assumption | apply only_refl | decide | apply only_ite | apply only_step (State.onField_only ..)
    | (intro v a hv) | (intro v hv) | extract_lets | split | (dsimp +zetaDelta only [])
theorem State.firstBoundary_only (s : State) (f : Fin 8) (r : Running) (b : Nat) : s.onlyChanges (State.firstBoundary s f r b)
    [.free, .effects, .ports, .fields, .dies, .links, .trouble] := by
  unfold State.firstBoundary
  repeat' first
    | with_reducible first
        | assumption | apply only_refl | decide | apply only_ite | apply only_step (State.freezeField_only ..)
        | apply only_step (State.closeGate_only ..) | apply only_step (State.applyChange_only ..)
        | apply only_step (State.nextStep_only ..) | apply only_step (State.keepSet_only ..)
        | apply only_step (State.settlePonds_only ..) | apply only_step (State.completeRun_only ..)
    | (intro v a hv) | (intro v hv) | extract_lets | split | (dsimp +zetaDelta only [])
theorem execStepBoundary_only (f : Fin 8) (t : Nat) (s : State) : Out.only s (execStepBoundary f t s) [.wmReply, .now, .free,
    .effects, .ports, .fields, .dies, .links, .trouble] := by
  unfold execStepBoundary
  repeat' first
    | with_reducible first
        | apply next_only | apply fault_only | apply out_ite | assumption | apply only_refl | decide | apply only_ite
        | apply only_step (State.firstBoundary_only ..) | apply only_step (State.unfreeze_only ..)
        | apply only_step (State.afterChange_only ..) | apply only_step (State.passBoundary_only ..)
        | apply only_step (State.freezeField_only ..) | apply only_step (State.closeGate_only ..)
        | apply only_step (State.applyChange_only ..) | apply only_step (State.checkEntry_only ..)
        | apply only_step (State.nextStep_only ..) | apply only_step (State.keepSet_only ..)
        | apply only_step (State.settlePonds_only ..) | apply only_step (State.clock_only ..)
    | (intro v a hv) | (intro v hv) | extract_lets | split | (dsimp +zetaDelta only [])
theorem State.activate_only (s : State) (f : Fin 8) (i : Nat) : s.onlyChanges (State.activate s f i) [.free, .fields, .dies,
    .links] := by
  unfold State.activate
  repeat' first
    | with_reducible first
        | assumption | apply only_refl | decide | apply only_ite | apply only_step (State.dropInserted_only ..)
        | apply only_step (State.startReload_only ..) | apply only_step (State.startSwitch_only ..)
        | apply only_step (State.startWave_only ..) | apply only_step (State.onField_only ..)
    | (intro v a hv) | (intro v hv) | extract_lets | split | (dsimp +zetaDelta only [])
theorem execLaunchTake_only (f : Fin 8) (t : Nat) (s : State) : Out.only s (execLaunchTake f t s) [.now, .free, .effects,
    .ports, .fields, .dies, .links, .trouble] := by
  unfold execLaunchTake
  repeat' first
    | with_reducible first
        | apply next_only | apply fault_only | apply out_ite | assumption | apply only_refl | decide | apply only_ite
        | apply only_step (State.activate_only ..) | apply only_step (State.checkEntry_only ..)
        | apply only_step (State.recallHomes_only ..) | apply only_step (State.startReload_only ..)
        | apply only_step (State.completeBare_only ..) | apply only_step (State.clock_only ..)
        | apply only_step (State.onField_only ..)
    | (intro v a hv) | (intro v hv) | extract_lets | split | (dsimp +zetaDelta only [])
theorem execHomeRecallDone_only (f : Fin 8) (d : DieId) (t : Nat) (s : State) : Out.only s (execHomeRecallDone f d t s) [.now,
    .fields, .dies] := by
  unfold execHomeRecallDone
  repeat' first
    | with_reducible first
        | apply next_only | apply fault_only | apply out_ite | assumption | apply only_refl | decide | apply only_ite
        | apply only_step (State.clock_only ..) | apply only_step (State.onField_only ..)
    | (intro v a hv) | (intro v hv) | extract_lets | split | (dsimp +zetaDelta only [])
theorem State.switched_only (s : State) (f : Fin 8) (exactAt : Option Nat) : s.onlyChanges (State.switched s f exactAt)
    [.wmReply, .free, .effects, .ports, .fields, .dies, .links, .trouble] := by
  unfold State.switched
  repeat' first
    | with_reducible first
        | assumption | apply only_refl | decide | apply only_ite | apply only_step (State.nameChange_only ..)
        | apply only_step (State.settleForced_only ..) | apply only_step (State.checkEntry_only ..)
        | apply only_step (State.finishSwitch_only ..) | apply only_step (State.completeRun_only ..)
        | apply only_step (State.finishField_only ..) | apply only_step (State.onField_only ..)
    | (intro v a hv) | (intro v hv) | extract_lets | split | (dsimp +zetaDelta only [])
theorem State.raiseLate_only (s : State) (f : Fin 8) (d : DieId) : s.onlyChanges (State.raiseLate s f d) [.fields, .dies] := by
  unfold State.raiseLate
  repeat' first
    | with_reducible first
        | assumption | apply only_refl | decide | apply only_ite | apply only_step (State.report_only ..)
    | (intro v a hv) | (intro v hv) | extract_lets | split | (dsimp +zetaDelta only [])
theorem execSwitchStepEnd_only (f : Fin 8) (d : DieId) (t : Nat) (s : State) : Out.only s (execSwitchStepEnd f d t s)
    [.wmReply, .now, .free, .effects, .ports, .fields, .dies, .links, .trouble] := by
  unfold execSwitchStepEnd
  repeat' first
    | with_reducible first
        | apply next_only | apply fault_only | apply out_ite | assumption | apply only_refl | decide | apply only_ite
        | apply only_step (State.raiseLate_only ..) | apply only_step (State.switched_only ..)
        | apply only_step (State.freezeField_only ..) | apply only_step (State.closeGate_only ..)
        | apply only_step (State.startReload_only ..) | apply only_step (State.clock_only ..)
        | apply only_step (State.onField_only ..)
    | (intro v a hv) | (intro v hv) | extract_lets | split | (dsimp +zetaDelta only [])
theorem execDieSwitchReport_only (f : Fin 8) (d : DieId) (t : Nat) (s : State) : Out.only s (execDieSwitchReport f d t s)
    [.wmReply, .now, .free, .effects, .ports, .fields, .dies, .links, .trouble] := by
  unfold execDieSwitchReport
  repeat' first
    | with_reducible first
        | apply next_only | apply fault_only | apply out_ite | assumption | apply only_refl | decide | apply only_ite
        | apply only_step (State.raiseLate_only ..) | apply only_step (State.switched_only ..)
        | apply only_step (State.startReload_only ..) | apply only_step (State.clock_only ..)
        | apply only_step (State.onField_only ..)
    | (intro v a hv) | (intro v hv) | extract_lets | split | (dsimp +zetaDelta only [])
theorem State.failSwitchCommand_only (s : State) (f : Fin 8) : s.onlyChanges (State.failSwitchCommand s f) [.wmReply, .free,
    .ports, .fields] := by
  unfold State.failSwitchCommand
  repeat' first
    | with_reducible first
        | assumption | apply only_refl | decide | apply only_ite | apply only_step (State.finishField_only ..)
        | apply only_step (State.spend_only ..)
    | (intro v a hv) | (intro v hv) | extract_lets | split | (dsimp +zetaDelta only [])
theorem execReloadDeadline_only (f : Fin 8) (d : DieId) (t : Nat) (s : State) : Out.only s (execReloadDeadline f d t s)
    [.wmReply, .now, .free, .effects, .ports, .fields, .dies, .links, .trouble] := by
  unfold execReloadDeadline
  repeat' first
    | with_reducible first
        | apply next_only | apply fault_only | apply out_ite | assumption | apply only_refl | decide | apply only_ite
        | apply only_step (State.failSwitchCommand_only ..) | apply only_step (State.settleForced_only ..)
        | apply only_step (State.completeAll_only ..) | apply only_step (State.report_only ..)
        | apply only_step (State.clock_only ..) | apply only_step (State.onField_only ..)
    | (intro v a hv) | (intro v hv) | extract_lets | split | (dsimp +zetaDelta only [])
theorem State.afterDrain_only (s : State) (f : Fin 8) (why : Why) (forced : Bool) : s.onlyChanges (State.afterDrain s f why
    forced) [.fields, .dies] := by
  unfold State.afterDrain
  repeat' first
    | with_reducible first
        | assumption | apply only_refl | decide | apply only_ite | apply only_step (State.startSwitch_only ..)
        | apply only_step (State.onField_only ..)
    | (intro v a hv) | (intro v hv) | extract_lets | split | (dsimp +zetaDelta only [])
theorem execFieldDrained_only (f : Fin 8) (t : Nat) (s : State) : Out.only s (execFieldDrained f t s) [.now, .fields, .dies]
    := by
  unfold execFieldDrained
  repeat' first
    | with_reducible first
        | apply next_only | apply fault_only | apply out_ite | assumption | apply only_refl | decide | apply only_ite
        | apply only_step (State.afterDrain_only ..) | apply only_step (State.clock_only ..)
    | (intro v a hv) | (intro v hv) | extract_lets | split | (dsimp +zetaDelta only [])
theorem execDrainLimit_only (f : Fin 8) (t : Nat) (s : State) : Out.only s (execDrainLimit f t s) [.now, .fields, .dies] := by
  unfold execDrainLimit
  repeat' first
    | with_reducible first
        | apply next_only | apply fault_only | apply out_ite | assumption | apply only_refl | decide | apply only_ite
        | apply only_step (State.afterDrain_only ..) | apply only_step (State.report_only ..)
        | apply only_step (State.clock_only ..)
    | (intro v a hv) | (intro v hv) | extract_lets | split | (dsimp +zetaDelta only [])
theorem State.unloadAll_only (s : State) (f : Fin 8) : s.onlyChanges (State.unloadAll s f) [.effects, .ports, .fields, .dies,
    .links, .trouble] := by
  unfold State.unloadAll
  repeat' first
    | with_reducible first
        | assumption | apply only_refl | decide | apply only_ite | apply only_step (State.settleForced_only ..)
        | apply only_step (State.onField_only ..)
    | (intro v a hv) | (intro v hv) | extract_lets | split | (dsimp +zetaDelta only [])
theorem State.finishDisable_only (s : State) (f : Fin 8) : s.onlyChanges (State.finishDisable s f) [.wmReply, .effects,
    .ports, .fields, .dies, .links, .trouble] := by
  unfold State.finishDisable
  repeat' first
    | with_reducible first
        | assumption | apply only_refl | decide | apply only_ite | apply only_step (State.unloadAll_only ..)
        | apply only_step (State.completeAll_only ..) | apply only_step (State.finishField_only ..)
        | apply only_step (State.onField_only ..)
    | (intro v a hv) | (intro v hv) | extract_lets | split | (dsimp +zetaDelta only [])
theorem State.startDestroy_only (s : State) (f : Fin 8) : s.onlyChanges (State.startDestroy s f) [.effects, .scopes, .targets,
    .ports, .fields, .dies, .links, .trouble] := by
  unfold State.startDestroy
  repeat' first
    | with_reducible first
        | assumption | apply only_refl | decide | apply only_ite | apply only_step (State.unloadAll_only ..)
        | apply only_step (State.completeAll_only ..) | apply only_step (State.endClaim_only ..)
        | apply only_step (State.onField_only ..) | apply only_step (State.onPort_only ..)
        | apply only_step (State.onDie_only ..) | apply only_forEach
    | (intro v a hv) | (intro v hv) | extract_lets | split | (dsimp +zetaDelta only [])
theorem execFlushComplete_only (f : Fin 8) (t : Nat) (s : State) : Out.only s (execFlushComplete f t s) [.wmReply, .now,
    .free, .effects, .scopes, .targets, .ports, .fields, .dies, .links, .trouble] := by
  unfold execFlushComplete
  repeat' first
    | with_reducible first
        | apply next_only | apply fault_only | apply out_ite | assumption | apply only_refl | decide | apply only_ite
        | apply only_step (State.startDestroy_only ..) | apply only_step (State.finishDisable_only ..)
        | apply only_step (State.failSwitchCommand_only ..) | apply only_step (State.closeGate_only ..)
        | apply only_step (State.reloadNow_only ..) | apply only_step (State.startSwitch_only ..)
        | apply only_step (State.flushField_only ..) | apply only_step (State.completeAll_only ..)
        | apply only_step (State.clock_only ..) | apply only_step (State.onField_only ..)
    | (intro v a hv) | (intro v hv) | extract_lets | split | (dsimp +zetaDelta only [])
theorem State.setHolds_only (s : State) (f : Fin 8) (share : Nat) : s.onlyChanges (State.setHolds s f share) [.links] := by
  unfold State.setHolds
  repeat' first
    | with_reducible first
        | assumption | apply only_refl | decide | apply only_ite | apply only_step (State.onPort_only ..) | apply only_forEach
    | (intro v a hv) | (intro v hv) | extract_lets | split | (dsimp +zetaDelta only [])
theorem execFieldCreate_only (r : MReq) (b : FieldBody) (s : State) : Out.only s (execFieldCreate r b s) [.waiting, .resumed,
    .wmReply, .now, .free, .effects, .scopes, .targets, .ports, .fields, .dies, .links, .trouble, .wm] := by
  unfold execFieldCreate
  repeat' first
    | with_reducible first
        | apply State.serve_step | apply next_only | apply fault_only | apply out_ite | assumption | apply only_refl | decide
        | apply only_ite | apply only_step (State.setHolds_only ..) | apply only_step (State.reviewLimits_only ..)
        | apply only_step (State.onCnt_only ..) | apply only_step (State.reply_only ..)
        | apply only_step (State.onField_only ..) | apply only_step (State.setField_only ..) | apply only_forEach
    | (intro v a hv) | (intro v hv) | extract_lets | split | (dsimp +zetaDelta only [])
theorem State.doScrub_only (s : State) (z : Scrub) : s.onlyChanges (State.doScrub s z) [.dies] := by
  unfold State.doScrub
  repeat' first
    | with_reducible first
        | assumption | apply only_refl | decide | apply only_ite | apply only_step (State.onDie_only ..)
    | (intro v a hv) | (intro v hv) | extract_lets | split | (dsimp +zetaDelta only [])
theorem State.closeAccounts_only (s : State) (f : Fin 8) : s.onlyChanges (State.closeAccounts s f) [.fields, .dies] := by
  unfold State.closeAccounts
  repeat' first
    | with_reducible first
        | assumption | apply only_refl | decide | apply only_ite | apply only_step (State.loseReqs_only ..)
        | apply only_step (State.onDie_only ..) | apply only_forEach
    | (intro v a hv) | (intro v hv) | extract_lets | split | (dsimp +zetaDelta only [])
theorem State.leaveRungs_only (s : State) (dies : List DieId) : s.onlyChanges (State.leaveRungs s dies) [.dies] := by
  unfold State.leaveRungs
  repeat' first
    | with_reducible first
        | assumption | apply only_refl | decide | apply only_ite | apply only_step (State.commandMv_only ..)
        | apply only_forEach
    | (intro v a hv) | (intro v hv) | extract_lets | split | (dsimp +zetaDelta only [])
theorem State.finishResize_only (s : State) (f : Fin 8) (b : FieldBody) : s.onlyChanges (State.finishResize s f b) [.wmReply,
    .free, .ports, .fields, .dies, .links] := by
  unfold State.finishResize
  repeat' first
    | with_reducible first
        | assumption | apply only_refl | decide | apply only_ite | apply only_step (State.leaveRungs_only ..)
        | apply only_step (State.closeAccounts_only ..) | apply only_step (State.doScrub_only ..)
        | apply only_step (State.setHolds_only ..) | apply only_step (State.reviewLimits_only ..)
        | apply only_step (State.onCnt_only ..) | apply only_step (State.finishField_only ..)
        | apply only_step (State.onField_only ..) | apply only_forEach
    | (intro v a hv) | (intro v hv) | extract_lets | split | (dsimp +zetaDelta only [])
theorem execFieldResize_only (r : MReq) (b : FieldBody) (s : State) : Out.only s (execFieldResize r b s) [.waiting, .resumed,
    .wmReply, .now, .free, .effects, .scopes, .targets, .ports, .fields, .dies, .links, .trouble, .wm] := by
  unfold execFieldResize
  repeat' first
    | with_reducible first
        | apply State.serve_step | apply next_only | apply fault_only | apply out_ite | assumption | apply only_refl | decide
        | apply only_ite | apply only_step (State.finishResize_only ..) | apply only_step (State.holdField_only ..)
        | apply only_step (State.reply_only ..) | apply only_step (State.onField_only ..)
    | (intro v a hv) | (intro v hv) | extract_lets | split | (dsimp +zetaDelta only [])
theorem State.beginDisable_only (s : State) (f : Fin 8) : s.onlyChanges (State.beginDisable s f) [.effects, .ports, .fields,
    .dies, .trouble] := by
  unfold State.beginDisable
  repeat' first
    | with_reducible first
        | assumption | apply only_refl | decide | apply only_ite | apply only_step (State.closeGate_only ..)
        | apply only_step (State.onField_only ..)
    | (intro v a hv) | (intro v hv) | extract_lets | split | (dsimp +zetaDelta only [])
theorem execFieldDisable_only (r : MReq) (field : Nat) (s : State) : Out.only s (execFieldDisable r field s) [.waiting,
    .resumed, .wmReply, .now, .free, .effects, .scopes, .targets, .ports, .fields, .dies, .trouble, .wm] := by
  unfold execFieldDisable
  repeat' first
    | with_reducible first
        | apply State.serve_step | apply next_only | apply fault_only | apply out_ite | assumption | apply only_refl | decide
        | apply only_ite | apply only_step (State.beginDisable_only ..) | apply only_step (State.holdField_only ..)
        | apply only_step (State.reply_only ..)
    | (intro v a hv) | (intro v hv) | extract_lets | split | (dsimp +zetaDelta only [])
theorem execFieldDestroy_only (r : MReq) (field : Nat) (s : State) : Out.only s (execFieldDestroy r field s) [.waiting,
    .resumed, .wmReply, .now, .free, .effects, .scopes, .targets, .ports, .fields, .dies, .links, .trouble, .wm] := by
  unfold execFieldDestroy
  repeat' first
    | with_reducible first
        | apply State.serve_step | apply next_only | apply fault_only | apply out_ite | assumption | apply only_refl | decide
        | apply only_ite | apply only_step (State.beginDisable_only ..) | apply only_step (State.startDestroy_only ..)
        | apply only_step (State.holdField_only ..) | apply only_step (State.reply_only ..)
        | apply only_step (State.onField_only ..)
    | (intro v a hv) | (intro v hv) | extract_lets | split | (dsimp +zetaDelta only [])
theorem execFieldEnable_only (r : MReq) (field : Nat) (s : State) : Out.only s (execFieldEnable r field s) [.waiting,
    .resumed, .wmReply, .now, .free, .effects, .scopes, .targets, .ports, .fields, .dies, .trouble, .wm] := by
  unfold execFieldEnable
  repeat' first
    | with_reducible first
        | apply State.serve_step | apply next_only | apply fault_only | apply out_ite | assumption | apply only_refl | decide
        | apply only_ite | apply only_step (State.reviewLimits_only ..) | apply only_step (State.reply_only ..)
        | apply only_step (State.onField_only ..)
    | (intro v a hv) | (intro v hv) | extract_lets | split | (dsimp +zetaDelta only [])
theorem execFieldStatus_only (r : MReq) (field : Nat) (s : State) : Out.only s (execFieldStatus r field s) [.waiting,
    .resumed, .wmReply, .now, .free, .effects, .scopes, .targets, .ports, .dies, .trouble, .wm] := by
  unfold execFieldStatus
  repeat' first
    | with_reducible first
        | apply State.serve_step | apply next_only | apply fault_only | apply out_ite | assumption | apply only_refl | decide
        | apply only_ite | apply only_step (State.reply_only ..)
    | (intro v a hv) | (intro v hv) | extract_lets | split | (dsimp +zetaDelta only [])
theorem State.clearObs_only (s : State) (f : Fin 8) : s.onlyChanges (State.clearObs s f) [.links] := by
  unfold State.clearObs
  repeat' first
    | with_reducible first
        | assumption | apply only_refl | decide | apply only_ite | apply only_step (State.onPort_only ..) | apply only_forEach
    | (intro v a hv) | (intro v hv) | extract_lets | split | (dsimp +zetaDelta only [])
theorem State.finishDestroy_only (s : State) (f : Fin 8) : s.onlyChanges (State.finishDestroy s f) [.wmReply, .ports, .fields,
    .dies, .links] := by
  unfold State.finishDestroy
  repeat' first
    | with_reducible first
        | assumption | apply only_refl | decide | apply only_ite | apply only_step (State.clearObs_only ..)
        | apply only_step (State.leaveRungs_only ..) | apply only_step (State.doScrub_only ..)
        | apply only_step (State.reply_only ..) | apply only_step (State.setField_only ..) | apply only_forEach
    | (intro v a hv) | (intro v hv) | extract_lets | split | (dsimp +zetaDelta only [])
theorem execScrubComplete_only (f : Fin 8) (t : Nat) (s : State) : Out.only s (execScrubComplete f t s) [.wmReply, .now,
    .free, .ports, .fields, .dies, .links] := by
  unfold execScrubComplete
  repeat' first
    | with_reducible first
        | apply next_only | apply fault_only | apply out_ite | assumption | apply only_refl | decide | apply only_ite
        | apply only_step (State.finishDestroy_only ..) | apply only_step (State.finishResize_only ..)
        | apply only_step (State.clock_only ..)
    | (intro v a hv) | (intro v hv) | extract_lets | split | (dsimp +zetaDelta only [])
theorem execTrainingTimeout_only (p : PortId) (t : Nat) (s : State) : Out.only s (execTrainingTimeout p t s) [.now, .fields,
    .dies, .links] := by
  unfold execTrainingTimeout
  repeat' first
    | with_reducible first
        | apply next_only | apply fault_only | apply out_ite | assumption | apply only_refl | decide | apply only_ite
        | apply only_step (State.failAttempt_only ..) | apply only_step (State.clock_only ..)
    | (intro v a hv) | (intro v hv) | extract_lets | split | (dsimp +zetaDelta only [])
theorem execTrainingBackoffEnd_only (p : PortId) (t : Nat) (s : State) : Out.only s (execTrainingBackoffEnd p t s) [.now,
    .dies, .links] := by
  unfold execTrainingBackoffEnd
  repeat' first
    | with_reducible first
        | apply next_only | apply fault_only | apply out_ite | assumption | apply only_refl | decide | apply only_ite
        | apply only_step (State.startTraining_only ..) | apply only_step (State.clock_only ..)
    | (intro v a hv) | (intro v hv) | extract_lets | split | (dsimp +zetaDelta only [])
theorem execDetectAnswer_only (p : PortId) (t : Nat) (s : State) : Out.only s (execDetectAnswer p t s) [.now, .fields, .dies,
    .links] := by
  unfold execDetectAnswer
  repeat' first
    | with_reducible first
        | apply State.trainWork_step | apply next_only | apply fault_only | apply out_ite | assumption | apply only_refl
        | decide | apply only_ite | apply only_step (State.failAttempt_only ..) | apply only_step (State.enterTr_only ..)
        | apply only_step (State.clock_only ..) | apply only_step (State.onLink_only ..)
    | (intro v a hv) | (intro v hv) | extract_lets | split | (dsimp +zetaDelta only [])
theorem execClockLocked_only (p : PortId) (t : Nat) (s : State) : Out.only s (execClockLocked p t s) [.now, .fields, .dies,
    .links] := by
  unfold execClockLocked
  repeat' first
    | with_reducible first
        | apply State.trainWork_step | apply next_only | apply fault_only | apply out_ite | assumption | apply only_refl
        | decide | apply only_ite | apply only_step (State.enterTr_only ..) | apply only_step (State.clock_only ..)
        | apply only_step (State.onLink_only ..) | apply only_step (State.onPort_only ..)
    | (intro v a hv) | (intro v hv) | extract_lets | split | (dsimp +zetaDelta only [])
theorem State.coldSearch_only (s : State) (p : PortId) : s.onlyChanges (State.coldSearch s p) [.links] := by
  unfold State.coldSearch
  repeat' first
    | with_reducible first
        | assumption | apply only_refl | decide | apply only_ite | apply only_step (State.onLink_only ..)
    | (intro v a hv) | (intro v hv) | extract_lets | split | (dsimp +zetaDelta only [])
theorem State.searchCold_only (s : State) (p : PortId) : s.onlyChanges (State.searchCold s p) [.links] := by
  unfold State.searchCold
  repeat' first
    | with_reducible first
        | assumption | apply only_refl | decide | apply only_ite | apply only_step (State.coldSearch_only ..)
        | apply only_forEach
    | (intro v a hv) | (intro v hv) | extract_lets | split | (dsimp +zetaDelta only [])
theorem execEqRecordAnswer_only (p : PortId) (t : Nat) (s : State) : Out.only s (execEqRecordAnswer p t s) [.now, .dies,
    .links, .wm] := by
  unfold execEqRecordAnswer
  repeat' first
    | with_reducible first
        | apply next_only | apply fault_only | apply out_ite | assumption | apply only_refl | decide | apply only_ite
        | apply only_step (State.searchCold_only ..) | apply only_step (State.clock_only ..)
        | apply only_step (State.onWm_only ..) | apply only_step (State.onPort_only ..) | apply only_forEach
    | (intro v a hv) | (intro v hv) | extract_lets | split | (dsimp +zetaDelta only [])
theorem execEqFetchTimeout_only (p : PortId) (t : Nat) (s : State) : Out.only s (execEqFetchTimeout p t s) [.now, .dies,
    .links] := by
  unfold execEqFetchTimeout
  repeat' first
    | with_reducible first
        | apply next_only | apply fault_only | apply out_ite | assumption | apply only_refl | decide | apply only_ite
        | apply only_step (State.searchCold_only ..) | apply only_step (State.clock_only ..)
    | (intro v a hv) | (intro v hv) | extract_lets | split | (dsimp +zetaDelta only [])
theorem State.enterRepair_only (s : State) (p : PortId) : s.onlyChanges (State.enterRepair s p) [.links] := by
  unfold State.enterRepair
  repeat' first
    | with_reducible first
        | assumption | apply only_refl | decide | apply only_ite | apply only_step (State.enterTr_only ..)
        | apply only_step (State.onPort_only ..)
    | (intro v a hv) | (intro v hv) | extract_lets | split | (dsimp +zetaDelta only [])
theorem execEqualiseDone_only (p : PortId) (passed : Bool) (t : Nat) (s : State) : Out.only s (execEqualiseDone p passed t s)
    [.now, .free, .fields, .dies, .links] := by
  unfold execEqualiseDone
  repeat' first
    | with_reducible first
        | apply State.trainWork_step | apply next_only | apply fault_only | apply out_ite | assumption | apply only_refl
        | decide | apply only_ite | apply only_step (State.enterRepair_only ..) | apply only_step (State.coldSearch_only ..)
        | apply only_step (State.clock_only ..) | apply only_step (State.spend_only ..)
        | apply only_step (State.onPort_only ..)
    | (intro v a hv) | (intro v hv) | extract_lets | split | (dsimp +zetaDelta only [])
theorem execEqRecordStore_only (p : PortId) (flashOk : Bool) (t : Nat) (s : State) : Out.only s (execEqRecordStore p flashOk t
    s) [.now, .effects, .tray, .ports, .fields, .dies, .links, .trouble, .wm] := by
  unfold execEqRecordStore
  repeat' first
    | with_reducible first
        | apply next_only | apply fault_only | apply out_ite | assumption | apply only_refl | decide | apply only_ite
        | apply only_step (State.wmReport_only ..) | apply only_step (State.clock_only ..)
        | apply only_step (State.onWm_only ..) | apply only_step (State.onLink_only ..)
    | (intro v a hv) | (intro v hv) | extract_lets | split | (dsimp +zetaDelta only [])
theorem State.fuseCheck_only (s : State) (p : PortId) : s.onlyChanges (State.fuseCheck s p) [.fields, .dies] := by
  unfold State.fuseCheck
  repeat' first
    | with_reducible first
        | assumption | apply only_refl | decide | apply only_ite | apply only_step (State.report_only ..)
        | apply only_step (State.onDie_only ..)
    | (intro v a hv) | (intro v hv) | extract_lets | split | (dsimp +zetaDelta only [])
theorem execRepairDone_only (p : PortId) (peerMaps : List Half) (failing : List Lane) (t : Nat) (s : State) : Out.only s
    (execRepairDone p peerMaps failing t s) [.now, .fields, .dies, .links, .wm] := by
  unfold execRepairDone
  repeat' first
    | with_reducible first
        | apply State.trainWork_step | apply next_only | apply fault_only | apply out_ite | assumption | apply only_refl
        | decide | apply only_ite | apply only_step (State.fuseCheck_only ..) | apply only_step (State.failAttempt_only ..)
        | apply only_step (State.enterTr_only ..) | apply only_step (State.setMap_only ..)
        | apply only_step (State.retire_only ..) | apply only_step (State.clock_only ..) | apply only_forEach
    | (intro v a hv) | (intro v hv) | extract_lets | split | (dsimp +zetaDelta only [])
theorem execAlignDone_only (p : PortId) (lanesReversed bundlesReversed : Bool) (t : Nat) (s : State) : Out.only s
    (execAlignDone p lanesReversed bundlesReversed t s) [.now, .fields, .dies, .links] := by
  unfold execAlignDone
  repeat' first
    | with_reducible first
        | apply State.trainWork_step | apply next_only | apply fault_only | apply out_ite | assumption | apply only_refl
        | decide | apply only_ite | apply only_step (State.enterTr_only ..) | apply only_step (State.clock_only ..)
        | apply only_step (State.onLink_only ..)
    | (intro v a hv) | (intro v hv) | extract_lets | split | (dsimp +zetaDelta only [])
theorem execConfigDone_only (p : PortId) (peer : PeerIdent) (t : Nat) (s : State) : Out.only s (execConfigDone p peer t s)
    [.now, .fields, .dies, .links] := by
  unfold execConfigDone
  repeat' first
    | with_reducible first
        | apply State.trainWork_step | apply next_only | apply fault_only | apply out_ite | assumption | apply only_refl
        | decide | apply only_ite | apply only_step (State.failAttempt_only ..) | apply only_step (State.enterTr_only ..)
        | apply only_step (State.clock_only ..) | apply only_step (State.onLink_only ..)
    | (intro v a hv) | (intro v hv) | extract_lets | split | (dsimp +zetaDelta only [])
theorem State.upAlone_only (s : State) (p : PortId) (raw128 : Nat) : s.onlyChanges (State.upAlone s p raw128) [.links] := by
  unfold State.upAlone
  repeat' first
    | with_reducible first
        | assumption | apply only_refl | decide | apply only_ite | apply only_step (State.onLink_only ..)
    | (intro v a hv) | (intro v hv) | extract_lets | split | (dsimp +zetaDelta only [])
theorem execPinDone_only (p : PortId) (trips : Nat) (t : Nat) (s : State) : Out.only s (execPinDone p trips t s) [.wmReply,
    .now, .effects, .ports, .fields, .dies, .links, .ledgerEpoch, .trouble] := by
  unfold execPinDone
  repeat' first
    | with_reducible first
        | apply State.trainWork_step | apply next_only | apply fault_only | apply out_ite | assumption | apply only_refl
        | decide | apply only_ite | apply only_step (State.upAlone_only ..) | apply only_step (State.comeUp_only ..)
        | apply only_step (State.failAttempt_only ..) | apply only_step (State.clock_only ..)
        | apply only_step (State.onLink_only ..)
    | (intro v a hv) | (intro v hv) | extract_lets | split | (dsimp +zetaDelta only [])
theorem State.collide_only (s : State) (p : PortId) : s.onlyChanges (State.collide s p) [.links] := by
  unfold State.collide
  repeat' first
    | with_reducible first
        | assumption | apply only_refl | decide | apply only_ite | apply only_step (State.onLink_only ..)
    | (intro v a hv) | (intro v hv) | extract_lets | split | (dsimp +zetaDelta only [])
theorem execRoleSwap_only (r : SwapReq) (t : Nat) (s : State) : Out.only s (execRoleSwap r t s) [.now, .dies, .links] := by
  unfold execRoleSwap
  repeat' first
    | with_reducible first
        | apply next_only | apply fault_only | apply out_ite | assumption | apply only_refl | decide | apply only_ite
        | apply only_step (State.collide_only ..) | apply only_step (State.clock_only ..)
        | apply only_step (State.onLink_only ..) | apply only_forEach
    | (intro v a hv) | (intro v hv) | extract_lets | split | (dsimp +zetaDelta only [])
theorem execModulePresenceChange_only (cage : Fin 16) (m : Option Module) (t : Nat) (s : State) : Out.only s
    (execModulePresenceChange cage m t s) [.now, .dies, .links] := by
  unfold execModulePresenceChange
  repeat' first
    | with_reducible first
        | apply next_only | apply fault_only | apply out_ite | assumption | apply only_refl | decide | apply only_ite
        | apply only_step (State.startTraining_only ..) | apply only_step (State.clock_only ..)
        | apply only_step (State.onLink_only ..) | apply only_step (State.onPort_only ..)
    | (intro v a hv) | (intro v hv) | extract_lets | split | (dsimp +zetaDelta only [])
theorem State.declareDead_only (s : State) (p : PortId) (bundle : Nat) (dead : List Nat) : s.onlyChanges (State.declareDead s
    p bundle dead) [.effects, .ports, .fields, .dies, .links, .trouble] := by
  unfold State.declareDead
  repeat' first
    | with_reducible first
        | assumption | apply only_refl | decide | apply only_ite | apply only_step (State.portDown_only ..)
        | apply only_step (State.onPort_only ..)
    | (intro v a hv) | (intro v hv) | extract_lets | split | (dsimp +zetaDelta only [])
theorem State.substMap_only (s : State) (p : PortId) (k : Nat) (lanes : List Nat) : s.onlyChanges (State.substMap s p k lanes)
    [.links] := by
  unfold State.substMap
  repeat' first
    | with_reducible first
        | assumption | apply only_refl | decide | apply only_ite | apply only_step (State.setMap_only ..)
    | (intro v a hv) | (intro v hv) | extract_lets | split | (dsimp +zetaDelta only [])
theorem execSubstitutionTxSwitch_only (p : PortId) (t : Nat) (s : State) : Out.only s (execSubstitutionTxSwitch p t s) [.now,
    .dies, .links] := by
  unfold execSubstitutionTxSwitch
  repeat' first
    | with_reducible first
        | apply next_only | apply fault_only | apply out_ite | assumption | apply only_refl | decide | apply only_ite
        | apply only_step (State.substMap_only ..) | apply only_step (State.clock_only ..)
        | apply only_step (State.onPort_only ..)
    | (intro v a hv) | (intro v hv) | extract_lets | split | (dsimp +zetaDelta only [])
theorem execSubstitutionRxSwitch_only (x : RxSwitch) (t : Nat) (s : State) : Out.only s (execSubstitutionRxSwitch x t s)
    [.now, .fields, .dies, .links, .wm] := by
  unfold execSubstitutionRxSwitch
  repeat' first
    | with_reducible first
        | apply next_only | apply fault_only | apply out_ite | assumption | apply only_refl | decide | apply only_ite
        | apply only_step (State.substMap_only ..) | apply only_step (State.retire_only ..)
        | apply only_step (State.clock_only ..) | apply only_step (State.onPort_only ..) | apply only_forEach
    | (intro v a hv) | (intro v hv) | extract_lets | split | (dsimp +zetaDelta only [])
theorem execLaneSilent_only (p : PortId) (l : Lane) (t : Nat) (s : State) : Out.only s (execLaneSilent p l t s) [.now,
    .effects, .ports, .fields, .dies, .links, .trouble, .wm] := by
  unfold execLaneSilent
  repeat' first
    | with_reducible first
        | apply next_only | apply fault_only | apply out_ite | assumption | apply only_refl | decide | apply only_ite
        | apply only_step (State.declareDead_only ..) | apply only_step (State.failAttempt_only ..)
        | apply only_step (State.retire_only ..) | apply only_step (State.clock_only ..)
    | (intro v a hv) | (intro v hv) | extract_lets | split | (dsimp +zetaDelta only [])
theorem execClockPairLoss_only (p : PortId) (t : Nat) (s : State) : Out.only s (execClockPairLoss p t s) [.now, .effects,
    .ports, .fields, .dies, .links, .trouble] := by
  unfold execClockPairLoss
  repeat' first
    | with_reducible first
        | apply next_only | apply fault_only | apply out_ite | assumption | apply only_refl | decide | apply only_ite
        | apply only_step (State.portDown_only ..) | apply only_step (State.clock_only ..)
    | (intro v a hv) | (intro v hv) | extract_lets | split | (dsimp +zetaDelta only [])
theorem execLinkDown_only (p : PortId) (cause : DownCause) (t : Nat) (s : State) : Out.only s (execLinkDown p cause t s)
    [.now, .effects, .ports, .fields, .dies, .links, .trouble] := by
  unfold execLinkDown
  repeat' first
    | with_reducible first
        | apply next_only | apply fault_only | apply out_ite | assumption | apply only_refl | decide | apply only_ite
        | apply only_step (State.portDown_only ..) | apply only_step (State.clock_only ..)
    | (intro v a hv) | (intro v hv) | extract_lets | split | (dsimp +zetaDelta only [])
theorem State.dryPhase_only (s : State) (p : PortId) (ph : DryPhase) (requester : Bool) : s.onlyChanges (State.dryPhase s p ph
    requester) [.links] := by
  unfold State.dryPhase
  repeat' first
    | with_reducible first
        | assumption | apply only_refl | decide | apply only_ite | apply only_step (State.onPort_only ..)
    | (intro v a hv) | (intro v hv) | extract_lets | split | (dsimp +zetaDelta only [])
theorem execDryIdleElapsed_only (p : PortId) (t : Nat) (s : State) : Out.only s (execDryIdleElapsed p t s) [.now, .dies,
    .links] := by
  unfold execDryIdleElapsed
  repeat' first
    | with_reducible first
        | apply next_only | apply fault_only | apply out_ite | assumption | apply only_refl | decide | apply only_ite
        | apply only_step (State.dryPhase_only ..) | apply only_step (State.sendLc_only ..)
        | apply only_step (State.clock_only ..)
    | (intro v a hv) | (intro v hv) | extract_lets | split | (dsimp +zetaDelta only [])
theorem execDryReq_only (p : PortId) (t : Nat) (s : State) : Out.only s (execDryReq p t s) [.now, .dies, .links] := by
  unfold execDryReq
  repeat' first
    | with_reducible first
        | apply next_only | apply fault_only | apply out_ite | assumption | apply only_refl | decide | apply only_ite
        | apply only_step (State.dryPhase_only ..) | apply only_step (State.lcAnswered_only ..)
        | apply only_step (State.sendLc_only ..) | apply only_step (State.clock_only ..)
    | (intro v a hv) | (intro v hv) | extract_lets | split | (dsimp +zetaDelta only [])
theorem execDryAck_only (p : PortId) (t : Nat) (s : State) : Out.only s (execDryAck p t s) [.now, .dies, .links] := by
  unfold execDryAck
  repeat' first
    | with_reducible first
        | apply next_only | apply fault_only | apply out_ite | assumption | apply only_refl | decide | apply only_ite
        | apply only_step (State.dryPhase_only ..) | apply only_step (State.lcAnswered_only ..)
        | apply only_step (State.clock_only ..)
    | (intro v a hv) | (intro v hv) | extract_lets | split | (dsimp +zetaDelta only [])
theorem execDryNak_only (p : PortId) (t : Nat) (s : State) : Out.only s (execDryNak p t s) [.now, .dies, .links] := by
  unfold execDryNak
  repeat' first
    | with_reducible first
        | apply next_only | apply fault_only | apply out_ite | assumption | apply only_refl | decide | apply only_ite
        | apply only_step (State.dryPhase_only ..) | apply only_step (State.lcAnswered_only ..)
        | apply only_step (State.clock_only ..)
    | (intro v a hv) | (intro v hv) | extract_lets | split | (dsimp +zetaDelta only [])
theorem execDryCommit_only (p : PortId) (t : Nat) (s : State) : Out.only s (execDryCommit p t s) [.now, .dies, .links] := by
  unfold execDryCommit
  repeat' first
    | with_reducible first
        | apply next_only | apply fault_only | apply out_ite | assumption | apply only_refl | decide | apply only_ite
        | apply only_step (State.dryPhase_only ..) | apply only_step (State.clock_only ..)
    | (intro v a hv) | (intro v hv) | extract_lets | split | (dsimp +zetaDelta only [])
theorem execDryEntered_only (p : PortId) (t : Nat) (s : State) : Out.only s (execDryEntered p t s) [.now, .fields, .dies,
    .links] := by
  unfold execDryEntered
  repeat' first
    | with_reducible first
        | apply next_only | apply fault_only | apply out_ite | assumption | apply only_refl | decide | apply only_ite
        | apply only_step (State.linkLeaves_only ..) | apply only_step (State.settleAllTimers_only ..)
        | apply only_step (State.clock_only ..) | apply only_step (State.onPort_only ..)
    | (intro v a hv) | (intro v hv) | extract_lets | split | (dsimp +zetaDelta only [])
theorem State.dryResumed_only (s : State) (p : PortId) : s.onlyChanges (State.dryResumed s p) [.links] := by
  unfold State.dryResumed
  repeat' first
    | with_reducible first
        | assumption | apply only_refl | decide | apply only_ite | apply only_step (State.onPort_only ..)
    | (intro v a hv) | (intro v hv) | extract_lets | split | (dsimp +zetaDelta only [])
theorem State.dryBusy_only (s : State) (p : PortId) : s.onlyChanges (State.dryBusy s p) [.links] := by
  unfold State.dryBusy
  repeat' first
    | with_reducible first
        | assumption | apply only_refl | decide | apply only_ite | apply only_step (State.onPort_only ..)
    | (intro v a hv) | (intro v hv) | extract_lets | split | (dsimp +zetaDelta only [])
theorem State.wakePort_only (s : State) (p : PortId) : s.onlyChanges (State.wakePort s p) [.links] := by
  unfold State.wakePort
  repeat' first
    | with_reducible first
        | assumption | apply only_refl | decide | apply only_ite | apply only_step (State.dryPhase_only ..)
        | apply only_step (State.lcAnswered_only ..) | apply only_step (State.sendLc_only ..)
        | apply only_step (State.onPort_only ..) | apply only_forEach
    | (intro v a hv) | (intro v hv) | extract_lets | split | (dsimp +zetaDelta only [])
theorem execWake_only (p : PortId) (_cause : WakeCause) (t : Nat) (s : State) : Out.only s (execWake p _cause t s) [.now,
    .dies, .links] := by
  unfold execWake
  repeat' first
    | with_reducible first
        | apply next_only | apply fault_only | apply out_ite | assumption | apply only_refl | decide | apply only_ite
        | apply only_step (State.wakePort_only ..) | apply only_step (State.clock_only ..)
    | (intro v a hv) | (intro v hv) | extract_lets | split | (dsimp +zetaDelta only [])
theorem execDryExitDone_only (p : PortId) (dead : List Lane) (pinOk : Bool) (t : Nat) (s : State) : Out.only s
    (execDryExitDone p dead pinOk t s) [.wmReply, .now, .effects, .ports, .fields, .dies, .links, .trouble, .wm] := by
  unfold execDryExitDone
  repeat' first
    | with_reducible first
        | apply next_only | apply fault_only | apply out_ite | assumption | apply only_refl | decide | apply only_ite
        | apply only_step (State.substMap_only ..) | apply only_step (State.settleWaking_only ..)
        | apply only_step (State.portDown_only ..) | apply only_step (State.retire_only ..)
        | apply only_step (State.sendLc_only ..) | apply only_step (State.settleAllTimers_only ..)
        | apply only_step (State.clock_only ..) | apply only_step (State.onPort_only ..) | apply only_forEach
    | (intro v a hv) | (intro v hv) | extract_lets | split | (dsimp +zetaDelta only [])
theorem State.stream_only (s : State) (p : PortId) (bundle slot : Nat) (bs : List Byte) : s.onlyChanges (State.stream s p
    bundle slot bs) [.links] := by
  unfold State.stream
  repeat' first
    | with_reducible first
        | assumption | apply only_refl | decide | apply only_ite | apply only_step (State.onPort_only ..)
    | (intro v a hv) | (intro v hv) | extract_lets | split | (dsimp +zetaDelta only [])
theorem State.sendPlanned_only (s : State) (p : PortId) (bundle slot cls : Nat) (part : Bool) (field : Nat) (payload : List
    Byte) : s.onlyChanges (State.sendPlanned s p bundle slot cls part field payload) [.links] := by
  unfold State.sendPlanned
  repeat' first
    | with_reducible first
        | assumption | apply only_refl | decide | apply only_ite | apply only_step (State.stream_only ..)
        | apply only_step (State.setPort_only ..)
    | (intro v a hv) | (intro v hv) | extract_lets | split | (dsimp +zetaDelta only [])
theorem State.countPlanned_only (s : State) (d : DieId) (k : Packet) : s.onlyChanges (State.countPlanned s d k) [.dies] := by
  unfold State.countPlanned
  repeat' first
    | with_reducible first
        | assumption | apply only_refl | decide | apply only_ite | apply only_step (State.onCnt_only ..)
    | (intro v a hv) | (intro v hv) | extract_lets | split | (dsimp +zetaDelta only [])
theorem State.egressCredit_only (s : State) (d : DieId) (k : Packet) : s.onlyChanges (State.egressCredit s d k) [.dies] := by
  unfold State.egressCredit
  repeat' first
    | with_reducible first
        | assumption | apply only_refl | decide | apply only_ite | apply only_step (State.onTile_only ..)
        | apply only_step (State.onDie_only ..)
    | (intro v a hv) | (intro v hv) | extract_lets | split | (dsimp +zetaDelta only [])
theorem execPlannedPositionSend_only (p : PortId) (bundle : Nat) (slot : Fin 256) (s : State) : Out.only s
    (execPlannedPositionSend p bundle slot s) [.fields, .dies, .links] := by
  unfold execPlannedPositionSend
  repeat' first
    | with_reducible first
        | apply next_only | apply fault_only | apply out_ite | assumption | apply only_refl | decide | apply only_ite
        | apply only_step (State.egressCredit_only ..) | apply only_step (State.countPlanned_only ..)
        | apply only_step (State.sendPlanned_only ..) | apply only_step (State.meshError_only ..)
        | apply only_step (State.setPort_only ..)
    | (intro v a hv) | (intro v hv) | extract_lets | split | (dsimp +zetaDelta only [])
theorem State.countFlit_only (s : State) (p : PortId) (bundle : Nat) (c : Checked) : s.onlyChanges (State.countFlit s p bundle
    c) [.links] := by
  unfold State.countFlit
  repeat' first
    | with_reducible first
        | assumption | apply only_refl | decide | apply only_ite | apply only_step (State.onPort_only ..)
    | (intro v a hv) | (intro v hv) | extract_lets | split | (dsimp +zetaDelta only [])
theorem State.watchLanes_only (s : State) (p : PortId) (bundle : Nat) (ok : Bool) (quiet : List Nat) : s.onlyChanges
    (State.watchLanes s p bundle ok quiet) [.effects, .ports, .fields, .dies, .links, .trouble] := by
  unfold State.watchLanes
  repeat' first
    | with_reducible first
        | assumption | apply only_refl | decide | apply only_ite | apply only_step (State.declareDead_only ..)
        | apply only_step (State.onPort_only ..)
    | (intro v a hv) | (intro v hv) | extract_lets | split | (dsimp +zetaDelta only [])
theorem State.takeRepair_only (s : State) (p : PortId) (field : Nat) : s.onlyChanges (State.takeRepair s p field) [.links] := by
  unfold State.takeRepair
  repeat' first
    | with_reducible first
        | assumption | apply only_refl | decide | apply only_ite | apply only_step (State.setPort_only ..)
    | (intro v a hv) | (intro v hv) | extract_lets | split | (dsimp +zetaDelta only [])
theorem State.endReplay_only (s : State) (p : PortId) : s.onlyChanges (State.endReplay s p) [.effects, .ports, .dies, .links,
    .trouble] := by
  unfold State.endReplay
  repeat' first
    | with_reducible first
        | assumption | apply only_refl | decide | apply only_ite | apply only_step (State.linkEvent_only ..)
        | apply only_step (State.routeClear_only ..) | apply only_step (State.settleAllTimers_only ..)
        | apply only_step (State.onPort_only ..)
    | (intro v a hv) | (intro v hv) | extract_lets | split | (dsimp +zetaDelta only [])
theorem State.takeAck_only (s : State) (p : PortId) (ack : Half) : s.onlyChanges (State.takeAck s p ack) [.effects, .ports,
    .dies, .links, .trouble] := by
  unfold State.takeAck
  repeat' first
    | with_reducible first
        | assumption | apply only_refl | decide | apply only_ite | apply only_step (State.endReplay_only ..)
        | apply only_step (State.bump_only ..) | apply only_step (State.setPort_only ..)
    | (intro v a hv) | (intro v hv) | extract_lets | split | (dsimp +zetaDelta only [])
theorem State.deliverPlanned_only (s : State) (p : PortId) (bundle slot : Nat) (part : Bool) (field cls : Nat) (payload : List
    Byte) : s.onlyChanges (State.deliverPlanned s p bundle slot part field cls payload) [.links] := by
  unfold State.deliverPlanned
  repeat' first
    | with_reducible first
        | assumption | apply only_refl | decide | apply only_ite | apply only_step (State.onPort_only ..)
    | (intro v a hv) | (intro v hv) | extract_lets | split | (dsimp +zetaDelta only [])
theorem State.pairFlit_only (s : State) (p : PortId) (c : ChanRec) (first bad : Bool) (payload : List Byte) : s.onlyChanges
    (State.pairFlit s p c first bad payload) [.free, .fields, .dies, .links] := by
  unfold State.pairFlit
  repeat' first
    | with_reducible first
        | assumption | apply only_refl | decide | apply only_ite | apply only_step (State.ingressAdd_only ..)
        | apply only_step (State.spend_only ..) | apply only_step (State.onPort_only ..)
    | (intro v a hv) | (intro v hv) | extract_lets | split | (dsimp +zetaDelta only [])
theorem execPlannedFlitReceive_only (p : PortId) (bundle : Nat) (slot : Fin 256) (rx : Rx) (t : Nat) (s : State) : Out.only s
    (execPlannedFlitReceive p bundle slot rx t s) [.now, .free, .effects, .ports, .fields, .dies, .links, .trouble] := by
  unfold execPlannedFlitReceive
  repeat' first
    | with_reducible first
        | apply next_only | apply fault_only | apply out_ite | assumption | apply only_refl | decide | apply only_ite
        | apply only_step (State.pairFlit_only ..) | apply only_step (State.deliverPlanned_only ..)
        | apply only_step (State.takeAck_only ..) | apply only_step (State.takeRepair_only ..)
        | apply only_step (State.watchLanes_only ..) | apply only_step (State.countFlit_only ..)
        | apply only_step (State.portDown_only ..) | apply only_step (State.bump_only ..)
        | apply only_step (State.onCnt_only ..) | apply only_step (State.clock_only ..)
    | (intro v a hv) | (intro v hv) | extract_lets | split | (dsimp +zetaDelta only [])
theorem State.traceFlit_only (s : State) (p : PortId) (dir cls : Nat) (retx : Bool) (seq : Half) (h : Hdr) : s.onlyChanges
    (State.traceFlit s p dir cls retx seq h) [.fields, .links] := by
  unfold State.traceFlit
  repeat' first
    | with_reducible first
        | assumption | apply only_refl | decide | apply only_ite | apply only_step (State.onField_only ..)
        | apply only_step (State.setPort_only ..)
    | (intro v a hv) | (intro v hv) | extract_lets | split | (dsimp +zetaDelta only [])
theorem State.sendSide_only (s : State) (p : PortId) (bundle slot cls : Nat) (part last : Bool) (field : Nat) (payload : List
    Byte) : s.onlyChanges (State.sendSide s p bundle slot cls part last field payload) [.links] := by
  unfold State.sendSide
  repeat' first
    | with_reducible first
        | assumption | apply only_refl | decide | apply only_ite | apply only_step (State.stream_only ..)
        | apply only_step (State.setPort_only ..)
    | (intro v a hv) | (intro v hv) | extract_lets | split | (dsimp +zetaDelta only [])
theorem State.sendSeq_only (s : State) (p : PortId) (bundle slot : Nat) (z : SeqFlit) (retx : Bool) : s.onlyChanges
    (State.sendSeq s p bundle slot z retx) [.fields, .links] := by
  unfold State.sendSeq
  repeat' first
    | with_reducible first
        | assumption | apply only_refl | decide | apply only_ite | apply only_step (State.sendSide_only ..)
        | apply only_step (State.traceFlit_only ..)
    | (intro v a hv) | (intro v hv) | extract_lets | split | (dsimp +zetaDelta only [])
theorem State.sequence_only (s : State) (p : PortId) (bundle slot : Nat) (z : Flit) : s.onlyChanges (State.sequence s p bundle
    slot z) [.fields, .links] := by
  unfold State.sequence
  repeat' first
    | with_reducible first
        | assumption | apply only_refl | decide | apply only_ite | apply only_step (State.sendSeq_only ..)
        | apply only_step (State.setPort_only ..)
    | (intro v a hv) | (intro v hv) | extract_lets | split | (dsimp +zetaDelta only [])
theorem State.retransmit_only (s : State) (p : PortId) (bundle slot : Nat) (seq : Half) : s.onlyChanges (State.retransmit s p
    bundle slot seq) [.effects, .ports, .fields, .dies, .links, .trouble] := by
  unfold State.retransmit
  repeat' first
    | with_reducible first
        | assumption | apply only_refl | decide | apply only_ite | apply only_step (State.sendSeq_only ..)
        | apply only_step (State.endReplay_only ..) | apply only_step (State.portDown_only ..)
        | apply only_step (State.bump_only ..) | apply only_step (State.setPort_only ..)
    | (intro v a hv) | (intro v hv) | extract_lets | split | (dsimp +zetaDelta only [])
theorem execSidePositionSend_only (p : PortId) (bundle : Nat) (slot : Fin 256) (t : Nat) (s : State) : Out.only s
    (execSidePositionSend p bundle slot t s) [.now, .effects, .ports, .fields, .dies, .links, .trouble] := by
  unfold execSidePositionSend
  repeat' first
    | with_reducible first
        | apply next_only | apply fault_only | apply out_ite | assumption | apply only_refl | decide | apply only_ite
        | apply only_step (State.retransmit_only ..) | apply only_step (State.sequence_only ..)
        | apply only_step (State.sendSide_only ..) | apply only_step (State.dryBusy_only ..)
        | apply only_step (State.clock_only ..) | apply only_step (State.setPort_only ..)
    | (intro v a hv) | (intro v hv) | extract_lets | split | (dsimp +zetaDelta only [])
theorem State.startReplay_only (s : State) (p : PortId) (seq : Half) : s.onlyChanges (State.startReplay s p seq) [.effects,
    .ports, .dies, .links, .trouble] := by
  unfold State.startReplay
  repeat' first
    | with_reducible first
        | assumption | apply only_refl | decide | apply only_ite | apply only_step (State.linkEvent_only ..)
        | apply only_step (State.routeHoldAll_only ..) | apply only_step (State.settleAllTimers_only ..)
        | apply only_step (State.onPort_only ..)
    | (intro v a hv) | (intro v hv) | extract_lets | split | (dsimp +zetaDelta only [])
theorem State.sendNak_only (s : State) (p : PortId) : s.onlyChanges (State.sendNak s p) [.links] := by
  unfold State.sendNak
  repeat' first
    | with_reducible first
        | assumption | apply only_refl | decide | apply only_ite | apply only_step (State.bump_only ..)
        | apply only_step (State.sendLc_only ..) | apply only_step (State.setPort_only ..)
    | (intro v a hv) | (intro v hv) | extract_lets | split | (dsimp +zetaDelta only [])
theorem State.deliverSide_only (s : State) (p : PortId) (c : Checked) (seq : Half) (bytes : List Byte) : s.onlyChanges
    (State.deliverSide s p c seq bytes) [.fields, .links] := by
  unfold State.deliverSide
  repeat' first
    | with_reducible first
        | assumption | apply only_refl | decide | apply only_ite | apply only_step (State.traceFlit_only ..)
        | apply only_step (State.setPort_only ..)
    | (intro v a hv) | (intro v hv) | extract_lets | split | (dsimp +zetaDelta only [])
theorem execSideFlitReceive_only (p : PortId) (bundle : Nat) (slot : Fin 256) (rx : Rx) (t : Nat) (s : State) : Out.only s
    (execSideFlitReceive p bundle slot rx t s) [.now, .effects, .ports, .fields, .dies, .links, .trouble] := by
  unfold execSideFlitReceive
  repeat' first
    | with_reducible first
        | apply next_only | apply fault_only | apply out_ite | assumption | apply only_refl | decide | apply only_ite
        | apply only_step (State.deliverSide_only ..) | apply only_step (State.sendNak_only ..)
        | apply only_step (State.takeAck_only ..) | apply only_step (State.takeRepair_only ..)
        | apply only_step (State.watchLanes_only ..) | apply only_step (State.countFlit_only ..)
        | apply only_step (State.dryBusy_only ..) | apply only_step (State.dryResumed_only ..)
        | apply only_step (State.portDown_only ..) | apply only_step (State.bump_only ..)
        | apply only_step (State.clock_only ..)
    | (intro v a hv) | (intro v hv) | extract_lets | split | (dsimp +zetaDelta only [])
theorem execNak_only (p : PortId) (expected : Half) (t : Nat) (s : State) : Out.only s (execNak p expected t s) [.now,
    .effects, .ports, .dies, .links, .trouble] := by
  unfold execNak
  repeat' first
    | with_reducible first
        | apply next_only | apply fault_only | apply out_ite | assumption | apply only_refl | decide | apply only_ite
        | apply only_step (State.startReplay_only ..) | apply only_step (State.clock_only ..)
    | (intro v a hv) | (intro v hv) | extract_lets | split | (dsimp +zetaDelta only [])
theorem execAckTimerExpiry_only (p : PortId) (t : Nat) (s : State) : Out.only s (execAckTimerExpiry p t s) [.now, .effects,
    .ports, .dies, .links, .trouble] := by
  unfold execAckTimerExpiry
  repeat' first
    | with_reducible first
        | apply next_only | apply fault_only | apply out_ite | assumption | apply only_refl | decide | apply only_ite
        | apply only_step (State.startReplay_only ..) | apply only_step (State.clock_only ..)
        | apply only_step (State.onPort_only ..)
    | (intro v a hv) | (intro v hv) | extract_lets | split | (dsimp +zetaDelta only [])
theorem execReplaySync_only (p : PortId) (expected next : Half) (t : Nat) (s : State) : Out.only s (execReplaySync p expected
    next t s) [.now, .effects, .ports, .dies, .links, .trouble] := by
  unfold execReplaySync
  repeat' first
    | with_reducible first
        | apply next_only | apply fault_only | apply out_ite | assumption | apply only_refl | decide | apply only_ite
        | apply only_step (State.startReplay_only ..) | apply only_step (State.takeAck_only ..)
        | apply only_step (State.endReplay_only ..) | apply only_step (State.endStream_only ..)
        | apply only_step (State.routeClear_only ..) | apply only_step (State.settleAllTimers_only ..)
        | apply only_step (State.clock_only ..) | apply only_step (State.onPort_only ..)
    | (intro v a hv) | (intro v hv) | extract_lets | split | (dsimp +zetaDelta only [])
theorem execLcRequestRepeat_only (p : PortId) (s : State) : Out.only s (execLcRequestRepeat p s) [.links] := by
  unfold execLcRequestRepeat
  repeat' first
    | with_reducible first
        | apply next_only | apply fault_only | apply out_ite | assumption | apply only_refl | decide | apply only_ite
        | apply only_step (State.dryPhase_only ..) | apply only_step (State.bump_only ..)
        | apply only_step (State.setPort_only ..)
    | (intro v a hv) | (intro v hv) | extract_lets | split | (dsimp +zetaDelta only [])
theorem execCfgRd_only (p : PortId) (ofs : Nat) (count : Nat) (s : State) : Out.only s (execCfgRd p ofs count s) [.links] := by
  unfold execCfgRd
  repeat' first
    | with_reducible first
        | apply next_only | apply fault_only | apply out_ite | assumption | apply only_refl | decide | apply only_ite
        | apply only_step (State.sendLc_only ..)
    | (intro v a hv) | (intro v hv) | extract_lets | split | (dsimp +zetaDelta only [])
theorem execCfgRsp_only (p : PortId) (ofs : Nat) (stat : Nat) (data : List Byte) (s : State) : Out.only s (execCfgRsp p ofs
    stat data s) [.links] := by
  unfold execCfgRsp
  repeat' first
    | with_reducible first
        | apply next_only | apply fault_only | apply out_ite | assumption | apply only_refl | decide | apply only_ite
        | apply only_step (State.onPort_only ..)
    | (intro v a hv) | (intro v hv) | extract_lets | split | (dsimp +zetaDelta only [])
theorem execErrorWindowEnd_only (p : PortId) (t : Nat) (s : State) : Out.only s (execErrorWindowEnd p t s) [.now, .effects,
    .ports, .fields, .dies, .links, .trouble] := by
  unfold execErrorWindowEnd
  repeat' first
    | with_reducible first
        | apply next_only | apply fault_only | apply out_ite | assumption | apply only_refl | decide | apply only_ite
        | apply only_step (State.linkEvent_only ..) | apply only_step (State.routeClear_only ..)
        | apply only_step (State.routeHoldAll_only ..) | apply only_step (State.settleAllTimers_only ..)
        | apply only_step (State.report_only ..) | apply only_step (State.clock_only ..)
        | apply only_step (State.setPort_only ..) | apply only_foldl
    | (intro v a hv) | (intro v hv) | extract_lets | split | (dsimp +zetaDelta only [])
theorem execLedgerRead_only (r : MReq) (first count : Nat) (s : State) : Out.only s (execLedgerRead r first count s)
    [.waiting, .resumed, .wmReply, .now, .free, .effects, .scopes, .targets, .ports, .dies, .trouble, .wm] := by
  unfold execLedgerRead
  repeat' first
    | with_reducible first
        | apply State.serve_step | apply next_only | apply fault_only | apply out_ite | assumption | apply only_refl | decide
        | apply only_ite | apply only_step (State.reply_only ..)
    | (intro v a hv) | (intro v hv) | extract_lets | split | (dsimp +zetaDelta only [])
theorem execLinkCfgRead_only (r : MReq) (p : PRef) (ofs len : Nat) (s : State) : Out.only s (execLinkCfgRead r p ofs len s)
    [.waiting, .resumed, .wmReply, .now, .free, .effects, .scopes, .targets, .ports, .dies, .trouble, .wm] := by
  unfold execLinkCfgRead
  repeat' first
    | with_reducible first
        | apply State.serve_step | apply next_only | apply fault_only | apply out_ite | assumption | apply only_refl | decide
        | apply only_ite | apply only_step (State.reply_only ..)
    | (intro v a hv) | (intro v hv) | extract_lets | split | (dsimp +zetaDelta only [])
theorem execLinkRetrain_only (r : MReq) (p : PRef) (s : State) : Out.only s (execLinkRetrain r p s) [.waiting, .resumed,
    .wmReply, .now, .free, .effects, .scopes, .targets, .ports, .fields, .dies, .links, .trouble, .wm] := by
  unfold execLinkRetrain
  repeat' first
    | with_reducible first
        | apply State.serve_step | apply next_only | apply fault_only | apply out_ite | assumption | apply only_refl | decide
        | apply only_ite | apply only_step (State.portIdle_only ..) | apply only_step (State.startTraining_only ..)
        | apply only_step (State.reply_only ..)
    | (intro v a hv) | (intro v hv) | extract_lets | split | (dsimp +zetaDelta only [])
theorem execLinkDisable_only (r : MReq) (p : PRef) (s : State) : Out.only s (execLinkDisable r p s) [.waiting, .resumed,
    .wmReply, .now, .free, .effects, .scopes, .targets, .ports, .fields, .dies, .links, .trouble, .wm] := by
  unfold execLinkDisable
  repeat' first
    | with_reducible first
        | apply State.serve_step | apply next_only | apply fault_only | apply out_ite | assumption | apply only_refl | decide
        | apply only_ite | apply only_step (State.portIdle_only ..) | apply only_step (State.reply_only ..)
        | apply only_step (State.onLink_only ..)
    | (intro v a hv) | (intro v hv) | extract_lets | split | (dsimp +zetaDelta only [])
theorem execLinkDisableForce_only (r : MReq) (p : PRef) (s : State) : Out.only s (execLinkDisableForce r p s) [.waiting,
    .resumed, .wmReply, .now, .free, .effects, .scopes, .targets, .ports, .fields, .dies, .links, .trouble, .wm] := by
  unfold execLinkDisableForce
  repeat' first
    | with_reducible first
        | apply State.serve_step | apply next_only | apply fault_only | apply out_ite | assumption | apply only_refl | decide
        | apply only_ite | apply only_step (State.portIdle_only ..) | apply only_step (State.routeHoldAll_only ..)
        | apply only_step (State.settleAllTimers_only ..) | apply only_step (State.reply_only ..)
        | apply only_step (State.onLink_only ..)
    | (intro v a hv) | (intro v hv) | extract_lets | split | (dsimp +zetaDelta only [])
theorem execLinkEnable_only (r : MReq) (p : PRef) (s : State) : Out.only s (execLinkEnable r p s) [.waiting, .resumed,
    .wmReply, .now, .free, .effects, .scopes, .targets, .ports, .dies, .links, .trouble, .wm] := by
  unfold execLinkEnable
  repeat' first
    | with_reducible first
        | apply State.serve_step | apply next_only | apply fault_only | apply out_ite | assumption | apply only_refl | decide
        | apply only_ite | apply only_step (State.startTraining_only ..) | apply only_step (State.routeClear_only ..)
        | apply only_step (State.settleAllTimers_only ..) | apply only_step (State.reply_only ..)
        | apply only_step (State.onLink_only ..)
    | (intro v a hv) | (intro v hv) | extract_lets | split | (dsimp +zetaDelta only [])
theorem execLinkDry_only (r : MReq) (p : PRef) (enable : Nat) (idleUs : Nat) (s : State) : Out.only s (execLinkDry r p enable
    idleUs s) [.waiting, .resumed, .wmReply, .now, .free, .effects, .scopes, .targets, .ports, .dies, .links, .trouble, .wm]
    := by
  unfold execLinkDry
  repeat' first
    | with_reducible first
        | apply State.serve_step | apply next_only | apply fault_only | apply out_ite | assumption | apply only_refl | decide
        | apply only_ite | apply only_step (State.wakePort_only ..) | apply only_step (State.reply_only ..)
        | apply only_step (State.onPort_only ..)
    | (intro v a hv) | (intro v hv) | extract_lets | split | (dsimp +zetaDelta only [])
theorem execLinkPond_only (r : MReq) (p : PRef) (pond : Nat) (holds : List Nat) (s : State) : Out.only s (execLinkPond r p
    pond holds s) [.waiting, .resumed, .wmReply, .now, .free, .effects, .scopes, .targets, .ports, .dies, .links, .trouble,
    .wm] := by
  unfold execLinkPond
  repeat' first
    | with_reducible first
        | apply State.serve_step | apply next_only | apply fault_only | apply out_ite | assumption | apply only_refl | decide
        | apply only_ite | apply only_step (State.reply_only ..) | apply only_step (State.setPort_only ..)
    | (intro v a hv) | (intro v hv) | extract_lets | split | (dsimp +zetaDelta only [])
theorem execLinkThresh_only (r : MReq) (p : PRef) (figs : List Nat) (s : State) : Out.only s (execLinkThresh r p figs s)
    [.waiting, .resumed, .wmReply, .now, .free, .effects, .scopes, .targets, .ports, .dies, .links, .trouble, .wm] := by
  unfold execLinkThresh
  repeat' first
    | with_reducible first
        | apply State.serve_step | apply next_only | apply fault_only | apply out_ite | assumption | apply only_refl | decide
        | apply only_ite | apply only_step (State.reply_only ..) | apply only_step (State.onPort_only ..)
    | (intro v a hv) | (intro v hv) | extract_lets | split | (dsimp +zetaDelta only [])
theorem execLinkCntClear_only (r : MReq) (p : PRef) (mask : Half) (s : State) : Out.only s (execLinkCntClear r p mask s)
    [.waiting, .resumed, .wmReply, .now, .free, .effects, .scopes, .targets, .ports, .dies, .links, .trouble, .wm] := by
  unfold execLinkCntClear
  repeat' first
    | with_reducible first
        | apply State.serve_step | apply next_only | apply fault_only | apply out_ite | assumption | apply only_refl | decide
        | apply only_ite | apply only_step (State.reply_only ..) | apply only_step (State.onPort_only ..)
    | (intro v a hv) | (intro v hv) | extract_lets | split | (dsimp +zetaDelta only [])
theorem execSfTimer_only (r : MReq) (ms_ : Nat) (s : State) : Out.only s (execSfTimer r ms_ s) [.waiting, .resumed, .wmReply,
    .now, .free, .effects, .scopes, .targets, .ports, .dies, .trouble, .wm, .sfTimerMs] := by
  unfold execSfTimer
  repeat' first
    | with_reducible first
        | apply State.serve_step | apply next_only | apply fault_only | apply out_ite | assumption | apply only_refl | decide
        | apply only_ite | apply only_step (State.settleAllTimers_only ..) | apply only_step (State.reply_only ..)
        | apply only_step (State.setSfTimer_only ..)
    | (intro v a hv) | (intro v hv) | extract_lets | split | (dsimp +zetaDelta only [])
theorem State.estimate_only (s : State) (d : DieId) (x : Telemetry) : s.onlyChanges (State.estimate s d x) [.dies] := by
  unfold State.estimate
  repeat' first
    | with_reducible first
        | assumption | apply only_refl | decide | apply only_ite | apply only_step (State.onDie_only ..)
    | (intro v a hv) | (intro v hv) | extract_lets | split | (dsimp +zetaDelta only [])
theorem State.startEstimator_only (s : State) (d : DieId) : s.onlyChanges (State.startEstimator s d) [.dies] := by
  unfold State.startEstimator
  repeat' first
    | with_reducible first
        | assumption | apply only_refl | decide | apply only_ite | apply only_step (State.onDie_only ..)
    | (intro v a hv) | (intro v hv) | extract_lets | split | (dsimp +zetaDelta only [])
theorem State.flagsChanged_only (s : State) (n : Fin 4) (old : State) : s.onlyChanges (State.flagsChanged s n old) [.effects,
    .ports, .dies, .trouble] := by
  unfold State.flagsChanged
  repeat' first
    | with_reducible first
        | assumption | apply only_refl | decide | apply only_ite | apply only_step (State.notify_only ..)
    | (intro v a hv) | (intro v hv) | extract_lets | split | (dsimp +zetaDelta only [])
theorem State.judgeField_only (s : State) (n : Fin 4) (arrival : Bool) (f : Fin 8) : s.onlyChanges (State.judgeField s n
    arrival f) [.fields] := by
  unfold State.judgeField
  repeat' first
    | with_reducible first
        | assumption | apply only_refl | decide | apply only_ite | apply only_step (State.onField_only ..)
    | (intro v a hv) | (intro v hv) | extract_lets | split | (dsimp +zetaDelta only [])
theorem State.judge_only (s : State) (n : Fin 4) (arrival : Bool) : s.onlyChanges (State.judge s n arrival) [.effects, .ports,
    .fields, .dies, .trouble] := by
  unfold State.judge
  repeat' first
    | with_reducible first
        | assumption | apply only_refl | decide | apply only_ite | apply only_step (State.judgeField_only ..)
        | apply only_step (State.flagsChanged_only ..) | apply only_forEach
    | (intro v a hv) | (intro v hv) | extract_lets | split | (dsimp +zetaDelta only [])
theorem State.receiveCap_only (s : State) (n : Fin 4) (source tray pkg : Nat) : s.onlyChanges (State.receiveCap s n source
    tray pkg) [.effects, .ports, .fields, .dies, .trouble, .pkgs] := by
  unfold State.receiveCap
  repeat' first
    | with_reducible first
        | assumption | apply only_refl | decide | apply only_ite | apply only_step (State.judge_only ..)
        | apply only_step (State.onPkg_only ..)
    | (intro v a hv) | (intro v hv) | extract_lets | split | (dsimp +zetaDelta only [])
theorem State.otherPort_only (s : State) (p : PortId) : s.onlyChanges (State.otherPort s p) [.links] := by
  unfold State.otherPort
  repeat' first
    | with_reducible first
        | assumption | apply only_refl | decide | apply only_ite | apply only_step (State.onLink_only ..)
    | (intro v a hv) | (intro v hv) | extract_lets | split | (dsimp +zetaDelta only [])
theorem State.respan_only (s : State) (sp : Span) : s.onlyChanges (State.respan s sp) [.span, .fields, .dies, .links,
    .ledgerEpoch, .leader] := by
  unfold State.respan
  repeat' first
    | with_reducible first
        | assumption | apply only_refl | decide | apply only_ite | apply only_step (State.otherPort_only ..)
        | apply only_step (State.publishPort_only ..) | apply only_step (State.setLeader_only ..)
        | apply only_step (State.setLedgerEpoch_only ..) | apply only_step (State.setLinks_only ..)
        | apply only_step (State.setDies_only ..) | apply only_step (State.setFields_only ..)
        | apply only_step (State.setSpan_only ..) | apply only_step (State.onPort_only ..) | apply only_forEach
    | (intro v a hv) | (intro v hv) | extract_lets | split | (dsimp +zetaDelta only [])
theorem State.startForm_only (s : State) (sp : Span) (w : Waiting) : s.onlyChanges (State.startForm s sp w) [.effects, .span,
    .fields, .dies, .links, .ledgerEpoch, .leader] := by
  unfold State.startForm
  repeat' first
    | with_reducible first
        | assumption | apply only_refl | decide | apply only_ite | apply only_step (State.respan_only ..)
        | apply only_step (State.emit_only ..) | apply only_step (State.setLeader_only ..)
    | (intro v a hv) | (intro v hv) | extract_lets | split | (dsimp +zetaDelta only [])
theorem execSpanForm_only (r : MReq) (shape : Nat) (info : List TrayInfo) (s : State) : Out.only s (execSpanForm r shape info
    s) [.waiting, .resumed, .wmReply, .now, .free, .effects, .span, .peers, .scopes, .targets, .ports, .fields, .dies, .links,
    .ledgerEpoch, .leader, .trouble, .wm, .trayHolder] := by
  unfold execSpanForm
  repeat' first
    | with_reducible first
        | apply State.serve_step | apply next_only | apply fault_only | apply out_ite | assumption | apply only_refl | decide
        | apply only_ite | apply only_step (State.startForm_only ..) | apply only_step (State.reply_only ..)
        | apply only_step (State.setTrayHolder_only ..) | apply only_step (State.setPeers_only ..)
    | (intro v a hv) | (intro v hv) | extract_lets | split | (dsimp +zetaDelta only [])
theorem execSpanDissolve_only (r : MReq) (info : List TrayInfo) (s : State) : Out.only s (execSpanDissolve r info s)
    [.waiting, .resumed, .wmReply, .now, .free, .effects, .span, .peers, .serving, .scopes, .targets, .ports, .fields, .dies,
    .links, .ledgerEpoch, .leader, .cleaner, .trouble, .wm] := by
  unfold execSpanDissolve
  repeat' first
    | with_reducible first
        | apply State.serve_step | apply next_only | apply fault_only | apply out_ite | assumption | apply only_refl | decide
        | apply only_ite | apply only_step (State.respan_only ..) | apply only_step (State.followLeader_only ..)
        | apply only_step (State.makeRoot_only ..) | apply only_step (State.setCleaner_only ..)
        | apply only_step (State.reply_only ..) | apply only_step (State.setLeader_only ..)
        | apply only_step (State.setPeers_only ..)
    | (intro v a hv) | (intro v hv) | extract_lets | split | (dsimp +zetaDelta only [])
theorem execSpanReform_only (info : List TrayInfo) (t : Nat) (s : State) : Out.only s (execSpanReform info t s) [.now,
    .effects, .span, .peers, .fields, .dies, .links, .ledgerEpoch, .leader] := by
  unfold execSpanReform
  repeat' first
    | with_reducible first
        | apply next_only | apply fault_only | apply out_ite | assumption | apply only_refl | decide | apply only_ite
        | apply only_step (State.startForm_only ..) | apply only_step (State.clock_only ..)
        | apply only_step (State.setPeers_only ..)
    | (intro v a hv) | (intro v hv) | extract_lets | split | (dsimp +zetaDelta only [])
theorem State.serverLost_only (s : State) (n : Fin 4) : s.onlyChanges (State.serverLost s n) [.waiting, .wmReply, .serving,
    .scopes, .ports] := by
  unfold State.serverLost
  repeat' first
    | with_reducible first
        | assumption | apply only_refl | decide | apply only_ite | apply only_step (State.moveServing_only ..)
    | (intro v a hv) | (intro v hv) | extract_lets | split | (dsimp +zetaDelta only [])
theorem State.clearPorts_only (s : State) (d : DieId) (rails warm : Bool) : s.onlyChanges (State.clearPorts s d rails warm)
    [.links] := by
  unfold State.clearPorts
  repeat' first
    | with_reducible first
        | assumption | apply only_refl | decide | apply only_ite | apply only_step (State.onPort_only ..) | apply only_forEach
    | (intro v a hv) | (intro v hv) | extract_lets | split | (dsimp +zetaDelta only [])
theorem State.darken_only (s : State) (n : Fin 4) : s.onlyChanges (State.darken s n) [.waiting, .wmReply, .serving, .scopes,
    .ports, .fields, .dies, .links, .leader] := by
  unfold State.darken
  repeat' first
    | with_reducible first
        | assumption | apply only_refl | decide | apply only_ite | apply only_step (State.clearPorts_only ..)
        | apply only_step (State.serverLost_only ..) | apply only_step (State.rootLost_only ..)
        | apply only_step (State.setHost_only ..) | apply only_step (State.onDie_only ..) | apply only_forEach
    | (intro v a hv) | (intro v hv) | extract_lets | split | (dsimp +zetaDelta only [])
theorem State.assertResets_only (s : State) (n : Fin 4) : s.onlyChanges (State.assertResets s n) [.waiting, .wmReply,
    .serving, .scopes, .ports, .fields, .dies, .links, .leader] := by
  unfold State.assertResets
  repeat' first
    | with_reducible first
        | assumption | apply only_refl | decide | apply only_ite | apply only_step (State.clearPorts_only ..)
        | apply only_step (State.serverLost_only ..) | apply only_step (State.rootLost_only ..)
        | apply only_step (State.setHost_only ..) | apply only_step (State.onDie_only ..) | apply only_forEach
    | (intro v a hv) | (intro v hv) | extract_lets | split | (dsimp +zetaDelta only [])
theorem State.reopenAccounts_only (s : State) (d : DieId) : s.onlyChanges (State.reopenAccounts s d) [.fields, .dies] := by
  unfold State.reopenAccounts
  repeat' first
    | with_reducible first
        | assumption | apply only_refl | decide | apply only_ite | apply only_step (State.loseReqs_only ..)
        | apply only_step (State.onDie_only ..) | apply only_forEach
    | (intro v a hv) | (intro v hv) | extract_lets | split | (dsimp +zetaDelta only [])
theorem State.pinsReset_only (s : State) (d : DieId) : s.onlyChanges (State.pinsReset s d) [.fields, .dies, .links] := by
  unfold State.pinsReset
  repeat' first
    | with_reducible first
        | assumption | apply only_refl | decide | apply only_ite | apply only_step (State.markPinLost_only ..)
        | apply only_step (State.losePin_only ..) | apply only_forEach
    | (intro v a hv) | (intro v hv) | extract_lets | split | (dsimp +zetaDelta only [])
theorem State.warmReset_only (s : State) (d : DieId) : s.onlyChanges (State.warmReset s d) [.waiting, .wmReply, .serving,
    .scopes, .ports, .fields, .dies, .links, .leader] := by
  unfold State.warmReset
  repeat' first
    | with_reducible first
        | assumption | apply only_refl | decide | apply only_ite | apply only_step (State.pinsReset_only ..)
        | apply only_step (State.reopenAccounts_only ..) | apply only_step (State.clearPorts_only ..)
        | apply only_step (State.serverLost_only ..) | apply only_step (State.rootLost_only ..)
        | apply only_step (State.report_only ..) | apply only_step (State.setHost_only ..)
        | apply only_step (State.onField_only ..) | apply only_step (State.onDie_only ..)
    | (intro v a hv) | (intro v hv) | extract_lets | split | (dsimp +zetaDelta only [])
theorem State.unpower_only (s : State) (n : Fin 4) : s.onlyChanges (State.unpower s n) [.waiting, .wmReply, .serving, .scopes,
    .ports, .fields, .dies, .links, .leader, .pkgs] := by
  unfold State.unpower
  repeat' first
    | with_reducible first
        | assumption | apply only_refl | decide | apply only_ite | apply only_step (State.darken_only ..)
        | apply only_step (State.onPkg_only ..)
    | (intro v a hv) | (intro v hv) | extract_lets | split | (dsimp +zetaDelta only [])
theorem State.collapse_only (s : State) (n : Fin 4) (bits : BitVec 6) : s.onlyChanges (State.collapse s n bits) [.waiting,
    .wmReply, .serving, .scopes, .ports, .fields, .dies, .links, .leader, .pkgs] := by
  unfold State.collapse
  repeat' first
    | with_reducible first
        | assumption | apply only_refl | decide | apply only_ite | apply only_step (State.unpower_only ..)
        | apply only_step (State.onPkg_only ..)
    | (intro v a hv) | (intro v hv) | extract_lets | split | (dsimp +zetaDelta only [])
theorem State.enableGate_only (s : State) (n : Fin 4) (at_ : Nat) : s.onlyChanges (State.enableGate s n at_) [.pkgs] := by
  unfold State.enableGate
  repeat' first
    | with_reducible first
        | assumption | apply only_refl | decide | apply only_ite | apply only_step (State.onPkg_only ..)
    | (intro v a hv) | (intro v hv) | extract_lets | split | (dsimp +zetaDelta only [])
theorem State.powerClock_only (s : State) (t : Nat) : s.onlyChanges (State.powerClock s t) [.now, .dies, .pkgs] := by
  unfold State.powerClock
  repeat' first
    | with_reducible first
        | assumption | apply only_refl | decide | apply only_ite | apply only_step (State.enableGate_only ..)
        | apply only_step (State.clock_only ..) | apply only_forEach
    | (intro v a hv) | (intro v hv) | extract_lets | split | (dsimp +zetaDelta only [])
theorem State.planGate_only (s : State) (n : Fin 4) (at_ : Nat) : s.onlyChanges (State.planGate s n at_) [.pkgs] := by
  unfold State.planGate
  repeat' first
    | with_reducible first
        | assumption | apply only_refl | decide | apply only_ite | apply only_step (State.enableGate_only ..)
        | apply only_step (State.onPkg_only ..)
    | (intro v a hv) | (intro v hv) | extract_lets | split | (dsimp +zetaDelta only [])
theorem State.powerUpAll_only (s : State) (l : List (Fin 4)) : s.onlyChanges (State.powerUpAll s l) [.pkgs] := by
  unfold State.powerUpAll
  repeat' first
    | with_reducible first
        | assumption | apply only_refl | decide | apply only_ite | apply only_step (State.planGate_only ..)
        | apply only_step (State.onPkg_only ..) | apply only_forEach | apply only_foldl
    | (intro v a hv) | (intro v hv) | extract_lets | split | (dsimp +zetaDelta only [])
theorem State.settleDown_only (s : State) (n : Fin 4) (after : PkgSt) : s.onlyChanges (State.settleDown s n after) [.pkgs] := by
  unfold State.settleDown
  repeat' first
    | with_reducible first
        | assumption | apply only_refl | decide | apply only_ite | apply only_step (State.onPkg_only ..)
    | (intro v a hv) | (intro v hv) | extract_lets | split | (dsimp +zetaDelta only [])
theorem State.notices_only (s : State) (n : Fin 4) : s.onlyChanges (State.notices s n) [.fields] := by
  unfold State.notices
  repeat' first
    | with_reducible first
        | assumption | apply only_refl | decide | apply only_ite | apply only_step (State.containPkg_only ..)
    | (intro v a hv) | (intro v hv) | extract_lets | split | (dsimp +zetaDelta only [])
theorem State.powerDown_only (s : State) (n : Fin 4) (after : PkgSt) : s.onlyChanges (State.powerDown s n after) [.waiting,
    .wmReply, .serving, .scopes, .ports, .fields, .dies, .links, .leader, .pkgs] := by
  unfold State.powerDown
  repeat' first
    | with_reducible first
        | assumption | apply only_refl | decide | apply only_ite | apply only_step (State.notices_only ..)
        | apply only_step (State.settleDown_only ..) | apply only_step (State.unpower_only ..)
        | apply only_step (State.serverLost_only ..) | apply only_step (State.rootLost_only ..)
        | apply only_step (State.onPkg_only ..)
    | (intro v a hv) | (intro v hv) | extract_lets | split | (dsimp +zetaDelta only [])
theorem State.rekeyed_only (s : State) : s.onlyChanges (State.rekeyed s) [.dies, .links] := by
  unfold State.rekeyed
  repeat' first
    | with_reducible first
        | assumption | apply only_refl | decide | apply only_ite | apply only_step (State.setLinks_only ..)
        | apply only_step (State.setDies_only ..)
    | (intro v a hv) | (intro v hv) | extract_lets | split | (dsimp +zetaDelta only [])
theorem State.blanked_only (s : State) : s.onlyChanges (State.blanked s) [.waiting, .wmReply, .tray, .span, .peers, .serving,
    .scopes, .targets, .ports, .fields, .links, .ledgerEpoch, .leader, .cleaner, .trouble, .wm, .capTray, .capPkg, .sfTimerMs,
    .trayHolder] := by
  unfold State.blanked; exact ⟨by intro p hp; cases p <;> first | rfl | exact absurd (by decide) hp⟩
theorem State.clearTray_only (s : State) : s.onlyChanges (State.clearTray s) [.waiting, .wmReply, .tray, .span, .peers,
    .serving, .scopes, .targets, .ports, .fields, .dies, .links, .ledgerEpoch, .leader, .cleaner, .trouble, .wm, .capTray,
    .capPkg, .sfTimerMs, .trayHolder] := by
  unfold State.clearTray
  repeat' first
    | with_reducible first
        | assumption | apply only_refl | decide | apply only_ite | apply only_step (State.blanked_only ..)
        | apply only_step (State.rekeyed_only ..)
    | (intro v a hv) | (intro v hv) | extract_lets | split | (dsimp +zetaDelta only [])
theorem State.startTray_only (s : State) (l : List (Fin 4)) : s.onlyChanges (State.startTray s l) [.waiting, .wmReply,
    .bundle, .tray, .span, .peers, .serving, .scopes, .targets, .ports, .fields, .dies, .links, .ledgerEpoch, .leader,
    .cleaner, .trouble, .pkgs, .wm, .capTray, .capPkg, .sfTimerMs, .trayHolder] := by
  unfold State.startTray
  repeat' first
    | with_reducible first
        | assumption | apply only_refl | decide | apply only_ite | apply only_step (State.clearTray_only ..)
        | apply only_step (State.powerUpAll_only ..) | apply only_step (State.setWm_only ..)
        | apply only_step (State.setBundle_only ..)
    | (intro v a hv) | (intro v hv) | extract_lets | split | (dsimp +zetaDelta only [])
theorem State.wmRestart_only (s : State) (c : RestartCause) : s.onlyChanges (State.wmRestart s c) [.effects, .ports, .dies,
    .trouble, .wm] := by
  unfold State.wmRestart
  repeat' first
    | with_reducible first
        | assumption | apply only_refl | decide | apply only_ite | apply only_step (State.notify_only ..)
        | apply only_step (State.onWm_only ..)
    | (intro v a hv) | (intro v hv) | extract_lets | split | (dsimp +zetaDelta only [])
theorem State.restartOwed_only (s : State) : s.onlyChanges (State.restartOwed s) [.effects, .ports, .dies, .trouble, .wm] := by
  unfold State.restartOwed
  repeat' first
    | with_reducible first
        | assumption | apply only_refl | decide | apply only_ite | apply only_step (State.wmRestart_only ..)
        | apply only_step (State.onWm_only ..)
    | (intro v a hv) | (intro v hv) | extract_lets | split | (dsimp +zetaDelta only [])
theorem State.trayUp_only (s : State) (l : List (Fin 4)) : s.onlyChanges (State.trayUp s l) [.waiting, .wmReply, .effects,
    .bundle, .tray, .span, .peers, .serving, .scopes, .targets, .ports, .fields, .dies, .links, .ledgerEpoch, .leader,
    .cleaner, .trouble, .pkgs, .wm, .capTray, .capPkg, .sfTimerMs, .trayHolder] := by
  unfold State.trayUp
  repeat' first
    | with_reducible first
        | assumption | apply only_refl | decide | apply only_ite | apply only_step (State.restartOwed_only ..)
        | apply only_step (State.startTray_only ..) | apply only_step (State.onWm_only ..)
    | (intro v a hv) | (intro v hv) | extract_lets | split | (dsimp +zetaDelta only [])
theorem State.powerUpMany_only (s : State) (l : List (Fin 4)) : s.onlyChanges (State.powerUpMany s l) [.waiting, .wmReply,
    .effects, .bundle, .tray, .span, .peers, .serving, .scopes, .targets, .ports, .fields, .dies, .links, .ledgerEpoch,
    .leader, .cleaner, .trouble, .pkgs, .wm, .capTray, .capPkg, .sfTimerMs, .trayHolder] := by
  unfold State.powerUpMany
  repeat' first
    | with_reducible first
        | assumption | apply only_refl | decide | apply only_ite | apply only_step (State.trayUp_only ..)
        | apply only_step (State.powerUpAll_only ..)
    | (intro v a hv) | (intro v hv) | extract_lets | split | (dsimp +zetaDelta only [])
theorem State.pkgFault_only (s : State) (code : Nat) (n : Fin 4) (info : Nat) : s.onlyChanges (State.pkgFault s code n info)
    [.effects, .tray, .ports, .fields, .dies, .trouble] := by
  unfold State.pkgFault
  repeat' first
    | with_reducible first
        | assumption | apply only_refl | decide | apply only_ite | apply only_step (State.sinkTake_only ..)
        | apply only_forEach
    | (intro v a hv) | (intro v hv) | extract_lets | split | (dsimp +zetaDelta only [])
theorem State.latchFault_only (s : State) (n : Fin 4) (bits : BitVec 6) (code info : Nat) : s.onlyChanges (State.latchFault s
    n bits code info) [.waiting, .wmReply, .effects, .tray, .serving, .scopes, .ports, .fields, .dies, .links, .leader,
    .trouble, .pkgs] := by
  unfold State.latchFault
  repeat' first
    | with_reducible first
        | assumption | apply only_refl | decide | apply only_ite | apply only_step (State.pkgFault_only ..)
        | apply only_step (State.powerDown_only ..) | apply only_step (State.notices_only ..)
        | apply only_step (State.onPkg_only ..)
    | (intro v a hv) | (intro v hv) | extract_lets | split | (dsimp +zetaDelta only [])
theorem State.downAll_only (s : State) (after : PkgSt) : s.onlyChanges (State.downAll s after) [.waiting, .wmReply, .serving,
    .scopes, .ports, .fields, .dies, .links, .leader, .pkgs] := by
  unfold State.downAll
  repeat' first
    | with_reducible first
        | assumption | apply only_refl | decide | apply only_ite | apply only_step (State.powerDown_only ..)
        | apply only_forEach
    | (intro v a hv) | (intro v hv) | extract_lets | split | (dsimp +zetaDelta only [])
theorem State.failBringup_only (s : State) : s.onlyChanges (State.failBringup s) [.waiting, .wmReply, .effects, .serving,
    .scopes, .ports, .fields, .dies, .links, .leader, .trouble, .pkgs, .wm] := by
  unfold State.failBringup
  repeat' first
    | with_reducible first
        | assumption | apply only_refl | decide | apply only_ite | apply only_step (State.downAll_only ..)
        | apply only_step (State.restartOwed_only ..) | apply only_step (State.onWm_only ..)
    | (intro v a hv) | (intro v hv) | extract_lets | split | (dsimp +zetaDelta only [])
theorem execInputLockout_only (t : Nat) (s : State) : Out.only s (execInputLockout t s) [.waiting, .wmReply, .now, .serving,
    .scopes, .ports, .fields, .dies, .links, .leader, .pkgs, .input] := by
  unfold execInputLockout
  repeat' first
    | with_reducible first
        | apply next_only | apply fault_only | apply out_ite | assumption | apply only_refl | decide | apply only_ite
        | apply only_step (State.powerClock_only ..) | apply only_step (State.collapse_only ..)
        | apply only_step (State.setInput_only ..) | apply only_step (State.onPkg_only ..) | apply only_forEach
    | (intro v a hv) | (intro v hv) | extract_lets | split | (dsimp +zetaDelta only [])
theorem execBreakerTrip_only (pkg : Fin 4) (t : Nat) (s : State) : Out.only s (execBreakerTrip pkg t s) [.waiting, .wmReply,
    .now, .serving, .scopes, .ports, .fields, .dies, .links, .leader, .pkgs] := by
  unfold execBreakerTrip
  repeat' first
    | with_reducible first
        | apply next_only | apply fault_only | apply out_ite | assumption | apply only_refl | decide | apply only_ite
        | apply only_step (State.powerClock_only ..) | apply only_step (State.collapse_only ..)
    | (intro v a hv) | (intro v hv) | extract_lets | split | (dsimp +zetaDelta only [])
theorem execRampTimeout_only (pkg : Fin 4) (t : Nat) (s : State) : Out.only s (execRampTimeout pkg t s) [.waiting, .wmReply,
    .now, .serving, .scopes, .ports, .fields, .dies, .links, .leader, .pkgs] := by
  unfold execRampTimeout
  repeat' first
    | with_reducible first
        | apply next_only | apply fault_only | apply out_ite | assumption | apply only_refl | decide | apply only_ite
        | apply only_step (State.powerClock_only ..) | apply only_step (State.collapse_only ..)
    | (intro v a hv) | (intro v hv) | extract_lets | split | (dsimp +zetaDelta only [])
theorem execHsOvertemp_only (pkg : Fin 4) (t : Nat) (s : State) : Out.only s (execHsOvertemp pkg t s) [.waiting, .wmReply,
    .now, .serving, .scopes, .ports, .fields, .dies, .links, .leader, .pkgs] := by
  unfold execHsOvertemp
  repeat' first
    | with_reducible first
        | apply next_only | apply fault_only | apply out_ite | assumption | apply only_refl | decide | apply only_ite
        | apply only_step (State.powerClock_only ..) | apply only_step (State.collapse_only ..)
    | (intro v a hv) | (intro v hv) | extract_lets | split | (dsimp +zetaDelta only [])
theorem execAuxiliarySupplyLoss_only (t : Nat) (s : State) : Out.only s (execAuxiliarySupplyLoss t s) [.waiting, .wmReply,
    .now, .serving, .scopes, .ports, .fields, .dies, .links, .leader, .pkgs, .wm, .input] := by
  unfold execAuxiliarySupplyLoss
  repeat' first
    | with_reducible first
        | apply next_only | apply fault_only | apply out_ite | assumption | apply only_refl | decide | apply only_ite
        | apply only_step (State.unpower_only ..) | apply only_step (State.clock_only ..)
        | apply only_step (State.setInput_only ..) | apply only_step (State.setWm_only ..)
        | apply only_step (State.onPkg_only ..) | apply only_forEach
    | (intro v a hv) | (intro v hv) | extract_lets | split | (dsimp +zetaDelta only [])
theorem execVhsRampDone_only (pkg : Fin 4) (t : Nat) (s : State) : Out.only s (execVhsRampDone pkg t s) [.waiting, .wmReply,
    .now, .serving, .scopes, .ports, .fields, .dies, .links, .leader, .pkgs] := by
  unfold execVhsRampDone
  repeat' first
    | with_reducible first
        | apply next_only | apply fault_only | apply out_ite | assumption | apply only_refl | decide | apply only_ite
        | apply only_step (State.powerClock_only ..) | apply only_step (State.collapse_only ..)
        | apply only_step (State.onPkg_only ..)
    | (intro v a hv) | (intro v hv) | extract_lets | split | (dsimp +zetaDelta only [])
theorem State.releaseDie_only (s : State) (d : DieId) : s.onlyChanges (State.releaseDie s d) [.dies, .links] := by
  unfold State.releaseDie
  repeat' first
    | with_reducible first
        | assumption | apply only_refl | decide | apply only_ite | apply only_step (State.startEstimator_only ..)
        | apply only_step (State.startTraining_only ..) | apply only_step (State.onLink_only ..)
        | apply only_step (State.onDie_only ..)
    | (intro v a hv) | (intro v hv) | extract_lets | split | (dsimp +zetaDelta only [])
theorem State.driveStraps_only (s : State) (n : Fin 4) : s.onlyChanges (State.driveStraps s n) [.pkgs] := by
  unfold State.driveStraps
  repeat' first
    | with_reducible first
        | assumption | apply only_refl | decide | apply only_ite | apply only_step (State.onPkg_only ..)
    | (intro v a hv) | (intro v hv) | extract_lets | split | (dsimp +zetaDelta only [])
theorem State.pkgOn_only (s : State) (n : Fin 4) : s.onlyChanges (State.pkgOn s n) [.pkgs] := by
  unfold State.pkgOn
  repeat' first
    | with_reducible first
        | assumption | apply only_refl | decide | apply only_ite | apply only_step (State.onPkg_only ..)
    | (intro v a hv) | (intro v hv) | extract_lets | split | (dsimp +zetaDelta only [])
theorem execPowerupSequenceStep_only (pkg : Fin 4) (t : Nat) (s : State) : Out.only s (execPowerupSequenceStep pkg t s) [.now,
    .dies, .links, .pkgs] := by
  unfold execPowerupSequenceStep
  repeat' first
    | with_reducible first
        | apply next_only | apply fault_only | apply out_ite | assumption | apply only_refl | decide | apply only_ite
        | apply only_step (State.pkgOn_only ..) | apply only_step (State.driveStraps_only ..)
        | apply only_step (State.releaseDie_only ..) | apply only_step (State.powerClock_only ..)
        | apply only_step (State.onPkg_only ..) | apply only_step (State.onDie_only ..) | apply only_forEach
        | apply only_foldl
    | (intro v a hv) | (intro v hv) | extract_lets | split | (dsimp +zetaDelta only [])
theorem execRailInWindow_only (pkg : Fin 4) (rail : Fin 11) (t : Nat) (s : State) : Out.only s (execRailInWindow pkg rail t s)
    [.now, .dies, .pkgs] := by
  unfold execRailInWindow
  repeat' first
    | with_reducible first
        | apply next_only | apply fault_only | apply out_ite | assumption | apply only_refl | decide | apply only_ite
        | apply only_step (State.powerClock_only ..) | apply only_step (State.onPkg_only ..)
    | (intro v a hv) | (intro v hv) | extract_lets | split | (dsimp +zetaDelta only [])
theorem execRailWindowTimeout_only (pkg : Fin 4) (rail : Fin 11) (t : Nat) (s : State) : Out.only s (execRailWindowTimeout pkg
    rail t s) [.waiting, .wmReply, .now, .effects, .tray, .serving, .scopes, .ports, .fields, .dies, .links, .leader,
    .trouble, .pkgs] := by
  unfold execRailWindowTimeout
  repeat' first
    | with_reducible first
        | apply next_only | apply fault_only | apply out_ite | assumption | apply only_refl | decide | apply only_ite
        | apply only_step (State.latchFault_only ..) | apply only_step (State.powerClock_only ..)
    | (intro v a hv) | (intro v hv) | extract_lets | split | (dsimp +zetaDelta only [])
theorem State.badIdentities_only (s : State) (n : Fin 4) : s.onlyChanges (State.badIdentities s n) [.effects, .tray, .ports,
    .fields, .dies, .trouble] := by
  unfold State.badIdentities
  repeat' first
    | with_reducible first
        | assumption | apply only_refl | decide | apply only_ite | apply only_step (State.wmReport_only ..)
        | apply only_forEach
    | (intro v a hv) | (intro v hv) | extract_lets | split | (dsimp +zetaDelta only [])
theorem State.leaveUnplaced_only (s : State) (n : Fin 4) (e : Option Err) : s.onlyChanges (State.leaveUnplaced s n e)
    [.effects, .tray, .ports, .fields, .dies, .trouble, .pkgs] := by
  unfold State.leaveUnplaced
  repeat' first
    | with_reducible first
        | assumption | apply only_refl | decide | apply only_ite | apply only_step (State.wmReport_only ..)
        | apply only_step (State.onPkg_only ..)
    | (intro v a hv) | (intro v hv) | extract_lets | split | (dsimp +zetaDelta only [])
theorem State.checkPlacement_only (s : State) (n : Fin 4) : s.onlyChanges (State.checkPlacement s n) [.effects, .tray, .ports,
    .fields, .dies, .trouble, .pkgs] := by
  unfold State.checkPlacement
  repeat' first
    | with_reducible first
        | assumption | apply only_refl | decide | apply only_ite | apply only_step (State.leaveUnplaced_only ..)
        | apply only_step (State.badIdentities_only ..) | apply only_step (State.onPkg_only ..)
        | apply only_step (State.onDie_only ..) | apply only_forEach
    | (intro v a hv) | (intro v hv) | extract_lets | split | (dsimp +zetaDelta only [])
theorem State.enumerate_only (s : State) (n : Fin 4) : s.onlyChanges (State.enumerate s n) [.effects, .tray, .ports, .fields,
    .dies, .trouble, .pkgs] := by
  unfold State.enumerate
  repeat' first
    | with_reducible first
        | assumption | apply only_refl | decide | apply only_ite | apply only_step (State.checkPlacement_only ..)
        | apply only_step (State.onPkg_only ..) | apply only_step (State.onDie_only ..) | apply only_foldl
    | (intro v a hv) | (intro v hv) | extract_lets | split | (dsimp +zetaDelta only [])
theorem execVmgtInWindow_only (pkg : Fin 4) (t : Nat) (s : State) : Out.only s (execVmgtInWindow pkg t s) [.now, .effects,
    .tray, .ports, .fields, .dies, .trouble, .pkgs] := by
  unfold execVmgtInWindow
  repeat' first
    | with_reducible first
        | apply next_only | apply fault_only | apply out_ite | assumption | apply only_refl | decide | apply only_ite
        | apply only_step (State.enumerate_only ..) | apply only_step (State.powerClock_only ..)
        | apply only_step (State.onPkg_only ..) | apply only_step (State.onDie_only ..) | apply only_forEach
    | (intro v a hv) | (intro v hv) | extract_lets | split | (dsimp +zetaDelta only [])
theorem execAssignNoAnswer_only (pkg : Fin 4) (slot : Fin 5) (t : Nat) (s : State) : Out.only s (execAssignNoAnswer pkg slot t
    s) [.now, .effects, .tray, .ports, .fields, .dies, .trouble, .pkgs] := by
  unfold execAssignNoAnswer
  repeat' first
    | with_reducible first
        | apply next_only | apply fault_only | apply out_ite | assumption | apply only_refl | decide | apply only_ite
        | apply only_step (State.leaveUnplaced_only ..) | apply only_step (State.badIdentities_only ..)
        | apply only_step (State.powerClock_only ..) | apply only_step (State.onPkg_only ..)
    | (intro v a hv) | (intro v hv) | extract_lets | split | (dsimp +zetaDelta only [])
theorem execPowerdownSequenceStep_only (pkg : Fin 4) (slow : Bool) (t : Nat) (s : State) : Out.only s
    (execPowerdownSequenceStep pkg slow t s) [.waiting, .wmReply, .now, .effects, .tray, .serving, .scopes, .ports, .fields,
    .dies, .links, .leader, .trouble, .pkgs] := by
  unfold execPowerdownSequenceStep
  repeat' first
    | with_reducible first
        | apply next_only | apply fault_only | apply out_ite | assumption | apply only_refl | decide | apply only_ite
        | apply only_step (State.powerClock_only ..) | apply only_step (State.assertResets_only ..)
        | apply only_step (State.darken_only ..) | apply only_step (State.wmReport_only ..)
        | apply only_step (State.onPkg_only ..) | apply only_forEach
    | (intro v a hv) | (intro v hv) | extract_lets | split | (dsimp +zetaDelta only [])
theorem State.afterDown_only (s : State) (n : Fin 4) : s.onlyChanges (State.afterDown s n) [.waiting, .wmReply, .effects,
    .bundle, .tray, .span, .peers, .serving, .scopes, .targets, .ports, .fields, .dies, .links, .ledgerEpoch, .leader,
    .cleaner, .trouble, .pkgs, .wm, .capTray, .capPkg, .sfTimerMs, .trayHolder] := by
  unfold State.afterDown
  repeat' first
    | with_reducible first
        | assumption | apply only_refl | decide | apply only_ite | apply only_step (State.powerUpMany_only ..)
        | apply only_step (State.planGate_only ..) | apply only_step (State.finishTray_only ..)
        | apply only_step (State.emit_only ..) | apply only_step (State.onPkg_only ..) | apply only_foldl
    | (intro v a hv) | (intro v hv) | extract_lets | split | (dsimp +zetaDelta only [])
theorem execVhsDischarged_only (pkg : Fin 4) (t : Nat) (s : State) : Out.only s (execVhsDischarged pkg t s) [.waiting,
    .wmReply, .now, .effects, .bundle, .tray, .span, .peers, .serving, .scopes, .targets, .ports, .fields, .dies, .links,
    .ledgerEpoch, .leader, .cleaner, .trouble, .pkgs, .wm, .capTray, .capPkg, .sfTimerMs, .trayHolder] := by
  unfold execVhsDischarged
  repeat' first
    | with_reducible first
        | apply next_only | apply fault_only | apply out_ite | assumption | apply only_refl | decide | apply only_ite
        | apply only_step (State.afterDown_only ..) | apply only_step (State.restartOwed_only ..)
        | apply only_step (State.settleDown_only ..) | apply only_step (State.powerClock_only ..)
        | apply only_step (State.unpower_only ..)
    | (intro v a hv) | (intro v hv) | extract_lets | split | (dsimp +zetaDelta only [])
theorem State.sinkOnce_only (s : State) (r : Rec) : s.onlyChanges (State.sinkOnce s r) [.effects, .tray, .ports, .fields,
    .dies, .trouble] := by
  unfold State.sinkOnce
  repeat' first
    | with_reducible first
        | assumption | apply only_refl | decide | apply only_ite | apply only_step (State.noteActed_only ..)
        | apply only_step (State.sinkTake_only ..)
    | (intro v a hv) | (intro v hv) | extract_lets | split | (dsimp +zetaDelta only [])
theorem execPkgDown_only (d : DieId) (t : Nat) (s : State) : Out.only s (execPkgDown d t s) [.now, .effects, .tray, .ports,
    .fields, .dies, .trouble, .pkgs] := by
  unfold execPkgDown
  repeat' first
    | with_reducible first
        | apply next_only | apply fault_only | apply out_ite | assumption | apply only_refl | decide | apply only_ite
        | apply only_step (State.sinkOnce_only ..) | apply only_step (State.notices_only ..)
        | apply only_step (State.powerClock_only ..)
    | (intro v a hv) | (intro v hv) | extract_lets | split | (dsimp +zetaDelta only [])
theorem State.inputFails_only (s : State) : s.onlyChanges (State.inputFails s) [.waiting, .wmReply, .effects, .tray, .serving,
    .scopes, .ports, .fields, .dies, .links, .leader, .trouble, .pkgs, .wm, .input] := by
  unfold State.inputFails
  repeat' first
    | with_reducible first
        | assumption | apply only_refl | decide | apply only_ite | apply only_step (State.powerDown_only ..)
        | apply only_step (State.wmReport_only ..) | apply only_step (State.setInput_only ..)
        | apply only_step (State.setWm_only ..) | apply only_step (State.onPkg_only ..) | apply only_forEach
    | (intro v a hv) | (intro v hv) | extract_lets | split | (dsimp +zetaDelta only [])
theorem execInputFault_only (t : Nat) (s : State) : Out.only s (execInputFault t s) [.waiting, .wmReply, .now, .effects,
    .tray, .serving, .scopes, .ports, .fields, .dies, .links, .leader, .trouble, .pkgs, .wm, .input] := by
  unfold execInputFault
  repeat' first
    | with_reducible first
        | apply next_only | apply fault_only | apply out_ite | assumption | apply only_refl | decide | apply only_ite
        | apply only_step (State.inputFails_only ..) | apply only_step (State.powerClock_only ..)
    | (intro v a hv) | (intro v hv) | extract_lets | split | (dsimp +zetaDelta only [])
theorem State.seeGates_only (s : State) : s.onlyChanges (State.seeGates s) [.effects, .tray, .ports, .fields, .dies, .trouble,
    .pkgs, .wm, .input] := by
  unfold State.seeGates
  repeat' first
    | with_reducible first
        | assumption | apply only_refl | decide | apply only_ite | apply only_step (State.pkgFault_only ..)
        | apply only_step (State.notices_only ..) | apply only_step (State.settleDown_only ..)
        | apply only_step (State.wmReport_only ..) | apply only_step (State.setInput_only ..)
        | apply only_step (State.setWm_only ..) | apply only_step (State.onPkg_only ..) | apply only_forEach
    | (intro v a hv) | (intro v hv) | extract_lets | split | (dsimp +zetaDelta only [])
theorem execInputReturn_only (t : Nat) (s : State) : Out.only s (execInputReturn t s) [.waiting, .wmReply, .now, .effects,
    .bundle, .tray, .span, .peers, .serving, .scopes, .targets, .ports, .fields, .dies, .links, .ledgerEpoch, .leader,
    .cleaner, .trouble, .pkgs, .wm, .input, .capTray, .capPkg, .sfTimerMs, .trayHolder] := by
  unfold execInputReturn
  repeat' first
    | with_reducible first
        | apply next_only | apply fault_only | apply out_ite | assumption | apply only_refl | decide | apply only_ite
        | apply only_step (State.seeGates_only ..) | apply only_step (State.powerUpMany_only ..)
        | apply only_step (State.powerClock_only ..) | apply only_step (State.setInput_only ..)
        | apply only_step (State.onPkg_only ..) | apply only_forEach
    | (intro v a hv) | (intro v hv) | extract_lets | split | (dsimp +zetaDelta only [])
theorem State.hiccupNotice_only (s : State) (n : Fin 4) (info : Nat) : s.onlyChanges (State.hiccupNotice s n info) [.effects,
    .tray, .ports, .fields, .dies, .trouble] := by
  unfold State.hiccupNotice
  repeat' first
    | with_reducible first
        | assumption | apply only_refl | decide | apply only_ite | apply only_step (State.wmReport_only ..)
        | apply only_step (State.containField_only ..) | apply only_forEach
    | (intro v a hv) | (intro v hv) | extract_lets | split | (dsimp +zetaDelta only [])
theorem execRegulatorHiccup_only (pkg : Fin 4) (rail : Fin 11) (t : Nat) (s : State) : Out.only s (execRegulatorHiccup pkg
    rail t s) [.waiting, .wmReply, .now, .effects, .tray, .serving, .scopes, .ports, .fields, .dies, .links, .leader,
    .trouble, .pkgs] := by
  unfold execRegulatorHiccup
  repeat' first
    | with_reducible first
        | apply next_only | apply fault_only | apply out_ite | assumption | apply only_refl | decide | apply only_ite
        | apply only_step (State.hiccupNotice_only ..) | apply only_step (State.latchFault_only ..)
        | apply only_step (State.powerClock_only ..) | apply only_step (State.assertResets_only ..)
        | apply only_step (State.onPkg_only ..)
    | (intro v a hv) | (intro v hv) | extract_lets | split | (dsimp +zetaDelta only [])
theorem execHiccupWindowEnd_only (pkg : Fin 4) (inWindow : Bool) (t : Nat) (s : State) : Out.only s (execHiccupWindowEnd pkg
    inWindow t s) [.now, .dies, .pkgs] := by
  unfold execHiccupWindowEnd
  repeat' first
    | with_reducible first
        | apply next_only | apply fault_only | apply out_ite | assumption | apply only_refl | decide | apply only_ite
        | apply only_step (State.powerClock_only ..) | apply only_step (State.onPkg_only ..)
    | (intro v a hv) | (intro v hv) | extract_lets | split | (dsimp +zetaDelta only [])
theorem execRegulatorLatchoff_only (pkg : Fin 4) (rail : Fin 11) (t : Nat) (s : State) : Out.only s (execRegulatorLatchoff pkg
    rail t s) [.now, .dies, .pkgs] := by
  unfold execRegulatorLatchoff
  repeat' first
    | with_reducible first
        | apply next_only | apply fault_only | apply out_ite | assumption | apply only_refl | decide | apply only_ite
        | apply only_step (State.powerClock_only ..) | apply only_step (State.onPkg_only ..)
    | (intro v a hv) | (intro v hv) | extract_lets | split | (dsimp +zetaDelta only [])
theorem execDieWarmReset_only (d : DieId) (t : Nat) (s : State) : Out.only s (execDieWarmReset d t s) [.waiting, .wmReply,
    .now, .serving, .scopes, .ports, .fields, .dies, .links, .leader, .pkgs] := by
  unfold execDieWarmReset
  repeat' first
    | with_reducible first
        | apply next_only | apply fault_only | apply out_ite | assumption | apply only_refl | decide | apply only_ite
        | apply only_step (State.powerClock_only ..) | apply only_step (State.warmReset_only ..)
    | (intro v a hv) | (intro v hv) | extract_lets | split | (dsimp +zetaDelta only [])
theorem execDieResetRelease_only (d : DieId) (t : Nat) (s : State) : Out.only s (execDieResetRelease d t s) [.now, .dies,
    .links, .pkgs] := by
  unfold execDieResetRelease
  repeat' first
    | with_reducible first
        | apply next_only | apply fault_only | apply out_ite | assumption | apply only_refl | decide | apply only_ite
        | apply only_step (State.pkgOn_only ..) | apply only_step (State.releaseDie_only ..)
        | apply only_step (State.powerClock_only ..) | apply only_step (State.onPkg_only ..)
        | apply only_step (State.onDie_only ..)
    | (intro v a hv) | (intro v hv) | extract_lets | split | (dsimp +zetaDelta only [])
theorem State.throttle_only (s : State) (d : DieId) : s.onlyChanges (State.throttle s d) [.dies] := by
  unfold State.throttle
  repeat' first
    | with_reducible first
        | assumption | apply only_refl | decide | apply only_ite | apply only_step (State.onDie_only ..)
    | (intro v a hv) | (intro v hv) | extract_lets | split | (dsimp +zetaDelta only [])
theorem State.orderlyShutdown_only (s : State) (n : Fin 4) : s.onlyChanges (State.orderlyShutdown s n) [.waiting, .wmReply,
    .serving, .scopes, .ports, .fields, .dies, .links, .leader, .pkgs] := by
  unfold State.orderlyShutdown
  repeat' first
    | with_reducible first
        | assumption | apply only_refl | decide | apply only_ite | apply only_step (State.powerDown_only ..)
        | apply only_step (State.report_only ..) | apply only_step (State.containField_only ..) | apply only_forEach
    | (intro v a hv) | (intro v hv) | extract_lets | split | (dsimp +zetaDelta only [])
theorem execTelemetryRecord_only (d : DieId) (x : Telemetry) (t : Nat) (s : State) : Out.only s (execTelemetryRecord d x t s)
    [.waiting, .wmReply, .now, .effects, .serving, .scopes, .ports, .fields, .dies, .links, .leader, .trouble, .pkgs] := by
  unfold execTelemetryRecord
  repeat' first
    | with_reducible first
        | apply next_only | apply fault_only | apply out_ite | assumption | apply only_refl | decide | apply only_ite
        | apply only_step (State.orderlyShutdown_only ..) | apply only_step (State.throttle_only ..)
        | apply only_step (State.judge_only ..) | apply only_step (State.estimate_only ..)
        | apply only_step (State.clock_only ..) | apply only_step (State.onDie_only ..)
    | (intro v a hv) | (intro v hv) | extract_lets | split | (dsimp +zetaDelta only [])
theorem execTelemetryLost_only (d : DieId) (t : Nat) (s : State) : Out.only s (execTelemetryLost d t s) [.now, .fields, .dies]
    := by
  unfold execTelemetryLost
  repeat' first
    | with_reducible first
        | apply next_only | apply fault_only | apply out_ite | assumption | apply only_refl | decide | apply only_ite
        | apply only_step (State.throttle_only ..) | apply only_step (State.report_only ..)
        | apply only_step (State.clock_only ..) | apply only_step (State.onDie_only ..)
    | (intro v a hv) | (intro v hv) | extract_lets | split | (dsimp +zetaDelta only [])
theorem execThermalLevelLeave_only (d : DieId) (t : Nat) (s : State) : Out.only s (execThermalLevelLeave d t s) [.now, .dies]
    := by
  unfold execThermalLevelLeave
  repeat' first
    | with_reducible first
        | apply next_only | apply fault_only | apply out_ite | assumption | apply only_refl | decide | apply only_ite
        | apply only_step (State.clock_only ..) | apply only_step (State.onDie_only ..)
    | (intro v a hv) | (intro v hv) | extract_lets | split | (dsimp +zetaDelta only [])
theorem execLimitRaiseDue_only (f : Fin 8) (d : DieId) (k : LimitKind) (t : Nat) (s : State) : Out.only s (execLimitRaiseDue f
    d k t s) [.now, .effects, .ports, .fields, .dies, .trouble] := by
  unfold execLimitRaiseDue
  repeat' first
    | with_reducible first
        | apply next_only | apply fault_only | apply out_ite | assumption | apply only_refl | decide | apply only_ite
        | apply only_step (State.flagsChanged_only ..) | apply only_step (State.clock_only ..)
        | apply only_step (State.onField_only ..) | apply only_step (State.onDie_only ..)
    | (intro v a hv) | (intro v hv) | extract_lets | split | (dsimp +zetaDelta only [])
theorem execThermalTrip_only (d : DieId) (t : Nat) (s : State) : Out.only s (execThermalTrip d t s) [.waiting, .wmReply, .now,
    .serving, .scopes, .ports, .fields, .dies, .links, .leader, .pkgs] := by
  unfold execThermalTrip
  repeat' first
    | with_reducible first
        | apply next_only | apply fault_only | apply out_ite | assumption | apply only_refl | decide | apply only_ite
        | apply only_step (State.powerClock_only ..) | apply only_step (State.collapse_only ..)
    | (intro v a hv) | (intro v hv) | extract_lets | split | (dsimp +zetaDelta only [])
theorem execCapReceive_only (pkg : Fin 4) (source : Fin 3) (trayCap pkgCap : Nat) (t : Nat) (s : State) : Out.only s
    (execCapReceive pkg source trayCap pkgCap t s) [.now, .effects, .ports, .fields, .dies, .trouble, .pkgs] := by
  unfold execCapReceive
  repeat' first
    | with_reducible first
        | apply next_only | apply fault_only | apply out_ite | assumption | apply only_refl | decide | apply only_ite
        | apply only_step (State.receiveCap_only ..) | apply only_step (State.clock_only ..)
    | (intro v a hv) | (intro v hv) | extract_lets | split | (dsimp +zetaDelta only [])
theorem execRegulatorSettled_only (d : DieId) (t : Nat) (s : State) : Out.only s (execRegulatorSettled d t s) [.now, .dies] :=
    by
  unfold execRegulatorSettled
  repeat' first
    | with_reducible first
        | apply next_only | apply fault_only | apply out_ite | assumption | apply only_refl | decide | apply only_ite
        | apply only_step (State.clock_only ..) | apply only_step (State.onDie_only ..)
    | (intro v a hv) | (intro v hv) | extract_lets | split | (dsimp +zetaDelta only [])
theorem execCalWindowMeasure_only (d : DieId) (railMa : Nat) (t : Nat) (s : State) : Out.only s (execCalWindowMeasure d railMa
    t s) [.now, .effects, .ports, .fields, .dies, .trouble] := by
  unfold execCalWindowMeasure
  repeat' first
    | with_reducible first
        | apply next_only | apply fault_only | apply out_ite | assumption | apply only_refl | decide | apply only_ite
        | apply only_step (State.judge_only ..) | apply only_step (State.flagsChanged_only ..)
        | apply only_step (State.clock_only ..) | apply only_step (State.onDie_only ..)
    | (intro v a hv) | (intro v hv) | extract_lets | split | (dsimp +zetaDelta only [])
theorem execCalStale_only (d : DieId) (t : Nat) (s : State) : Out.only s (execCalStale d t s) [.now, .effects, .ports,
    .fields, .dies, .trouble] := by
  unfold execCalStale
  repeat' first
    | with_reducible first
        | apply next_only | apply fault_only | apply out_ite | assumption | apply only_refl | decide | apply only_ite
        | apply only_step (State.judge_only ..) | apply only_step (State.flagsChanged_only ..)
        | apply only_step (State.report_only ..) | apply only_step (State.clock_only ..)
        | apply only_step (State.onDie_only ..)
    | (intro v a hv) | (intro v hv) | extract_lets | split | (dsimp +zetaDelta only [])
theorem execPowerRead_only (r : MReq) (s : State) : Out.only s (execPowerRead r s) [.waiting, .resumed, .wmReply, .now, .free,
    .effects, .scopes, .targets, .ports, .dies, .trouble, .wm] := by
  unfold execPowerRead
  repeat' first
    | with_reducible first
        | apply State.serve_step | apply next_only | apply fault_only | apply out_ite | assumption | apply only_refl | decide
        | apply only_ite | apply only_step (State.reply_only ..)
    | (intro v a hv) | (intro v hv) | extract_lets | split | (dsimp +zetaDelta only [])
theorem execPowerCap_only (r : MReq) (tray : Nat) (pkgs : List Nat) (s : State) : Out.only s (execPowerCap r tray pkgs s)
    [.waiting, .resumed, .wmReply, .now, .free, .effects, .scopes, .targets, .ports, .dies, .trouble, .wm, .capTray, .capPkg]
    := by
  unfold execPowerCap
  repeat' first
    | with_reducible first
        | apply State.serve_step | apply next_only | apply fault_only | apply out_ite | assumption | apply only_refl | decide
        | apply only_ite | apply only_step (State.reply_only ..) | apply only_step (State.setCapPkg_only ..)
        | apply only_step (State.setCapTray_only ..)
    | (intro v a hv) | (intro v hv) | extract_lets | split | (dsimp +zetaDelta only [])
theorem execFieldRung_only (r : MReq) (field ceiling : Nat) (s : State) : Out.only s (execFieldRung r field ceiling s)
    [.waiting, .resumed, .wmReply, .now, .free, .effects, .scopes, .targets, .ports, .fields, .dies, .trouble, .wm] := by
  unfold execFieldRung
  repeat' first
    | with_reducible first
        | apply State.serve_step | apply next_only | apply fault_only | apply out_ite | assumption | apply only_refl | decide
        | apply only_ite | apply only_step (State.reviewLimits_only ..) | apply only_step (State.holdField_only ..)
        | apply only_step (State.reply_only ..) | apply only_step (State.onField_only ..)
    | (intro v a hv) | (intro v hv) | extract_lets | split | (dsimp +zetaDelta only [])
theorem execCalOff_only (r : MReq) (field set : Nat) (s : State) : Out.only s (execCalOff r field set s) [.waiting, .resumed,
    .wmReply, .now, .free, .effects, .scopes, .targets, .ports, .fields, .dies, .trouble, .wm] := by
  unfold execCalOff
  repeat' first
    | with_reducible first
        | apply State.serve_step | apply next_only | apply fault_only | apply out_ite | assumption | apply only_refl | decide
        | apply only_ite | apply only_step (State.reply_only ..) | apply only_step (State.onField_only ..)
    | (intro v a hv) | (intro v hv) | extract_lets | split | (dsimp +zetaDelta only [])
theorem State.sendProtective_only (s : State) : s.onlyChanges (State.sendProtective s) [.effects, .ports, .fields, .dies,
    .trouble, .pkgs] := by
  unfold State.sendProtective
  repeat' first
    | with_reducible first
        | assumption | apply only_refl | decide | apply only_ite | apply only_step (State.receiveCap_only ..)
        | apply only_forEach
    | (intro v a hv) | (intro v hv) | extract_lets | split | (dsimp +zetaDelta only [])
theorem State.faultAction_only (s : State) (i : Nat) (x : Int) : s.onlyChanges (State.faultAction s i x) [.waiting, .wmReply,
    .effects, .tray, .serving, .scopes, .ports, .fields, .dies, .links, .leader, .trouble, .pkgs, .wm, .input] := by
  unfold State.faultAction
  repeat' first
    | with_reducible first
        | assumption | apply only_refl | decide | apply only_ite | apply only_step (State.sendProtective_only ..)
        | apply only_step (State.inputFails_only ..) | apply only_step (State.latchFault_only ..)
        | apply only_step (State.wmReport_only ..) | apply only_step (State.onWm_only ..)
    | (intro v a hv) | (intro v hv) | extract_lets | split | (dsimp +zetaDelta only [])
theorem State.scanPoint_only (s : State) (v54 : Int) (i : Nat) (x : Int) : s.onlyChanges (State.scanPoint s v54 i x)
    [.waiting, .wmReply, .effects, .tray, .serving, .scopes, .ports, .fields, .dies, .links, .leader, .trouble, .pkgs, .wm,
    .input] := by
  unfold State.scanPoint
  repeat' first
    | with_reducible first
        | assumption | apply only_refl | decide | apply only_ite | apply only_step (State.faultAction_only ..)
        | apply only_step (State.wmReport_only ..) | apply only_step (State.onWm_only ..)
    | (intro v a hv) | (intro v hv) | extract_lets | split | (dsimp +zetaDelta only [])
theorem State.renewCaps_only (s : State) : s.onlyChanges (State.renewCaps s) [.effects, .ports, .fields, .dies, .trouble,
    .pkgs, .wm] := by
  unfold State.renewCaps
  repeat' first
    | with_reducible first
        | assumption | apply only_refl | decide | apply only_ite | apply only_step (State.sendProtective_only ..)
        | apply only_step (State.onWm_only ..)
    | (intro v a hv) | (intro v hv) | extract_lets | split | (dsimp +zetaDelta only [])
theorem State.capWatch_only (s : State) (n : Fin 4) : s.onlyChanges (State.capWatch s n) [.effects, .tray, .ports, .fields,
    .dies, .trouble, .wm] := by
  unfold State.capWatch
  repeat' first
    | with_reducible first
        | assumption | apply only_refl | decide | apply only_ite | apply only_step (State.wmReport_only ..)
        | apply only_step (State.onWm_only ..)
    | (intro v a hv) | (intro v hv) | extract_lets | split | (dsimp +zetaDelta only [])
theorem State.cool_only (s : State) : s.onlyChanges (State.cool s) [.wm] := by
  unfold State.cool
  repeat' first
    | with_reducible first
        | assumption | apply only_refl | decide | apply only_ite | apply only_step (State.onWm_only ..) | apply only_foldl
    | (intro v a hv) | (intro v hv) | extract_lets | split | (dsimp +zetaDelta only [])
theorem State.scanAll_only (s : State) (readings : List Int) : s.onlyChanges (State.scanAll s readings) [.waiting, .wmReply,
    .effects, .tray, .serving, .scopes, .ports, .fields, .dies, .links, .leader, .trouble, .pkgs, .wm, .input] := by
  unfold State.scanAll
  repeat' first
    | with_reducible first
        | assumption | apply only_refl | decide | apply only_ite | apply only_step (State.cool_only ..)
        | apply only_step (State.capWatch_only ..) | apply only_step (State.renewCaps_only ..)
        | apply only_step (State.scanPoint_only ..) | apply only_step (State.seeGates_only ..)
        | apply only_step (State.onWm_only ..) | apply only_forEach | apply only_foldl
    | (intro v a hv) | (intro v hv) | extract_lets | split | (dsimp +zetaDelta only [])
theorem execMonitorScan_only (readings : List Int) (t : Nat) (s : State) : Out.only s (execMonitorScan readings t s)
    [.waiting, .wmReply, .now, .effects, .tray, .serving, .scopes, .ports, .fields, .dies, .links, .leader, .trouble, .pkgs,
    .wm, .input] := by
  unfold execMonitorScan
  repeat' first
    | with_reducible first
        | apply next_only | apply fault_only | apply out_ite | assumption | apply only_refl | decide | apply only_ite
        | apply only_step (State.scanAll_only ..) | apply only_step (State.powerClock_only ..)
    | (intro v a hv) | (intro v hv) | extract_lets | split | (dsimp +zetaDelta only [])
theorem execProtectiveCapClear_only (c : CapTarget) (t : Nat) (s : State) : Out.only s (execProtectiveCapClear c t s) [.now,
    .effects, .ports, .fields, .dies, .trouble, .pkgs, .wm] := by
  unfold execProtectiveCapClear
  repeat' first
    | with_reducible first
        | apply next_only | apply fault_only | apply out_ite | assumption | apply only_refl | decide | apply only_ite
        | apply only_step (State.sendProtective_only ..) | apply only_step (State.powerClock_only ..)
        | apply only_step (State.onWm_only ..)
    | (intro v a hv) | (intro v hv) | extract_lets | split | (dsimp +zetaDelta only [])
theorem State.rearm_only (s : State) (n : Fin 4) : s.onlyChanges (State.rearm s n) [.waiting, .wmReply, .effects, .bundle,
    .tray, .span, .peers, .serving, .scopes, .targets, .ports, .fields, .dies, .links, .ledgerEpoch, .leader, .cleaner,
    .trouble, .pkgs, .wm, .capTray, .capPkg, .sfTimerMs, .trayHolder] := by
  unfold State.rearm
  repeat' first
    | with_reducible first
        | assumption | apply only_refl | decide | apply only_ite | apply only_step (State.powerUpMany_only ..)
    | (intro v a hv) | (intro v hv) | extract_lets | split | (dsimp +zetaDelta only [])
theorem State.rearmCommand_only (s : State) (r : MReq) (opcode : Nat) (n : Fin 4) : s.onlyChanges (State.rearmCommand s r
    opcode n) [.waiting, .wmReply, .effects, .bundle, .tray, .span, .peers, .serving, .scopes, .targets, .ports, .fields,
    .dies, .links, .ledgerEpoch, .leader, .cleaner, .trouble, .pkgs, .wm, .capTray, .capPkg, .sfTimerMs, .trayHolder] := by
  unfold State.rearmCommand
  repeat' first
    | with_reducible first
        | assumption | apply only_refl | decide | apply only_ite | apply only_step (State.rearm_only ..)
        | apply only_step (State.reply_only ..) | apply only_step (State.setTrayHolder_only ..)
        | apply only_step (State.onPkg_only ..)
    | (intro v a hv) | (intro v hv) | extract_lets | split | (dsimp +zetaDelta only [])
theorem execPkgRearm_only (r : MReq) (pkg : Nat) (s : State) : Out.only s (execPkgRearm r pkg s) [.waiting, .resumed,
    .wmReply, .now, .free, .effects, .bundle, .tray, .span, .peers, .serving, .scopes, .targets, .ports, .fields, .dies,
    .links, .ledgerEpoch, .leader, .cleaner, .trouble, .pkgs, .wm, .capTray, .capPkg, .sfTimerMs, .trayHolder] := by
  unfold execPkgRearm
  repeat' first
    | with_reducible first
        | apply State.serve_step | apply next_only | apply fault_only | apply out_ite | assumption | apply only_refl | decide
        | apply only_ite | apply only_step (State.rearmCommand_only ..) | apply only_step (State.reply_only ..)
    | (intro v a hv) | (intro v hv) | extract_lets | split | (dsimp +zetaDelta only [])
theorem execPkgPowerOn_only (r : MReq) (pkg : Nat) (s : State) : Out.only s (execPkgPowerOn r pkg s) [.waiting, .resumed,
    .wmReply, .now, .free, .effects, .bundle, .tray, .span, .peers, .serving, .scopes, .targets, .ports, .fields, .dies,
    .links, .ledgerEpoch, .leader, .cleaner, .trouble, .pkgs, .wm, .capTray, .capPkg, .sfTimerMs, .trayHolder] := by
  unfold execPkgPowerOn
  repeat' first
    | with_reducible first
        | apply State.serve_step | apply next_only | apply fault_only | apply out_ite | assumption | apply only_refl | decide
        | apply only_ite | apply only_step (State.rearmCommand_only ..) | apply only_step (State.reply_only ..)
    | (intro v a hv) | (intro v hv) | extract_lets | split | (dsimp +zetaDelta only [])
theorem execPkgPowerOff_only (r : MReq) (pkg : Nat) (s : State) : Out.only s (execPkgPowerOff r pkg s) [.waiting, .resumed,
    .wmReply, .now, .free, .effects, .serving, .scopes, .targets, .ports, .fields, .dies, .links, .leader, .trouble, .pkgs,
    .wm] := by
  unfold execPkgPowerOff
  repeat' first
    | with_reducible first
        | apply State.serve_step | apply next_only | apply fault_only | apply out_ite | assumption | apply only_refl | decide
        | apply only_ite | apply only_step (State.powerDown_only ..) | apply only_step (State.reply_only ..)
    | (intro v a hv) | (intro v hv) | extract_lets | split | (dsimp +zetaDelta only [])
theorem State.rack_step {s u : State} {l : List Part} {t : Nat} {body : State → State}
    (hl : ∀ p ∈ ([.now, .dies, .pkgs] : List Part), p ∈ l) (hu : s.onlyChanges u l)
    (hb : ∀ v, s.onlyChanges v l → s.onlyChanges (body v) l) : Out.only s (u.rack t body) l := by
  have h := only_step (State.powerClock_only u t) (fun p q => hl p (by revert p; decide)) hu
  exact out_ite (next_only (hb _ h)) (next_only h)
theorem State.done_only (s : State) : s.onlyChanges (State.done s) [.effects] := by
  unfold State.done
  repeat' first
    | with_reducible first
        | assumption | apply only_refl | decide | apply only_ite | apply only_step (State.emit_only ..)
    | (intro v a hv) | (intro v hv) | extract_lets | split | (dsimp +zetaDelta only [])
theorem State.refused_only (s : State) (http : Nat) : s.onlyChanges (State.refused s http) [.effects] := by
  unfold State.refused
  repeat' first
    | with_reducible first
        | assumption | apply only_refl | decide | apply only_ite | apply only_step (State.emit_only ..)
    | (intro v a hv) | (intro v hv) | extract_lets | split | (dsimp +zetaDelta only [])
theorem State.trayOn_only (s : State) : s.onlyChanges (State.trayOn s) [.waiting, .wmReply, .effects, .bundle, .tray, .span,
    .peers, .serving, .scopes, .targets, .ports, .fields, .dies, .links, .ledgerEpoch, .leader, .cleaner, .trouble, .pkgs,
    .wm, .capTray, .capPkg, .sfTimerMs, .trayHolder] := by
  unfold State.trayOn
  repeat' first
    | with_reducible first
        | assumption | apply only_refl | decide | apply only_ite | apply only_step (State.powerUpMany_only ..)
        | apply only_step (State.onWm_only ..)
    | (intro v a hv) | (intro v hv) | extract_lets | split | (dsimp +zetaDelta only [])
theorem State.trayOff_only (s : State) : s.onlyChanges (State.trayOff s) [.waiting, .wmReply, .serving, .scopes, .ports,
    .fields, .dies, .links, .leader, .pkgs, .wm] := by
  unfold State.trayOff
  repeat' first
    | with_reducible first
        | assumption | apply only_refl | decide | apply only_ite | apply only_step (State.downAll_only ..)
        | apply only_step (State.onWm_only ..)
    | (intro v a hv) | (intro v hv) | extract_lets | split | (dsimp +zetaDelta only [])
theorem execRedfishTrayOn_only (t : Nat) (s : State) : Out.only s (execRedfishTrayOn t s) [.waiting, .wmReply, .now, .effects,
    .bundle, .tray, .span, .peers, .serving, .scopes, .targets, .ports, .fields, .dies, .links, .ledgerEpoch, .leader,
    .cleaner, .trouble, .pkgs, .wm, .capTray, .capPkg, .sfTimerMs, .trayHolder] := by
  unfold execRedfishTrayOn
  repeat' first
    | with_reducible first
        | apply State.rack_step | apply next_only | apply fault_only | apply out_ite | assumption | apply only_refl | decide
        | apply only_ite | apply only_step (State.trayOn_only ..) | apply only_step (State.done_only ..)
    | (intro v a hv) | (intro v hv) | extract_lets | split | (dsimp +zetaDelta only [])
theorem execRedfishTrayForceoff_only (t : Nat) (s : State) : Out.only s (execRedfishTrayForceoff t s) [.waiting, .wmReply,
    .now, .effects, .serving, .scopes, .ports, .fields, .dies, .links, .leader, .pkgs, .wm] := by
  unfold execRedfishTrayForceoff
  repeat' first
    | with_reducible first
        | apply State.rack_step | apply next_only | apply fault_only | apply out_ite | assumption | apply only_refl | decide
        | apply only_ite | apply only_step (State.trayOff_only ..) | apply only_step (State.done_only ..)
    | (intro v a hv) | (intro v hv) | extract_lets | split | (dsimp +zetaDelta only [])
theorem execRedfishTrayPowercycle_only (t : Nat) (s : State) : Out.only s (execRedfishTrayPowercycle t s) [.waiting, .wmReply,
    .now, .effects, .serving, .scopes, .ports, .fields, .dies, .links, .leader, .pkgs, .wm] := by
  unfold execRedfishTrayPowercycle
  repeat' first
    | with_reducible first
        | apply State.rack_step | apply next_only | apply fault_only | apply out_ite | assumption | apply only_refl | decide
        | apply only_ite | apply only_step (State.trayOff_only ..) | apply only_step (State.done_only ..)
        | apply only_step (State.onWm_only ..)
    | (intro v a hv) | (intro v hv) | extract_lets | split | (dsimp +zetaDelta only [])
theorem execPowercycleOnDelay_only (t : Nat) (s : State) : Out.only s (execPowercycleOnDelay t s) [.waiting, .wmReply, .now,
    .effects, .bundle, .tray, .span, .peers, .serving, .scopes, .targets, .ports, .fields, .dies, .links, .ledgerEpoch,
    .leader, .cleaner, .trouble, .pkgs, .wm, .capTray, .capPkg, .sfTimerMs, .trayHolder] := by
  unfold execPowercycleOnDelay
  repeat' first
    | with_reducible first
        | apply next_only | apply fault_only | apply out_ite | assumption | apply only_refl | decide | apply only_ite
        | apply only_step (State.trayOn_only ..) | apply only_step (State.powerClock_only ..)
        | apply only_step (State.onWm_only ..)
    | (intro v a hv) | (intro v hv) | extract_lets | split | (dsimp +zetaDelta only [])
theorem execRedfishPkgOn_only (pkg : Fin 4) (t : Nat) (s : State) : Out.only s (execRedfishPkgOn pkg t s) [.waiting, .wmReply,
    .now, .effects, .bundle, .tray, .span, .peers, .serving, .scopes, .targets, .ports, .fields, .dies, .links, .ledgerEpoch,
    .leader, .cleaner, .trouble, .pkgs, .wm, .capTray, .capPkg, .sfTimerMs, .trayHolder] := by
  unfold execRedfishPkgOn
  repeat' first
    | with_reducible first
        | apply State.rack_step | apply next_only | apply fault_only | apply out_ite | assumption | apply only_refl | decide
        | apply only_ite | apply only_step (State.refused_only ..) | apply only_step (State.done_only ..)
        | apply only_step (State.rearm_only ..) | apply only_step (State.onPkg_only ..)
    | (intro v a hv) | (intro v hv) | extract_lets | split | (dsimp +zetaDelta only [])
theorem execRedfishPkgForceoff_only (pkg : Fin 4) (t : Nat) (s : State) : Out.only s (execRedfishPkgForceoff pkg t s)
    [.waiting, .wmReply, .now, .effects, .serving, .scopes, .ports, .fields, .dies, .links, .leader, .pkgs] := by
  unfold execRedfishPkgForceoff
  repeat' first
    | with_reducible first
        | apply State.rack_step | apply next_only | apply fault_only | apply out_ite | assumption | apply only_refl | decide
        | apply only_ite | apply only_step (State.done_only ..) | apply only_step (State.powerDown_only ..)
    | (intro v a hv) | (intro v hv) | extract_lets | split | (dsimp +zetaDelta only [])
theorem execRedfishPkgGracefulshutdown_only (pkg : Fin 4) (t : Nat) (s : State) : Out.only s (execRedfishPkgGracefulshutdown
    pkg t s) [.waiting, .wmReply, .now, .effects, .serving, .scopes, .ports, .fields, .dies, .links, .leader, .pkgs] := by
  unfold execRedfishPkgGracefulshutdown
  repeat' first
    | with_reducible first
        | apply State.rack_step | apply next_only | apply fault_only | apply out_ite | assumption | apply only_refl | decide
        | apply only_ite | apply only_step (State.refused_only ..) | apply only_step (State.done_only ..)
        | apply only_step (State.powerDown_only ..)
    | (intro v a hv) | (intro v hv) | extract_lets | split | (dsimp +zetaDelta only [])
theorem execRedfishPkgForcerestart_only (pkg : Fin 4) (t : Nat) (s : State) : Out.only s (execRedfishPkgForcerestart pkg t s)
    [.waiting, .wmReply, .now, .effects, .serving, .scopes, .ports, .fields, .dies, .links, .leader, .pkgs] := by
  unfold execRedfishPkgForcerestart
  repeat' first
    | with_reducible first
        | apply State.rack_step | apply next_only | apply fault_only | apply out_ite | assumption | apply only_refl | decide
        | apply only_ite | apply only_step (State.done_only ..) | apply only_step (State.warmReset_only ..)
        | apply only_forEach
    | (intro v a hv) | (intro v hv) | extract_lets | split | (dsimp +zetaDelta only [])
theorem execRedfishResetUnsupported_only (s : State) : Out.only s (execRedfishResetUnsupported s) [.effects] := by
  unfold execRedfishResetUnsupported
  repeat' first
    | with_reducible first
        | apply next_only | apply fault_only | apply out_ite | assumption | apply only_refl | decide | apply only_ite
        | apply only_step (State.refused_only ..)
    | (intro v a hv) | (intro v hv) | extract_lets | split | (dsimp +zetaDelta only [])
theorem State.sendRedfish_only (s : State) : s.onlyChanges (State.sendRedfish s) [.effects, .ports, .fields, .dies, .trouble,
    .pkgs] := by
  unfold State.sendRedfish
  repeat' first
    | with_reducible first
        | assumption | apply only_refl | decide | apply only_ite | apply only_step (State.receiveCap_only ..)
        | apply only_forEach
    | (intro v a hv) | (intro v hv) | extract_lets | split | (dsimp +zetaDelta only [])
theorem execRedfishCap_only (c : CapTarget) (watts : Nat) (t : Nat) (s : State) : Out.only s (execRedfishCap c watts t s)
    [.now, .effects, .ports, .fields, .dies, .trouble, .pkgs, .wm] := by
  unfold execRedfishCap
  repeat' first
    | with_reducible first
        | apply State.rack_step | apply next_only | apply fault_only | apply out_ite | assumption | apply only_refl | decide
        | apply only_ite | apply only_step (State.sendRedfish_only ..) | apply only_step (State.refused_only ..)
        | apply only_step (State.done_only ..) | apply only_step (State.onWm_only ..)
    | (intro v a hv) | (intro v hv) | extract_lets | split | (dsimp +zetaDelta only [])
theorem State.clearLatch_only (s : State) (n : Fin 4) : s.onlyChanges (State.clearLatch s n) [.pkgs] := by
  unfold State.clearLatch
  repeat' first
    | with_reducible first
        | assumption | apply only_refl | decide | apply only_ite | apply only_step (State.onPkg_only ..)
    | (intro v a hv) | (intro v hv) | extract_lets | split | (dsimp +zetaDelta only [])
theorem execRedfishClearFault_only (pkg : Fin 4) (t : Nat) (s : State) : Out.only s (execRedfishClearFault pkg t s) [.now,
    .effects, .dies, .pkgs] := by
  unfold execRedfishClearFault
  repeat' first
    | with_reducible first
        | apply State.rack_step | apply next_only | apply fault_only | apply out_ite | assumption | apply only_refl | decide
        | apply only_ite | apply only_step (State.clearLatch_only ..) | apply only_step (State.done_only ..)
    | (intro v a hv) | (intro v hv) | extract_lets | split | (dsimp +zetaDelta only [])
theorem execRedfishLocate_only (l : LocateTarget) (on : Bool) (t : Nat) (s : State) : Out.only s (execRedfishLocate l on t s)
    [.now, .effects, .dies, .pkgs, .wm] := by
  unfold execRedfishLocate
  repeat' first
    | with_reducible first
        | apply State.rack_step | apply next_only | apply fault_only | apply out_ite | assumption | apply only_refl | decide
        | apply only_ite | apply only_step (State.done_only ..) | apply only_step (State.onWm_only ..)
    | (intro v a hv) | (intro v hv) | extract_lets | split | (dsimp +zetaDelta only [])
theorem State.update_step {s u : State} {l : List Part} {t : Nat} {body : State → State}
    (hl : ∀ p ∈ ([.now, .dies, .pkgs] : List Part), p ∈ l) (hu : s.onlyChanges u l)
    (hb : ∀ v, s.onlyChanges v l → s.onlyChanges (body v) l) : Out.only s (u.update t body) l := by
  have h := only_step (State.powerClock_only u t) (fun p q => hl p (by revert p; decide)) hu
  exact out_ite (next_only (hb _ h)) (next_only h)
theorem State.stage_only (s : State) (len : Option Nat) : s.onlyChanges (State.stage s len) [.wm] := by
  unfold State.stage
  repeat' first
    | with_reducible first
        | assumption | apply only_refl | decide | apply only_ite | apply only_step (State.onWm_only ..)
    | (intro v a hv) | (intro v hv) | extract_lets | split | (dsimp +zetaDelta only [])
theorem execRedfishUpdatePush_only (oneTime : Bool) (bundle : Dword) (t : Nat) (s : State) : Out.only s (execRedfishUpdatePush
    oneTime bundle t s) [.now, .effects, .dies, .pkgs, .wm] := by
  unfold execRedfishUpdatePush
  repeat' first
    | with_reducible first
        | apply State.update_step | apply next_only | apply fault_only | apply out_ite | assumption | apply only_refl | decide
        | apply only_ite | apply only_step (State.stage_only ..) | apply only_step (State.refused_only ..)
        | apply only_step (State.done_only ..) | apply only_step (State.onWm_only ..)
    | (intro v a hv) | (intro v hv) | extract_lets | split | (dsimp +zetaDelta only [])
theorem execRedfishFwActivate_only (t : Nat) (s : State) : Out.only s (execRedfishFwActivate t s) [.now, .effects, .dies,
    .pkgs, .wm] := by
  unfold execRedfishFwActivate
  repeat' first
    | with_reducible first
        | apply State.update_step | apply next_only | apply fault_only | apply out_ite | assumption | apply only_refl | decide
        | apply only_ite | apply only_step (State.refused_only ..) | apply only_step (State.done_only ..)
        | apply only_step (State.setWm_only ..)
    | (intro v a hv) | (intro v hv) | extract_lets | split | (dsimp +zetaDelta only [])
theorem execRedfishFwRollback_only (t : Nat) (s : State) : Out.only s (execRedfishFwRollback t s) [.now, .effects, .dies,
    .pkgs, .wm] := by
  unfold execRedfishFwRollback
  repeat' first
    | with_reducible first
        | apply State.update_step | apply next_only | apply fault_only | apply out_ite | assumption | apply only_refl | decide
        | apply only_ite | apply only_step (State.refused_only ..) | apply only_step (State.done_only ..)
        | apply only_step (State.setWm_only ..)
    | (intro v a hv) | (intro v hv) | extract_lets | split | (dsimp +zetaDelta only [])
theorem execRedfishRecoveryRequest_only (s : State) : Out.only s (execRedfishRecoveryRequest s) [.effects, .wm] := by
  unfold execRedfishRecoveryRequest
  repeat' first
    | with_reducible first
        | apply next_only | apply fault_only | apply out_ite | assumption | apply only_refl | decide | apply only_ite
        | apply only_step (State.done_only ..) | apply only_step (State.onWm_only ..)
    | (intro v a hv) | (intro v hv) | extract_lets | split | (dsimp +zetaDelta only [])
theorem execFwStatus_only (r : MReq) (s : State) : Out.only s (execFwStatus r s) [.waiting, .resumed, .wmReply, .now, .free,
    .effects, .scopes, .targets, .ports, .dies, .trouble, .wm] := by
  unfold execFwStatus
  repeat' first
    | with_reducible first
        | apply State.serve_step | apply next_only | apply fault_only | apply out_ite | assumption | apply only_refl | decide
        | apply only_ite | apply only_step (State.reply_only ..)
    | (intro v a hv) | (intro v hv) | extract_lets | split | (dsimp +zetaDelta only [])
theorem execFwStage_only (r : MReq) (host len : Nat) (s : State) : Out.only s (execFwStage r host len s) [.waiting, .resumed,
    .wmReply, .now, .free, .effects, .scopes, .targets, .ports, .dies, .trouble, .wm] := by
  unfold execFwStage
  repeat' first
    | with_reducible first
        | apply State.serve_step | apply next_only | apply fault_only | apply out_ite | assumption | apply only_refl | decide
        | apply only_ite | apply only_step (State.stage_only ..) | apply only_step (State.reply_only ..)
        | apply only_step (State.emit_only ..)
    | (intro v a hv) | (intro v hv) | extract_lets | split | (dsimp +zetaDelta only [])
theorem State.fwOk_only (s : State) (w : Wm) : s.onlyChanges (State.fwOk s w) [.wm] := by
  unfold State.fwOk
  repeat' first
    | with_reducible first
        | assumption | apply only_refl | decide | apply only_ite | apply only_step (State.setWm_only ..)
    | (intro v a hv) | (intro v hv) | extract_lets | split | (dsimp +zetaDelta only [])
theorem execFwActivate_only (r : MReq) (s : State) : Out.only s (execFwActivate r s) [.waiting, .resumed, .wmReply, .now,
    .free, .effects, .scopes, .targets, .ports, .dies, .trouble, .wm] := by
  unfold execFwActivate
  repeat' first
    | with_reducible first
        | apply State.serve_step | apply next_only | apply fault_only | apply out_ite | assumption | apply only_refl | decide
        | apply only_ite | apply only_step (State.fwOk_only ..) | apply only_step (State.reply_only ..)
    | (intro v a hv) | (intro v hv) | extract_lets | split | (dsimp +zetaDelta only [])
theorem execFwRollback_only (r : MReq) (s : State) : Out.only s (execFwRollback r s) [.waiting, .resumed, .wmReply, .now,
    .free, .effects, .scopes, .targets, .ports, .dies, .trouble, .wm] := by
  unfold execFwRollback
  repeat' first
    | with_reducible first
        | apply State.serve_step | apply next_only | apply fault_only | apply out_ite | assumption | apply only_refl | decide
        | apply only_ite | apply only_step (State.fwOk_only ..) | apply only_step (State.reply_only ..)
    | (intro v a hv) | (intro v hv) | extract_lets | split | (dsimp +zetaDelta only [])
theorem execFwAbort_only (r : MReq) (s : State) : Out.only s (execFwAbort r s) [.waiting, .resumed, .wmReply, .now, .free,
    .effects, .scopes, .targets, .ports, .dies, .trouble, .wm] := by
  unfold execFwAbort
  repeat' first
    | with_reducible first
        | apply State.serve_step | apply next_only | apply fault_only | apply out_ite | assumption | apply only_refl | decide
        | apply only_ite | apply only_step (State.fwOk_only ..) | apply only_step (State.reply_only ..)
    | (intro v a hv) | (intro v hv) | extract_lets | split | (dsimp +zetaDelta only [])
theorem execStagingComplete_only (image : List Byte) (flashOk : Bool) (t : Nat) (s : State) : Out.only s (execStagingComplete
    image flashOk t s) [.now, .effects, .ports, .dies, .trouble, .pkgs, .wm] := by
  unfold execStagingComplete
  repeat' first
    | with_reducible first
        | apply next_only | apply fault_only | apply out_ite | assumption | apply only_refl | decide | apply only_ite
        | apply only_step (State.powerClock_only ..) | apply only_step (State.notify_only ..)
        | apply only_step (State.onWm_only ..)
    | (intro v a hv) | (intro v hv) | extract_lets | split | (dsimp +zetaDelta only [])
theorem execWatchdogExpiry_only (t : Nat) (s : State) : Out.only s (execWatchdogExpiry t s) [.now, .effects, .ports, .dies,
    .trouble, .pkgs, .wm] := by
  unfold execWatchdogExpiry
  repeat' first
    | with_reducible first
        | apply next_only | apply fault_only | apply out_ite | assumption | apply only_refl | decide | apply only_ite
        | apply only_step (State.wmRestart_only ..) | apply only_step (State.powerClock_only ..)
        | apply only_step (State.onWm_only ..)
    | (intro v a hv) | (intro v hv) | extract_lets | split | (dsimp +zetaDelta only [])
theorem execWmFirmwareFault_only (t : Nat) (s : State) : Out.only s (execWmFirmwareFault t s) [.now, .effects, .ports, .dies,
    .trouble, .pkgs, .wm] := by
  unfold execWmFirmwareFault
  repeat' first
    | with_reducible first
        | apply next_only | apply fault_only | apply out_ite | assumption | apply only_refl | decide | apply only_ite
        | apply only_step (State.wmRestart_only ..) | apply only_step (State.powerClock_only ..)
    | (intro v a hv) | (intro v hv) | extract_lets | split | (dsimp +zetaDelta only [])
theorem execButtonHold_only (t : Nat) (s : State) : Out.only s (execButtonHold t s) [.now, .effects, .ports, .dies, .trouble,
    .pkgs, .wm] := by
  unfold execButtonHold
  repeat' first
    | with_reducible first
        | apply next_only | apply fault_only | apply out_ite | assumption | apply only_refl | decide | apply only_ite
        | apply only_step (State.wmRestart_only ..) | apply only_step (State.powerClock_only ..)
    | (intro v a hv) | (intro v hv) | extract_lets | split | (dsimp +zetaDelta only [])
theorem State.wmBeats_only (s : State) : s.onlyChanges (State.wmBeats s) [.wmReply, .free, .effects, .scopes, .targets,
    .ports, .dies, .trouble, .wm] := by
  unfold State.wmBeats
  repeat' first
    | with_reducible first
        | assumption | apply only_refl | decide | apply only_ite | apply only_step (State.beat_only ..)
        | apply only_step (State.settleOwn_only ..) | apply only_step (State.onWm_only ..) | apply only_forEach
    | (intro v a hv) | (intro v hv) | extract_lets | split | (dsimp +zetaDelta only [])
theorem State.readCaps_only (s : State) : s.onlyChanges (State.readCaps s) [.wm] := by
  unfold State.readCaps
  repeat' first
    | with_reducible first
        | assumption | apply only_refl | decide | apply only_ite | apply only_step (State.onWm_only ..) | apply only_foldl
    | (intro v a hv) | (intro v hv) | extract_lets | split | (dsimp +zetaDelta only [])
theorem State.resumeSequences_only (s : State) : s.onlyChanges (State.resumeSequences s) [.waiting, .wmReply, .serving,
    .scopes, .ports, .fields, .dies, .links, .leader, .pkgs] := by
  unfold State.resumeSequences
  repeat' first
    | with_reducible first
        | assumption | apply only_refl | decide | apply only_ite | apply only_step (State.powerDown_only ..)
        | apply only_step (State.powerUpAll_only ..) | apply only_forEach
    | (intro v a hv) | (intro v hv) | extract_lets | split | (dsimp +zetaDelta only [])
theorem execWmServiceResumed_only (t : Nat) (s : State) : Out.only s (execWmServiceResumed t s) [.waiting, .wmReply, .now,
    .free, .effects, .bundle, .tray, .span, .peers, .serving, .scopes, .targets, .ports, .fields, .dies, .links, .ledgerEpoch,
    .leader, .cleaner, .trouble, .pkgs, .wm, .input, .capTray, .capPkg, .sfTimerMs, .trayHolder] := by
  unfold execWmServiceResumed
  repeat' first
    | with_reducible first
        | apply next_only | apply fault_only | apply out_ite | assumption | apply only_refl | decide | apply only_ite
        | apply only_step (State.resumeSequences_only ..) | apply only_step (State.readCaps_only ..)
        | apply only_step (State.wmBeats_only ..) | apply only_step (State.seeGates_only ..)
        | apply only_step (State.failBringup_only ..) | apply only_step (State.startTray_only ..)
        | apply only_step (State.wmReport_only ..) | apply only_step (State.clock_only ..)
        | apply only_step (State.onWm_only ..)
    | (intro v a hv) | (intro v hv) | extract_lets | split | (dsimp +zetaDelta only [])
theorem execWmHeartbeatDue_only (t : Nat) (s : State) : Out.only s (execWmHeartbeatDue t s) [.wmReply, .now, .free, .effects,
    .scopes, .targets, .ports, .dies, .trouble, .pkgs, .wm] := by
  unfold execWmHeartbeatDue
  repeat' first
    | with_reducible first
        | apply next_only | apply fault_only | apply out_ite | assumption | apply only_refl | decide | apply only_ite
        | apply only_step (State.wmBeats_only ..) | apply only_step (State.powerClock_only ..)
    | (intro v a hv) | (intro v hv) | extract_lets | split | (dsimp +zetaDelta only [])
theorem execBootExpiryCountReset_only (t : Nat) (s : State) : Out.only s (execBootExpiryCountReset t s) [.now, .dies, .pkgs,
    .wm] := by
  unfold execBootExpiryCountReset
  repeat' first
    | with_reducible first
        | apply next_only | apply fault_only | apply out_ite | assumption | apply only_refl | decide | apply only_ite
        | apply only_step (State.powerClock_only ..) | apply only_step (State.onWm_only ..)
    | (intro v a hv) | (intro v hv) | extract_lets | split | (dsimp +zetaDelta only [])
theorem execButtonPress_only (ms_ : Nat) (t : Nat) (s : State) : Out.only s (execButtonPress ms_ t s) [.now, .dies, .pkgs,
    .wm] := by
  unfold execButtonPress
  repeat' first
    | with_reducible first
        | apply next_only | apply fault_only | apply out_ite | assumption | apply only_refl | decide | apply only_ite
        | apply only_step (State.powerClock_only ..) | apply only_step (State.onWm_only ..)
    | (intro v a hv) | (intro v hv) | extract_lets | split | (dsimp +zetaDelta only [])
theorem execLocateTimeout_only (l : LocateTarget) (t : Nat) (s : State) : Out.only s (execLocateTimeout l t s) [.now, .dies,
    .pkgs, .wm] := by
  unfold execLocateTimeout
  repeat' first
    | with_reducible first
        | apply next_only | apply fault_only | apply out_ite | assumption | apply only_refl | decide | apply only_ite
        | apply only_step (State.powerClock_only ..) | apply only_step (State.onWm_only ..)
    | (intro v a hv) | (intro v hv) | extract_lets | split | (dsimp +zetaDelta only [])
theorem State.startRun_only (s : State) (p : PortId) : s.onlyChanges (State.startRun s p) [.free, .effects, .ports, .fields,
    .dies, .links, .trouble] := by
  unfold State.startRun
  repeat' first
    | with_reducible first
        | assumption | apply only_refl | decide | apply only_ite | apply only_step (State.portIdle_only ..)
        | apply only_step (State.spend_only ..) | apply only_step (State.onPort_only ..)
    | (intro v a hv) | (intro v hv) | extract_lets | split | (dsimp +zetaDelta only [])
theorem State.quitRun_only (s : State) (p : PortId) : s.onlyChanges (State.quitRun s p) [.links] := by
  unfold State.quitRun
  repeat' first
    | with_reducible first
        | assumption | apply only_refl | decide | apply only_ite | apply only_step (State.onPort_only ..)
    | (intro v a hv) | (intro v hv) | extract_lets | split | (dsimp +zetaDelta only [])
theorem State.endRun_only (s : State) (p : PortId) (limited : Bool) : s.onlyChanges (State.endRun s p limited) [.links] := by
  unfold State.endRun
  repeat' first
    | with_reducible first
        | assumption | apply only_refl | decide | apply only_ite | apply only_step (State.quitRun_only ..)
        | apply only_step (State.startTraining_only ..) | apply only_step (State.onPort_only ..)
    | (intro v a hv) | (intro v hv) | extract_lets | split | (dsimp +zetaDelta only [])
theorem State.modeChanged_only (s : State) (p : PortId) (old : Nat) : s.onlyChanges (State.modeChanged s p old) [.effects,
    .ports, .fields, .dies, .links, .trouble] := by
  unfold State.modeChanged
  repeat' first
    | with_reducible first
        | assumption | apply only_refl | decide | apply only_ite | apply only_step (State.quitRun_only ..)
        | apply only_step (State.portIdle_only ..) | apply only_step (State.startTraining_only ..)
    | (intro v a hv) | (intro v hv) | extract_lets | split | (dsimp +zetaDelta only [])
theorem State.writeTst_only (s : State) (p : PortId) (v : Word) : s.onlyChanges (State.writeTst s p v) [.free, .effects,
    .ports, .fields, .dies, .links, .trouble] := by
  unfold State.writeTst
  repeat' first
    | with_reducible first
        | assumption | apply only_refl | decide | apply only_ite | apply only_step (State.modeChanged_only ..)
        | apply only_step (State.endRun_only ..) | apply only_step (State.startRun_only ..)
        | apply only_step (State.onPort_only ..)
    | (intro v a hv) | (intro v hv) | extract_lets | split | (dsimp +zetaDelta only [])
theorem execTstCtrlStart_only (p : PortId) (s : State) : Out.only s (execTstCtrlStart p s) [.free, .effects, .ports, .fields,
    .dies, .links, .trouble] := by
  unfold execTstCtrlStart
  repeat' first
    | with_reducible first
        | apply next_only | apply fault_only | apply out_ite | assumption | apply only_refl | decide | apply only_ite
        | apply only_step (State.startRun_only ..)
    | (intro v a hv) | (intro v hv) | extract_lets | split | (dsimp +zetaDelta only [])
theorem execTstCtrlStop_only (p : PortId) (s : State) : Out.only s (execTstCtrlStop p s) [.links] := by
  unfold execTstCtrlStop
  repeat' first
    | with_reducible first
        | apply next_only | apply fault_only | apply out_ite | assumption | apply only_refl | decide | apply only_ite
        | apply only_step (State.endRun_only ..)
    | (intro v a hv) | (intro v hv) | extract_lets | split | (dsimp +zetaDelta only [])
theorem execTestRunLimit_only (p : PortId) (s : State) : Out.only s (execTestRunLimit p s) [.links] := by
  unfold execTestRunLimit
  repeat' first
    | with_reducible first
        | apply next_only | apply fault_only | apply out_ite | assumption | apply only_refl | decide | apply only_ite
        | apply only_step (State.endRun_only ..)
    | (intro v a hv) | (intro v hv) | extract_lets | split | (dsimp +zetaDelta only [])
theorem execTestStart_only (r : MReq) (p : PRef) (ctrl : Word) (uiLimit : Nat) (user : Word) (s : State) : Out.only s
    (execTestStart r p ctrl uiLimit user s) [.waiting, .resumed, .wmReply, .now, .free, .effects, .scopes, .targets, .ports,
    .fields, .dies, .links, .trouble, .wm] := by
  unfold execTestStart
  repeat' first
    | with_reducible first
        | apply State.serve_step | apply next_only | apply fault_only | apply out_ite | assumption | apply only_refl | decide
        | apply only_ite | apply only_step (State.quitRun_only ..) | apply only_step (State.startRun_only ..)
        | apply only_step (State.portIdle_only ..) | apply only_step (State.startTraining_only ..)
        | apply only_step (State.reply_only ..) | apply only_step (State.onPort_only ..)
    | (intro v a hv) | (intro v hv) | extract_lets | split | (dsimp +zetaDelta only [])
theorem execTestStop_only (r : MReq) (p : PRef) (s : State) : Out.only s (execTestStop r p s) [.waiting, .resumed, .wmReply,
    .now, .free, .effects, .scopes, .targets, .ports, .dies, .links, .trouble, .wm] := by
  unfold execTestStop
  repeat' first
    | with_reducible first
        | apply State.serve_step | apply next_only | apply fault_only | apply out_ite | assumption | apply only_refl | decide
        | apply only_ite | apply only_step (State.endRun_only ..) | apply only_step (State.reply_only ..)
    | (intro v a hv) | (intro v hv) | extract_lets | split | (dsimp +zetaDelta only [])
theorem execTestRead_only (r : MReq) (p : PRef) (lane : Nat) (s : State) : Out.only s (execTestRead r p lane s) [.waiting,
    .resumed, .wmReply, .now, .free, .effects, .scopes, .targets, .ports, .dies, .trouble, .wm] := by
  unfold execTestRead
  repeat' first
    | with_reducible first
        | apply State.serve_step | apply next_only | apply fault_only | apply out_ite | assumption | apply only_refl | decide
        | apply only_ite | apply only_step (State.reply_only ..)
    | (intro v a hv) | (intro v hv) | extract_lets | split | (dsimp +zetaDelta only [])
theorem execRepairClear_only (r : MReq) (p : PRef) (s : State) : Out.only s (execRepairClear r p s) [.waiting, .resumed,
    .wmReply, .now, .free, .effects, .scopes, .targets, .ports, .dies, .trouble, .wm] := by
  unfold execRepairClear
  repeat' first
    | with_reducible first
        | apply State.serve_step | apply next_only | apply fault_only | apply out_ite | assumption | apply only_refl | decide
        | apply only_ite | apply only_step (State.reply_only ..) | apply only_step (State.onWm_only ..)
    | (intro v a hv) | (intro v hv) | extract_lets | split | (dsimp +zetaDelta only [])
theorem State.writeMask_only (s : State) (n : Fin 4) (v : Fin 64) (mask : Bool) : s.onlyChanges (State.writeMask s n v mask)
    [.effects, .ports] := by
  unfold State.writeMask
  repeat' first
    | with_reducible first
        | assumption | apply only_refl | decide | apply only_ite | apply only_step (State.emit_only ..)
        | apply only_step (State.setHost_only ..)
    | (intro v a hv) | (intro v hv) | extract_lets | split | (dsimp +zetaDelta only [])
theorem State.cfgWrite_only (s : State) (n : Fin 4) (f : PcieCfg → PcieCfg) : OptOnly s (State.cfgWrite s n f) [.ports] := by
  unfold State.cfgWrite
  repeat' first
    | with_reducible first
        | apply some_only | apply none_only | apply opt_ite | assumption | apply only_refl | decide | apply only_ite
        | apply only_step (State.onHost_only ..)
    | (intro v a hv) | (intro v hv) | extract_lets | split | (dsimp +zetaDelta only [])
theorem State.hostWrite_only (s : State) (n : Fin 4) (rid : Half) (reg : Reg) (v : Word) : OptOnly s (State.hostWrite s n rid
    reg v) [.effects, .ports] := by
  unfold State.hostWrite
  repeat' first
    | with_reducible first
        | apply some_only | apply none_only | apply opt_ite | assumption | apply only_refl | decide | apply only_ite
        | exact opt_weaken (State.cfgWrite_only ..) (by decide) | refine only_getD (State.cfgWrite_only ..) (by decide) ?_
        | apply only_step (State.writeMask_only ..) | apply only_step (State.setChan_only ..)
        | apply only_step (State.onHost_only ..)
    | (refine only_opt (State.cfgWrite_only ..) (by assumption) (by decide) ?_) | (intro v a hv) | (intro v hv) | extract_lets
    | split | (dsimp +zetaDelta only [])
theorem State.writeKlc_only (s : State) (p : PortId) (x : Path) (reg : Reg) (v : Word) : OptOnly s (State.writeKlc s p x reg
    v) [.links] := by
  unfold State.writeKlc
  repeat' first
    | with_reducible first
        | apply some_only | apply none_only | apply opt_ite | assumption | apply only_refl | decide | apply only_ite
        | apply only_step (State.wakePort_only ..) | apply only_step (State.onLink_only ..)
        | apply only_step (State.onPort_only ..)
    | (intro v a hv) | (intro v hv) | extract_lets | split | (dsimp +zetaDelta only [])
theorem State.writeTstReg_only (s : State) (p : PortId) (x : Path) (reg : Reg) (v : Word) : OptOnly s (State.writeTstReg s p x
    reg v) [.free, .effects, .ports, .fields, .dies, .links, .trouble] := by
  unfold State.writeTstReg
  repeat' first
    | with_reducible first
        | apply some_only | apply none_only | apply opt_ite | assumption | apply only_refl | decide | apply only_ite
        | apply only_step (State.writeTst_only ..) | apply only_step (State.onPort_only ..)
    | (intro v a hv) | (intro v hv) | extract_lets | split | (dsimp +zetaDelta only [])
theorem State.enableEdge_only (s : State) (p : PortId) : s.onlyChanges (State.enableEdge s p) [.links] := by
  unfold State.enableEdge
  repeat' first
    | with_reducible first
        | assumption | apply only_refl | decide | apply only_ite | apply only_step (State.startTraining_only ..)
        | apply only_step (State.onLink_only ..)
    | (intro v a hv) | (intro v hv) | extract_lets | split | (dsimp +zetaDelta only [])
theorem State.enableEdges_only (s : State) (d : DieId) : s.onlyChanges (State.enableEdges s d) [.links] := by
  unfold State.enableEdges
  repeat' first
    | with_reducible first
        | assumption | apply only_refl | decide | apply only_ite | apply only_step (State.enableEdge_only ..)
        | apply only_forEach
    | (intro v a hv) | (intro v hv) | extract_lets | split | (dsimp +zetaDelta only [])
theorem State.writePlc_only (s : State) (d : DieId) (v : Word) : s.onlyChanges (State.writePlc s d v) [.effects, .ports,
    .fields, .dies, .links, .ledgerEpoch, .trouble] := by
  unfold State.writePlc
  repeat' first
    | with_reducible first
        | assumption | apply only_refl | decide | apply only_ite | apply only_step (State.enableEdge_only ..)
        | apply only_step (State.portIdle_only ..) | apply only_step (State.setLedgerEpoch_only ..)
        | apply only_step (State.onLink_only ..) | apply only_step (State.onDie_only ..) | apply only_forEach
    | (intro v a hv) | (intro v hv) | extract_lets | split | (dsimp +zetaDelta only [])
theorem State.regWrite_only (s : State) (x : Path) (reg : Reg) (v : Word) : OptOnly s (State.regWrite s x reg v) [.free,
    .effects, .ports, .fields, .dies, .links, .ledgerEpoch, .trouble] := by
  unfold State.regWrite
  repeat' first
    | with_reducible first
        | apply some_only | apply none_only | apply opt_ite | assumption | apply only_refl | decide | apply only_ite
        | apply only_step (State.writePlc_only ..) | exact opt_weaken (State.writeTstReg_only ..) (by decide)
        | refine only_getD (State.writeTstReg_only ..) (by decide) ?_ | exact opt_weaken (State.writeKlc_only ..) (by decide)
        | refine only_getD (State.writeKlc_only ..) (by decide) ?_ | exact opt_weaken (State.hostWrite_only ..) (by decide)
        | refine only_getD (State.hostWrite_only ..) (by decide) ?_ | apply only_step (State.onDie_only ..)
    | (refine only_opt (State.writeTstReg_only ..) (by assumption) (by decide) ?_)
    | (refine only_opt (State.writeKlc_only ..) (by assumption) (by decide) ?_)
    | (refine only_opt (State.hostWrite_only ..) (by assumption) (by decide) ?_) | (intro v a hv) | (intro v hv)
    | extract_lets | split | (dsimp +zetaDelta only [])
theorem execRegisterWrite_only (path : Path) (reg : Reg) (value : Word) (s : State) : Out.only s (execRegisterWrite path reg
    value s) [.free, .effects, .ports, .fields, .dies, .links, .ledgerEpoch, .trouble] := by
  unfold execRegisterWrite
  repeat' first
    | with_reducible first
        | apply next_only | apply fault_only | apply out_ite | assumption | apply only_refl | decide | apply only_ite
        | exact opt_weaken (State.regWrite_only ..) (by decide) | refine only_getD (State.regWrite_only ..) (by decide) ?_
    | (refine only_opt (State.regWrite_only ..) (by assumption) (by decide) ?_) | (intro v a hv) | (intro v hv) | extract_lets
    | split | (dsimp +zetaDelta only [])
theorem execTrbRead_only (r : MReq) (tray die first count : Nat) (s : State) : Out.only s (execTrbRead r tray die first count
    s) [.waiting, .resumed, .wmReply, .now, .free, .effects, .scopes, .targets, .ports, .dies, .trouble, .wm] := by
  unfold execTrbRead
  repeat' first
    | with_reducible first
        | apply State.serve_step | apply next_only | apply fault_only | apply out_ite | assumption | apply only_refl | decide
        | apply only_ite | apply only_step (State.reply_only ..) | apply only_step (State.spend_only ..)
    | (intro v a hv) | (intro v hv) | extract_lets | split | (dsimp +zetaDelta only [])
theorem State.openIntake_only (s : State) : s.onlyChanges (State.openIntake s) [.fields] := by
  unfold State.openIntake
  repeat' first
    | with_reducible first
        | assumption | apply only_refl | decide | apply only_ite | apply only_step (State.onField_only ..)
        | apply only_forEach
    | (intro v a hv) | (intro v hv) | extract_lets | split | (dsimp +zetaDelta only [])
theorem State.clearTrayRecord_only (s : State) (mask : Half) : s.onlyChanges (State.clearTrayRecord s mask) [.fields,
    .trouble] := by
  unfold State.clearTrayRecord
  repeat' first
    | with_reducible first
        | assumption | apply only_refl | decide | apply only_ite | apply only_step (State.openIntake_only ..)
        | apply only_step (State.setTrouble_only ..)
    | (intro v a hv) | (intro v hv) | extract_lets | split | (dsimp +zetaDelta only [])
theorem State.clearDieRecord_only (s : State) (d : DieId) (mask : Half) : s.onlyChanges (State.clearDieRecord s d mask)
    [.dies, .trouble, .pkgs] := by
  unfold State.clearDieRecord
  repeat' first
    | with_reducible first
        | assumption | apply only_refl | decide | apply only_ite | apply only_step (State.clearLatch_only ..)
        | apply only_step (State.setTrouble_only ..) | apply only_step (State.onDie_only ..)
    | (intro v a hv) | (intro v hv) | extract_lets | split | (dsimp +zetaDelta only [])
theorem execTrbClear_only (r : MReq) (tray die : Nat) (mask : Half) (s : State) : Out.only s (execTrbClear r tray die mask s)
    [.waiting, .resumed, .wmReply, .now, .free, .effects, .scopes, .targets, .ports, .fields, .dies, .trouble, .pkgs, .wm] :=
    by
  unfold execTrbClear
  repeat' first
    | with_reducible first
        | apply State.serve_step | apply next_only | apply fault_only | apply out_ite | assumption | apply only_refl | decide
        | apply only_ite | apply only_step (State.clearDieRecord_only ..) | apply only_step (State.clearTrayRecord_only ..)
        | apply only_step (State.reply_only ..)
    | (intro v a hv) | (intro v hv) | extract_lets | split | (dsimp +zetaDelta only [])
theorem State.takeAlarm_only (s : State) (d : DieId) (r : Rec) : s.onlyChanges (State.takeAlarm s d r) [.effects, .tray,
    .ports, .fields, .dies, .trouble] := by
  unfold State.takeAlarm
  repeat' first
    | with_reducible first
        | assumption | apply only_refl | decide | apply only_ite | apply only_step (State.noteActed_only ..)
        | apply only_step (State.sinkTake_only ..) | apply only_step (State.containField_only ..)
    | (intro v a hv) | (intro v hv) | extract_lets | split | (dsimp +zetaDelta only [])
theorem execAlarm_only (h : Hdr) (data : List Byte) (t : Nat) (s : State) : Out.only s (execAlarm h data t s) [.now, .effects,
    .tray, .ports, .fields, .dies, .trouble] := by
  unfold execAlarm
  repeat' first
    | with_reducible first
        | apply next_only | apply fault_only | apply out_ite | assumption | apply only_refl | decide | apply only_ite
        | apply only_step (State.takeAlarm_only ..) | apply only_step (State.arrive_only ..)
        | apply only_step (State.sfDiscard_only ..) | apply only_step (State.clock_only ..)
    | (intro v a hv) | (intro v hv) | extract_lets | split | (dsimp +zetaDelta only [])
theorem State.takeSluice_only (s : State) (d src : DieId) (c : AlarmCopy) : s.onlyChanges (State.takeSluice s d src c)
    [.fields, .dies] := by
  unfold State.takeSluice
  repeat' first
    | with_reducible first
        | assumption | apply only_refl | decide | apply only_ite | apply only_step (State.sluiceAct_only ..)
        | apply only_step (State.noteActed_only ..)
    | (intro v a hv) | (intro v hv) | extract_lets | split | (dsimp +zetaDelta only [])
theorem State.actCopy_only (s : State) (src : DieId) (c : AlarmCopy) : s.onlyChanges (State.actCopy s src c) [.waiting,
    .wmReply, .effects, .tray, .serving, .scopes, .ports, .fields, .dies, .links, .leader, .trouble, .pkgs] := by
  unfold State.actCopy
  repeat' first
    | with_reducible first
        | assumption | apply only_refl | decide | apply only_ite | apply only_step (State.takeSluice_only ..)
        | apply only_step (State.takeAlarm_only ..) | apply only_step (State.sinkOnce_only ..)
        | apply only_step (State.powerDown_only ..) | apply only_step (State.warmReset_only ..)
        | apply only_step (State.noteActed_only ..) | apply only_step (State.onPkg_only ..) | apply only_forEach
    | (intro v a hv) | (intro v hv) | extract_lets | split | (dsimp +zetaDelta only [])
theorem State.pollDie_only (s : State) (d : DieId) : s.onlyChanges (State.pollDie s d) [.waiting, .wmReply, .effects, .tray,
    .serving, .scopes, .ports, .fields, .dies, .links, .leader, .trouble, .pkgs] := by
  unfold State.pollDie
  repeat' first
    | with_reducible first
        | assumption | apply only_refl | decide | apply only_ite | apply only_step (State.actCopy_only ..)
        | apply only_step (State.popAlarm_only ..) | apply only_forEach
    | (intro v a hv) | (intro v hv) | extract_lets | split | (dsimp +zetaDelta only [])
theorem execChainAlarmPoll_only (t : Nat) (s : State) : Out.only s (execChainAlarmPoll t s) [.waiting, .wmReply, .now,
    .effects, .tray, .serving, .scopes, .ports, .fields, .dies, .links, .leader, .trouble, .pkgs] := by
  unfold execChainAlarmPoll
  repeat' first
    | with_reducible first
        | apply next_only | apply fault_only | apply out_ite | assumption | apply only_refl | decide | apply only_ite
        | apply only_step (State.pollDie_only ..) | apply only_step (State.powerClock_only ..) | apply only_forEach
    | (intro v a hv) | (intro v hv) | extract_lets | split | (dsimp +zetaDelta only [])
theorem State.clearHandling_only (s : State) (d : DieId) (c : Nat) : s.onlyChanges (State.clearHandling s d c) [.dies] := by
  unfold State.clearHandling
  repeat' first
    | with_reducible first
        | assumption | apply only_refl | decide | apply only_ite | apply only_step (State.onDie_only ..)
    | (intro v a hv) | (intro v hv) | extract_lets | split | (dsimp +zetaDelta only [])
theorem execHandlingDone_only (d : DieId) (cls : Fin 9) (t : Nat) (s : State) : Out.only s (execHandlingDone d cls t s) [.now,
    .dies] := by
  unfold execHandlingDone
  repeat' first
    | with_reducible first
        | apply next_only | apply fault_only | apply out_ite | assumption | apply only_refl | decide | apply only_ite
        | apply only_step (State.clearHandling_only ..) | apply only_step (State.clock_only ..)
    | (intro v a hv) | (intro v hv) | extract_lets | split | (dsimp +zetaDelta only [])
theorem execHandlingTimeout_only (d : DieId) (cls : Fin 9) (t : Nat) (s : State) : Out.only s (execHandlingTimeout d cls t s)
    [.now, .fields, .dies] := by
  unfold execHandlingTimeout
  repeat' first
    | with_reducible first
        | apply next_only | apply fault_only | apply out_ite | assumption | apply only_refl | decide | apply only_ite
        | apply only_step (State.clearHandling_only ..) | apply only_step (State.report_only ..)
        | apply only_step (State.clock_only ..)
    | (intro v a hv) | (intro v hv) | extract_lets | split | (dsimp +zetaDelta only [])
theorem execRiderFault_only (d : DieId) (core : Nat) (t : Nat) (s : State) : Out.only s (execRiderFault d core t s) [.now,
    .fields, .dies] := by
  unfold execRiderFault
  repeat' first
    | with_reducible first
        | apply next_only | apply fault_only | apply out_ite | assumption | apply only_refl | decide | apply only_ite
        | apply only_step (State.report_only ..) | apply only_step (State.clock_only ..)
    | (intro v a hv) | (intro v hv) | extract_lets | split | (dsimp +zetaDelta only [])
theorem execDieUe_only (d : DieId) (t : Nat) (s : State) : Out.only s (execDieUe d t s) [.now, .fields, .dies] := by
  unfold execDieUe
  repeat' first
    | with_reducible first
        | apply next_only | apply fault_only | apply out_ite | assumption | apply only_refl | decide | apply only_ite
        | apply only_step (State.report_only ..) | apply only_step (State.clock_only ..)
    | (intro v a hv) | (intro v hv) | extract_lets | split | (dsimp +zetaDelta only [])
theorem execFabricUe_only (d : DieId) (t : Nat) (s : State) : Out.only s (execFabricUe d t s) [.now, .fields, .dies] := by
  unfold execFabricUe
  repeat' first
    | with_reducible first
        | apply next_only | apply fault_only | apply out_ite | assumption | apply only_refl | decide | apply only_ite
        | apply only_step (State.report_only ..) | apply only_step (State.clock_only ..)
    | (intro v a hv) | (intro v hv) | extract_lets | split | (dsimp +zetaDelta only [])
theorem execPinningPadOverflow_only (p : PortId) (t : Nat) (s : State) : Out.only s (execPinningPadOverflow p t s) [.now,
    .effects, .ports, .fields, .dies, .links, .trouble] := by
  unfold execPinningPadOverflow
  repeat' first
    | with_reducible first
        | apply next_only | apply fault_only | apply out_ite | assumption | apply only_refl | decide | apply only_ite
        | apply only_step (State.portIdle_only ..) | apply only_step (State.startTraining_only ..)
        | apply only_step (State.clock_only ..)
    | (intro v a hv) | (intro v hv) | extract_lets | split | (dsimp +zetaDelta only [])
theorem State.samplePort_only (s : State) (p : PortId) : s.onlyChanges (State.samplePort s p) [.links] := by
  unfold State.samplePort
  repeat' first
    | with_reducible first
        | assumption | apply only_refl | decide | apply only_ite | apply only_step (State.onPort_only ..)
    | (intro v a hv) | (intro v hv) | extract_lets | split | (dsimp +zetaDelta only [])
theorem execHistogramSample_only (t : Nat) (s : State) : Out.only s (execHistogramSample t s) [.now, .dies, .links] := by
  unfold execHistogramSample
  repeat' first
    | with_reducible first
        | apply next_only | apply fault_only | apply out_ite | assumption | apply only_refl | decide | apply only_ite
        | apply only_step (State.samplePort_only ..) | apply only_step (State.clock_only ..) | apply only_forEach
    | (intro v a hv) | (intro v hv) | extract_lets | split | (dsimp +zetaDelta only [])
theorem execObsHistArm_only (r : MReq) (p : PRef) (s : State) : Out.only s (execObsHistArm r p s) [.waiting, .resumed,
    .wmReply, .now, .free, .effects, .scopes, .targets, .ports, .dies, .links, .trouble, .wm] := by
  unfold execObsHistArm
  repeat' first
    | with_reducible first
        | apply State.serve_step | apply next_only | apply fault_only | apply out_ite | assumption | apply only_refl | decide
        | apply only_ite | apply only_step (State.reply_only ..) | apply only_step (State.onPort_only ..)
    | (intro v a hv) | (intro v hv) | extract_lets | split | (dsimp +zetaDelta only [])
theorem execObsHistRead_only (r : MReq) (p : PRef) (s : State) : Out.only s (execObsHistRead r p s) [.waiting, .resumed,
    .wmReply, .now, .free, .effects, .scopes, .targets, .ports, .dies, .trouble, .wm] := by
  unfold execObsHistRead
  repeat' first
    | with_reducible first
        | apply State.serve_step | apply next_only | apply fault_only | apply out_ite | assumption | apply only_refl | decide
        | apply only_ite | apply only_step (State.reply_only ..)
    | (intro v a hv) | (intro v hv) | extract_lets | split | (dsimp +zetaDelta only [])
theorem execObsCounters_only (r : MReq) (field : Nat) (s : State) : Out.only s (execObsCounters r field s) [.waiting,
    .resumed, .wmReply, .now, .free, .effects, .scopes, .targets, .ports, .dies, .trouble, .wm] := by
  unfold execObsCounters
  repeat' first
    | with_reducible first
        | apply State.serve_step | apply next_only | apply fault_only | apply out_ite | assumption | apply only_refl | decide
        | apply only_ite | apply only_step (State.reply_only ..)
    | (intro v a hv) | (intro v hv) | extract_lets | split | (dsimp +zetaDelta only [])
theorem execObsTraceStart_only (r : MReq) (p : PRef) (s : State) : Out.only s (execObsTraceStart r p s) [.waiting, .resumed,
    .wmReply, .now, .free, .effects, .scopes, .targets, .ports, .dies, .links, .trouble, .wm] := by
  unfold execObsTraceStart
  repeat' first
    | with_reducible first
        | apply State.serve_step | apply next_only | apply fault_only | apply out_ite | assumption | apply only_refl | decide
        | apply only_ite | apply only_step (State.reply_only ..) | apply only_step (State.onPort_only ..)
    | (intro v a hv) | (intro v hv) | extract_lets | split | (dsimp +zetaDelta only [])
theorem execObsTraceRead_only (r : MReq) (p : PRef) (s : State) : Out.only s (execObsTraceRead r p s) [.waiting, .resumed,
    .wmReply, .now, .free, .effects, .scopes, .targets, .ports, .dies, .links, .trouble, .wm] := by
  unfold execObsTraceRead
  repeat' first
    | with_reducible first
        | apply State.serve_step | apply next_only | apply fault_only | apply out_ite | assumption | apply only_refl | decide
        | apply only_ite | apply only_step (State.reply_only ..) | apply only_step (State.onPort_only ..)
    | (intro v a hv) | (intro v hv) | extract_lets | split | (dsimp +zetaDelta only [])
theorem execObsTraceStop_only (r : MReq) (p : PRef) (s : State) : Out.only s (execObsTraceStop r p s) [.waiting, .resumed,
    .wmReply, .now, .free, .effects, .scopes, .targets, .ports, .dies, .links, .trouble, .wm] := by
  unfold execObsTraceStop
  repeat' first
    | with_reducible first
        | apply State.serve_step | apply next_only | apply fault_only | apply out_ite | assumption | apply only_refl | decide
        | apply only_ite | apply only_step (State.reply_only ..) | apply only_step (State.onPort_only ..)
    | (intro v a hv) | (intro v hv) | extract_lets | split | (dsimp +zetaDelta only [])
theorem State.debugWord_only (s : State) (d : DieId) (a : Nat) (bs : List Byte) : OptOnly s (State.debugWord s d a bs) [.free,
    .effects, .ports, .fields, .dies, .links, .ledgerEpoch, .trouble] := by
  unfold State.debugWord
  repeat' first
    | with_reducible first
        | apply some_only | apply none_only | apply opt_ite | assumption | apply only_refl | decide | apply only_ite
        | exact opt_weaken (State.regWrite_only ..) (by decide) | refine only_getD (State.regWrite_only ..) (by decide) ?_
        | apply only_step (State.popAlarm_only ..) | apply only_step (State.onTile_only ..)
    | (refine only_opt (State.regWrite_only ..) (by assumption) (by decide) ?_) | (intro v a hv) | (intro v hv) | extract_lets
    | split | (dsimp +zetaDelta only [])
theorem State.debugWrite_only (s : State) (d : DieId) (a : Nat) (data : List Byte) :
    OptPairOnly s (s.debugWrite d a data) [.free, .effects, .ports, .fields, .dies, .links, .ledgerEpoch, .trouble] := by
  unfold State.debugWrite
  apply optPair_ite nonePair_only
  apply somePair_only
  generalize List.range (data.length / 4) = m
  suffices h : ∀ x : State × Bool, s.onlyChanges x.1 [.free, .effects, .ports, .fields, .dies, .links, .ledgerEpoch, .trouble] → s.onlyChanges (m.foldl (fun x i =>
      match x.1.debugWord d (a + 4 * i) (slice data (4 * i) 4) with
      | some s' => (s', true)
      | none => x) x).1 [.free, .effects, .ports, .fields, .dies, .links, .ledgerEpoch, .trouble] from h (s, false) (only_refl _ _)
  induction m with
  | nil => intro x h; exact h
  | cons i m ih =>
    intro x h
    apply ih
    dsimp only
    split
    · exact only_opt (State.debugWord_only _ _ _ _) (by assumption) (by decide) h
    · exact h
theorem State.flagField_only (s : State) (d : DieId) (g : Field → Field) : s.onlyChanges (State.flagField s d g) [.fields] := by
  unfold State.flagField
  repeat' first
    | with_reducible first
        | assumption | apply only_refl | decide | apply only_ite | apply only_step (State.onField_only ..)
    | (intro v a hv) | (intro v hv) | extract_lets | split | (dsimp +zetaDelta only [])
theorem execDbgRead_only (r : MReq) (tray die addr len : Nat) (s : State) : Out.only s (execDbgRead r tray die addr len s)
    [.waiting, .resumed, .wmReply, .now, .free, .effects, .scopes, .targets, .ports, .fields, .dies, .trouble, .wm] := by
  unfold execDbgRead
  repeat' first
    | with_reducible first
        | apply State.serve_step | apply next_only | apply fault_only | apply out_ite | assumption | apply only_refl | decide
        | apply only_ite | apply only_step (State.flagField_only ..) | apply only_step (State.reply_only ..)
        | apply only_step (State.spend_only ..)
    | (intro v a hv) | (intro v hv) | extract_lets | split | (dsimp +zetaDelta only [])
theorem execDbgWrite_only (r : MReq) (tray die addr : Nat) (data : List Byte) (s : State) : Out.only s (execDbgWrite r tray
    die addr data s) [.waiting, .resumed, .wmReply, .now, .free, .effects, .scopes, .targets, .ports, .fields, .dies, .links,
    .ledgerEpoch, .trouble, .wm] := by
  unfold execDbgWrite
  repeat' first
    | with_reducible first
        | apply State.serve_step | apply next_only | apply fault_only | apply out_ite | assumption | apply only_refl | decide
        | apply only_ite | apply only_step (State.flagField_only ..) | apply only_step (State.reply_only ..)
    | (refine only_optPair (State.debugWrite_only ..) (by assumption) (by decide) ?_) | (intro v a hv) | (intro v hv)
    | extract_lets | split | (dsimp +zetaDelta only [])
theorem execDbgRd_only (h : Hdr) (t : Nat) (s : State) : Out.only s (execDbgRd h t s) [.now, .free, .fields, .dies] := by
  unfold execDbgRd
  repeat' first
    | with_reducible first
        | apply next_only | apply fault_only | apply out_ite | assumption | apply only_refl | decide | apply only_ite
        | apply only_step (State.unsupported_only ..) | apply only_step (State.respond_only ..)
        | apply only_step (State.arrive_only ..) | apply only_step (State.clock_only ..)
        | apply only_step (State.spend_only ..)
    | (intro v a hv) | (intro v hv) | extract_lets | split | (dsimp +zetaDelta only [])
theorem execDbgWr_only (h : Hdr) (data : List Byte) (t : Nat) (s : State) : Out.only s (execDbgWr h data t s) [.now, .free,
    .effects, .ports, .fields, .dies, .links, .ledgerEpoch, .trouble] := by
  unfold execDbgWr
  repeat' first
    | with_reducible first
        | apply next_only | apply fault_only | apply out_ite | assumption | apply only_refl | decide | apply only_ite
        | apply only_step (State.unsupported_only ..) | apply only_step (State.respond_only ..)
        | apply only_step (State.arrive_only ..) | apply only_step (State.clock_only ..)
    | (refine only_optPair (State.debugWrite_only ..) (by assumption) (by decide) ?_) | (intro v a hv) | (intro v hv)
    | extract_lets | split | (dsimp +zetaDelta only [])
theorem execDbgRsp_only (h : Hdr) (data : List Byte) (t : Nat) (s : State) : Out.only s (execDbgRsp h data t s) [.now,
    .fields, .dies] := by
  unfold execDbgRsp
  repeat' first
    | with_reducible first
        | apply next_only | apply fault_only | apply out_ite | assumption | apply only_refl | decide | apply only_ite
        | apply only_step (State.complete_only ..) | apply only_step (State.clock_only ..)
    | (intro v a hv) | (intro v hv) | extract_lets | split | (dsimp +zetaDelta only [])
theorem execPlanLoad_only (r : MReq) (ofs len : Nat) (s : State) : Out.only s (execPlanLoad r ofs len s) [.waiting, .resumed,
    .wmReply, .now, .free, .effects, .scopes, .targets, .ports, .fields, .dies, .links, .trouble, .wm] := by
  unfold execPlanLoad
  repeat' first
    | with_reducible first
        | apply State.serve_step | apply next_only | apply fault_only | apply out_ite | assumption | apply only_refl | decide
        | apply only_ite | apply only_step (State.wakePort_only ..) | apply only_step (State.copyInits_only ..)
        | apply only_step (State.syncCaches_only ..) | apply only_step (State.holdField_only ..)
        | apply only_step (State.reply_only ..) | apply only_step (State.onField_only ..) | apply only_forEach
    | (intro v a hv) | (intro v hv) | extract_lets | split | (dsimp +zetaDelta only [])
theorem execPlanUnload_only (r : MReq) (pos : Nat) (s : State) : Out.only s (execPlanUnload r pos s) [.waiting, .resumed,
    .wmReply, .now, .free, .effects, .scopes, .targets, .ports, .fields, .dies, .links, .trouble, .wm] := by
  unfold execPlanUnload
  repeat' first
    | with_reducible first
        | apply State.serve_step | apply next_only | apply fault_only | apply out_ite | assumption | apply only_refl | decide
        | apply only_ite | apply only_step (State.settleForced_only ..) | apply only_step (State.reply_only ..)
        | apply only_step (State.onField_only ..)
    | (intro v a hv) | (intro v hv) | extract_lets | split | (dsimp +zetaDelta only [])
theorem execPlanActivate_only (r : MReq) (s : State) : Out.only s (execPlanActivate r s) [.waiting, .resumed, .wmReply, .now,
    .free, .effects, .scopes, .targets, .ports, .fields, .dies, .trouble, .wm] := by
  unfold execPlanActivate
  repeat' first
    | with_reducible first
        | apply State.serve_step | apply next_only | apply fault_only | apply out_ite | assumption | apply only_refl | decide
        | apply only_ite | apply only_step (State.startReload_only ..) | apply only_step (State.startSwitch_only ..)
        | apply only_step (State.holdField_only ..) | apply only_step (State.reply_only ..)
        | apply only_step (State.onField_only ..)
    | (intro v a hv) | (intro v hv) | extract_lets | split | (dsimp +zetaDelta only [])
theorem execPlanReload_only (r : MReq) (pos : Nat) (s : State) : Out.only s (execPlanReload r pos s) [.waiting, .resumed,
    .wmReply, .now, .free, .effects, .scopes, .targets, .ports, .fields, .dies, .trouble, .wm] := by
  unfold execPlanReload
  repeat' first
    | with_reducible first
        | apply State.serve_step | apply next_only | apply fault_only | apply out_ite | assumption | apply only_refl | decide
        | apply only_ite | apply only_step (State.startReload_only ..) | apply only_step (State.holdField_only ..)
        | apply only_step (State.reply_only ..) | apply only_step (State.onField_only ..)
    | (intro v a hv) | (intro v hv) | extract_lets | split | (dsimp +zetaDelta only [])
theorem State.cancelRun_only (s : State) (f : Fin 8) : s.onlyChanges (State.cancelRun s f) [.effects, .ports, .fields, .dies,
    .trouble] := by
  unfold State.cancelRun
  repeat' first
    | with_reducible first
        | assumption | apply only_refl | decide | apply only_ite | apply only_step (State.stopCancelled_only ..)
        | apply only_step (State.startDrain_only ..) | apply only_step (State.onField_only ..)
    | (intro v a hv) | (intro v hv) | extract_lets | split | (dsimp +zetaDelta only [])
theorem execLaunchCancel_only (r : MReq) (idx : Nat) (all : Bool) (seq : Half) (s : State) : Out.only s (execLaunchCancel r
    idx all seq s) [.waiting, .resumed, .wmReply, .now, .free, .effects, .scopes, .targets, .ports, .fields, .dies, .trouble,
    .wm] := by
  unfold execLaunchCancel
  repeat' first
    | with_reducible first
        | apply State.serve_step | apply next_only | apply fault_only | apply out_ite | assumption | apply only_refl | decide
        | apply only_ite | apply only_step (State.cancelRun_only ..) | apply only_step (State.reply_only ..)
        | apply only_step (State.onField_only ..)
    | (intro v a hv) | (intro v hv) | extract_lets | split | (dsimp +zetaDelta only [])
theorem execPlanInfo_only (r : MReq) (pos : Nat) (s : State) : Out.only s (execPlanInfo r pos s) [.waiting, .resumed,
    .wmReply, .now, .free, .effects, .scopes, .targets, .ports, .dies, .trouble, .wm] := by
  unfold execPlanInfo
  repeat' first
    | with_reducible first
        | apply State.serve_step | apply next_only | apply fault_only | apply out_ite | assumption | apply only_refl | decide
        | apply only_ite | apply only_step (State.reply_only ..)
    | (intro v a hv) | (intro v hv) | extract_lets | split | (dsimp +zetaDelta only [])
theorem execLaunchResume_only (r : MReq) (s : State) : Out.only s (execLaunchResume r s) [.waiting, .resumed, .wmReply, .now,
    .free, .effects, .scopes, .targets, .ports, .fields, .dies, .trouble, .wm] := by
  unfold execLaunchResume
  repeat' first
    | with_reducible first
        | apply State.serve_step | apply next_only | apply fault_only | apply out_ite | assumption | apply only_refl | decide
        | apply only_ite | apply only_step (State.abandonChange_only ..) | apply only_step (State.nameChange_only ..)
        | apply only_step (State.startReload_only ..) | apply only_step (State.holdField_only ..)
        | apply only_step (State.reply_only ..)
    | (intro v a hv) | (intro v hv) | extract_lets | split | (dsimp +zetaDelta only [])
theorem execTrayPowerUp_only (t : Nat) (s : State) : Out.only s (execTrayPowerUp t s) [.waiting, .wmReply, .now, .effects,
    .bundle, .tray, .span, .peers, .serving, .scopes, .targets, .ports, .fields, .dies, .links, .ledgerEpoch, .leader,
    .cleaner, .trouble, .pkgs, .wm, .input, .capTray, .capPkg, .sfTimerMs, .trayHolder] := by
  unfold execTrayPowerUp
  repeat' first
    | with_reducible first
        | apply next_only | apply fault_only | apply out_ite | assumption | apply only_refl | decide | apply only_ite
        | apply only_step (State.trayUp_only ..) | apply only_step (State.powerClock_only ..)
        | apply only_step (State.onWm_only ..) | apply only_step (State.setInput_only ..)
    | (intro v a hv) | (intro v hv) | extract_lets | split | (dsimp +zetaDelta only [])
theorem execBringupDeadline_only (t : Nat) (s : State) : Out.only s (execBringupDeadline t s) [.waiting, .wmReply, .now,
    .effects, .serving, .scopes, .ports, .fields, .dies, .links, .leader, .trouble, .pkgs, .wm] := by
  unfold execBringupDeadline
  repeat' first
    | with_reducible first
        | apply next_only | apply fault_only | apply out_ite | assumption | apply only_refl | decide | apply only_ite
        | apply only_step (State.failBringup_only ..) | apply only_step (State.powerClock_only ..)
    | (intro v a hv) | (intro v hv) | extract_lets | split | (dsimp +zetaDelta only [])
theorem execBringupRetry_only (t : Nat) (s : State) : Out.only s (execBringupRetry t s) [.waiting, .wmReply, .now, .bundle,
    .tray, .span, .peers, .serving, .scopes, .targets, .ports, .fields, .dies, .links, .ledgerEpoch, .leader, .cleaner,
    .trouble, .pkgs, .wm, .capTray, .capPkg, .sfTimerMs, .trayHolder] := by
  unfold execBringupRetry
  repeat' first
    | with_reducible first
        | apply next_only | apply fault_only | apply out_ite | assumption | apply only_refl | decide | apply only_ite
        | apply only_step (State.startTray_only ..) | apply only_step (State.powerClock_only ..)
    | (intro v a hv) | (intro v hv) | extract_lets | split | (dsimp +zetaDelta only [])
theorem State.chainAnswer_only (s : State) (d : DieId) (cmd : Byte) (ok : Bool) (data : List Byte) : s.onlyChanges
    (State.chainAnswer s d cmd ok data) [.effects] := by
  unfold State.chainAnswer
  repeat' first
    | with_reducible first
        | assumption | apply only_refl | decide | apply only_ite | apply only_step (State.emit_only ..)
    | (intro v a hv) | (intro v hv) | extract_lets | split | (dsimp +zetaDelta only [])
theorem State.assigned_only (s : State) (d : DieId) : s.onlyChanges (State.assigned s d) [.effects, .tray, .ports, .fields,
    .dies, .trouble, .pkgs] := by
  unfold State.assigned
  repeat' first
    | with_reducible first
        | assumption | apply only_refl | decide | apply only_ite | apply only_step (State.checkPlacement_only ..)
        | apply only_step (State.onPkg_only ..)
    | (intro v a hv) | (intro v hv) | extract_lets | split | (dsimp +zetaDelta only [])
theorem execChainAssign_only (d : DieId) (addr : Byte) (s : State) : Out.only s (execChainAssign d addr s) [.effects, .tray,
    .ports, .fields, .dies, .trouble, .pkgs] := by
  unfold execChainAssign
  repeat' first
    | with_reducible first
        | apply next_only | apply fault_only | apply out_ite | assumption | apply only_refl | decide | apply only_ite
        | apply only_step (State.assigned_only ..) | apply only_step (State.chainAnswer_only ..)
        | apply only_step (State.onDie_only ..)
    | (intro v a hv) | (intro v hv) | extract_lets | split | (dsimp +zetaDelta only [])
theorem execChainRead_only (d : DieId) (ofs len : Nat) (s : State) : Out.only s (execChainRead d ofs len s) [.effects] := by
  unfold execChainRead
  repeat' first
    | with_reducible first
        | apply next_only | apply fault_only | apply out_ite | assumption | apply only_refl | decide | apply only_ite
        | apply only_step (State.chainAnswer_only ..)
    | (intro v a hv) | (intro v hv) | extract_lets | split | (dsimp +zetaDelta only [])
theorem State.chainWrite_only (s : State) (d : DieId) (ofs : Nat) (data : List Byte) : s.onlyChanges (State.chainWrite s d ofs
    data) [.free, .effects, .ports, .fields, .dies, .links, .ledgerEpoch, .trouble] := by
  unfold State.chainWrite
  repeat' first
    | with_reducible first
        | assumption | apply only_refl | decide | apply only_ite | exact opt_weaken (State.regWrite_only ..) (by decide)
        | refine only_getD (State.regWrite_only ..) (by decide) ?_ | apply only_step (State.popAlarm_only ..)
        | apply only_forEach
    | (refine only_opt (State.regWrite_only ..) (by assumption) (by decide) ?_) | (intro v a hv) | (intro v hv) | extract_lets
    | split | (dsimp +zetaDelta only [])
theorem execChainWrite_only (d : DieId) (ofs : Nat) (data : List Byte) (s : State) : Out.only s (execChainWrite d ofs data s)
    [.free, .effects, .ports, .fields, .dies, .links, .ledgerEpoch, .trouble] := by
  unfold execChainWrite
  repeat' first
    | with_reducible first
        | apply next_only | apply fault_only | apply out_ite | assumption | apply only_refl | decide | apply only_ite
        | apply only_step (State.chainWrite_only ..) | apply only_step (State.chainAnswer_only ..)
    | (intro v a hv) | (intro v hv) | extract_lets | split | (dsimp +zetaDelta only [])
theorem State.isolate_only (s : State) (n : Fin 4) : s.onlyChanges (State.isolate s n) [.waiting, .wmReply, .serving, .scopes,
    .ports, .fields, .dies, .leader, .pkgs] := by
  unfold State.isolate
  repeat' first
    | with_reducible first
        | assumption | apply only_refl | decide | apply only_ite | apply only_step (State.serverLost_only ..)
        | apply only_step (State.rootLost_only ..) | apply only_step (State.onPkg_only ..)
    | (intro v a hv) | (intro v hv) | extract_lets | split | (dsimp +zetaDelta only [])
theorem execChainStuck_only (x : StuckLine) (t : Nat) (s : State) : Out.only s (execChainStuck x t s) [.waiting, .wmReply,
    .now, .effects, .tray, .serving, .scopes, .ports, .fields, .dies, .leader, .trouble, .pkgs] := by
  unfold execChainStuck
  repeat' first
    | with_reducible first
        | apply next_only | apply fault_only | apply out_ite | assumption | apply only_refl | decide | apply only_ite
        | apply only_step (State.isolate_only ..) | apply only_step (State.powerClock_only ..)
        | apply only_step (State.wmReport_only ..) | apply only_forEach
    | (intro v a hv) | (intro v hv) | extract_lets | split | (dsimp +zetaDelta only [])
theorem execChainRetry_only (pkg : Fin 4) (linesHigh uidsMatch : Bool) (t : Nat) (s : State) : Out.only s (execChainRetry pkg
    linesHigh uidsMatch t s) [.now, .effects, .tray, .ports, .fields, .dies, .trouble, .pkgs] := by
  unfold execChainRetry
  repeat' first
    | with_reducible first
        | apply next_only | apply fault_only | apply out_ite | assumption | apply only_refl | decide | apply only_ite
        | apply only_step (State.enumerate_only ..) | apply only_step (State.powerClock_only ..)
        | apply only_step (State.receiveCap_only ..) | apply only_step (State.onPkg_only ..)
    | (intro v a hv) | (intro v hv) | extract_lets | split | (dsimp +zetaDelta only [])
theorem State.startIo_only (s : State) (d : DieId) : s.onlyChanges (State.startIo s d) [.effects, .ports, .fields, .dies,
    .links, .trouble, .pkgs] := by
  unfold State.startIo
  repeat' first
    | with_reducible first
        | assumption | apply only_refl | decide | apply only_ite | apply only_step (State.receiveCap_only ..)
        | apply only_step (State.startTraining_only ..) | apply only_step (State.onPkg_only ..)
        | apply only_step (State.onLink_only ..) | apply only_step (State.onDie_only ..) | apply only_forEach
    | (intro v a hv) | (intro v hv) | extract_lets | split | (dsimp +zetaDelta only [])
theorem State.loadFails_only (s : State) (d : DieId) : s.onlyChanges (State.loadFails s d) [.effects, .tray, .ports, .fields,
    .dies, .trouble] := by
  unfold State.loadFails
  repeat' first
    | with_reducible first
        | assumption | apply only_refl | decide | apply only_ite | apply only_step (State.wmReport_only ..)
        | apply only_step (State.report_only ..) | apply only_step (State.onDie_only ..)
    | (intro v a hv) | (intro v hv) | extract_lets | split | (dsimp +zetaDelta only [])
theorem execFirmwareComponentArrival_only (d : DieId) (crcOk : Bool) (t : Nat) (s : State) : Out.only s
    (execFirmwareComponentArrival d crcOk t s) [.now, .effects, .tray, .ports, .fields, .dies, .links, .trouble, .pkgs] := by
  unfold execFirmwareComponentArrival
  repeat' first
    | with_reducible first
        | apply next_only | apply fault_only | apply out_ite | assumption | apply only_refl | decide | apply only_ite
        | apply only_step (State.loadFails_only ..) | apply only_step (State.startIo_only ..)
        | apply only_step (State.powerClock_only ..) | apply only_step (State.reloadNow_only ..)
        | apply only_step (State.onDie_only ..)
    | (intro v a hv) | (intro v hv) | extract_lets | split | (dsimp +zetaDelta only [])
theorem execHbmTrainingDone_only (d : DieId) (ok : Bool) (t : Nat) (s : State) : Out.only s (execHbmTrainingDone d ok t s)
    [.now, .fields, .dies, .pkgs] := by
  unfold execHbmTrainingDone
  repeat' first
    | with_reducible first
        | apply next_only | apply fault_only | apply out_ite | assumption | apply only_refl | decide | apply only_ite
        | apply only_step (State.powerClock_only ..) | apply only_step (State.report_only ..)
        | apply only_step (State.onDie_only ..)
    | (intro v a hv) | (intro v hv) | extract_lets | split | (dsimp +zetaDelta only [])
theorem execHbmScrubDone_only (d : DieId) (t : Nat) (s : State) : Out.only s (execHbmScrubDone d t s) [.now, .dies, .links,
    .pkgs] := by
  unfold execHbmScrubDone
  repeat' first
    | with_reducible first
        | apply next_only | apply fault_only | apply out_ite | assumption | apply only_refl | decide | apply only_ite
        | apply only_step (State.enableEdges_only ..) | apply only_step (State.powerClock_only ..)
        | apply only_step (State.onDie_only ..)
    | (intro v a hv) | (intro v hv) | extract_lets | split | (dsimp +zetaDelta only [])
theorem State.declare_only (s : State) (x : TraySt) : s.onlyChanges (State.declare s x) [.effects, .tray, .ports, .dies,
    .trouble, .wm] := by
  unfold State.declare
  repeat' first
    | with_reducible first
        | assumption | apply only_refl | decide | apply only_ite | apply only_step (State.notify_only ..)
        | apply only_step (State.onWm_only ..) | apply only_step (State.setTray_only ..)
    | (intro v a hv) | (intro v hv) | extract_lets | split | (dsimp +zetaDelta only [])
theorem execTrayReady_only (t : Nat) (s : State) : Out.only s (execTrayReady t s) [.now, .effects, .tray, .ports, .dies,
    .trouble, .wm] := by
  unfold execTrayReady
  repeat' first
    | with_reducible first
        | apply next_only | apply fault_only | apply out_ite | assumption | apply only_refl | decide | apply only_ite
        | apply only_step (State.declare_only ..) | apply only_step (State.clock_only ..)
    | (intro v a hv) | (intro v hv) | extract_lets | split | (dsimp +zetaDelta only [])
theorem execTrayDegraded_only (t : Nat) (s : State) : Out.only s (execTrayDegraded t s) [.now, .effects, .tray, .ports, .dies,
    .trouble, .wm] := by
  unfold execTrayDegraded
  repeat' first
    | with_reducible first
        | apply next_only | apply fault_only | apply out_ite | assumption | apply only_refl | decide | apply only_ite
        | apply only_step (State.declare_only ..) | apply only_step (State.clock_only ..)
    | (intro v a hv) | (intro v hv) | extract_lets | split | (dsimp +zetaDelta only [])

end Sys2Proof.Machine
end

