-- ==== Sys2Proof/Laws/Table.lean ====
section
/-! SUPPORT. Sys2Proof/Laws/Table.lean: reading after writing an association list, and every memory operation keeps the
canonical form. -/

namespace Sys2Proof.Machine

/-! ### Association lists -/

/-- A key holds what was written to it. -/
@[simp] theorem NMap.get_set_same {ν : Type} (m : NMap ν) (k : Nat) (v d : ν) : NMap.get (NMap.set m k v) k d = v := by
  induction m with
  | nil => simp [NMap.set, NMap.get]
  | cons e r ih =>
    obtain ⟨j, w⟩ := e
    simp only [NMap.set]
    split
    · simp [NMap.get]
    · split
      · simp [NMap.get]
      · rename_i h; simp [NMap.get, Ne.symm h, ih]

/-- Another key holds what it held. -/
theorem NMap.get_set_other {ν : Type} (m : NMap ν) (k j : Nat) (v d : ν) (h : k ≠ j) :
    NMap.get (NMap.set m k v) j d = NMap.get m j d := by
  induction m with
  | nil => simp [NMap.set, NMap.get, h]
  | cons e r ih =>
    obtain ⟨i, w⟩ := e
    simp only [NMap.set]
    split
    · simp [NMap.get, h]
    · split
      · rename_i h2; subst h2; simp [NMap.get, h]
      · simp [NMap.get, ih]

/-- What is listed after a write was listed before it, or is what was written. -/
theorem NMap.mem_set {ν : Type} {m : NMap ν} {k : Nat} {v : ν} {e : Nat × ν} (h : e ∈ NMap.set m k v) : e = (k, v) ∨ e ∈ m := by
  induction m with
  | nil => simp [NMap.set] at h; exact .inl h
  | cons a r ih =>
    obtain ⟨j, w⟩ := a
    simp only [NMap.set] at h
    split at h
    · simpa using h
    · split at h
      · simp only [List.mem_cons] at h ⊢
        rcases h with h | h
        · exact .inl h
        · exact .inr (.inr h)
      · simp at h
        rcases h with h | h
        · exact .inr (by simp [h])
        · rcases ih h with h | h
          · exact .inl h
          · exact .inr (by simp [h])

/-- A value read is the default or a listed one. -/
theorem NMap.get_cases {ν : Type} (m : NMap ν) (k : Nat) (d : ν) : NMap.get m k d = d ∨ (k, NMap.get m k d) ∈ m := by
  induction m with
  | nil => exact .inl rfl
  | cons a r ih =>
    obtain ⟨j, w⟩ := a
    by_cases h : j = k
    · exact .inr (by simp [NMap.get, h])
    · rcases ih with ih | ih
      · exact .inl (by simpa [NMap.get, h] using ih)
      · exact .inr (by simp [NMap.get, h, ih])

/-- A map over the values of a list commutes with reading, where it maps the default to itself. -/
theorem NMap.get_map {ν : Type} (m : NMap ν) (g : ν → ν) (k : Nat) (d : ν) (h : g d = d) :
    NMap.get (m.map fun e => (e.1, g e.2)) k d = g (NMap.get m k d) := by
  induction m with
  | nil => simp [NMap.get, h]
  | cons a r ih =>
    obtain ⟨j, w⟩ := a
    by_cases hj : j = k
    · simp [NMap.get, hj]
    · simp [NMap.get, hj, ih]

/-! ### Memories -/

/-- Every address of a canonical memory above its first one is greater than it, and the rest is canonical. -/
theorem Memory.wf_cons (a : Nat) (b : Byte) (r : Memory) :
    Memory.wf ((a, b) :: r) = true ↔ b ≠ 0 ∧ (∀ e ∈ r, a < e.1) ∧ Memory.wf r = true := by
  simp [Memory.wf, List.all_eq_true, and_assoc]

/-- An entry of a cleared memory was an entry before. -/
theorem Memory.mem_clear {m : Memory} {a : Nat} {e : Host.Cell} (h : e ∈ Memory.clear m a) : e ∈ m := by
  induction m with
  | nil => simp [Memory.clear] at h
  | cons c r ih =>
    obtain ⟨j, b⟩ := c
    simp only [Memory.clear] at h
    split at h
    · exact h
    · split at h
      · exact List.mem_cons_of_mem _ h
      · simp only [List.mem_cons] at h ⊢
        rcases h with h | h
        · exact .inl h
        · exact .inr (ih h)

/-- Clearing a byte keeps the canonical form. -/
theorem Memory.clear_wf {m : Memory} (a : Nat) (h : Memory.wf m = true) : Memory.wf (Memory.clear m a) = true := by
  induction m with
  | nil => rfl
  | cons c r ih =>
    obtain ⟨j, b⟩ := c
    rw [Memory.wf_cons] at h
    simp only [Memory.clear]
    split
    · exact (Memory.wf_cons j b r).2 h
    · split
      · exact h.2.2
      · exact (Memory.wf_cons j b _).2 ⟨h.1, fun e he => h.2.1 e (Memory.mem_clear he), ih h.2.2⟩

/-- Setting a byte that is not 0 keeps the canonical form. -/
theorem Memory.set_wf {m : Memory} (a : Nat) {b : Byte} (hb : b ≠ 0) (h : Memory.wf m = true) :
    Memory.wf (NMap.set m a b) = true := by
  induction m with
  | nil => exact (Memory.wf_cons a b []).2 ⟨hb, by simp, rfl⟩
  | cons c r ih =>
    obtain ⟨j, w⟩ := c
    have h' := (Memory.wf_cons j w r).1 h
    simp only [NMap.set]
    split
    · rename_i hlt
      refine (Memory.wf_cons a b _).2 ⟨hb, ?_, h⟩
      intro e he
      simp only [List.mem_cons] at he
      rcases he with he | he
      · subst he; exact hlt
      · exact Nat.lt_trans hlt (h'.2.1 e he)
    · split
      · rename_i heq; subst heq; exact (Memory.wf_cons a b r).2 ⟨hb, h'.2.1, h'.2.2⟩
      · rename_i h1 h2
        refine (Memory.wf_cons j w _).2 ⟨h'.1, ?_, ih h'.2.2⟩
        intro e he
        rcases NMap.mem_set he with he | he
        · subst he; simp only; omega
        · exact h'.2.1 e he

/-- A byte write keeps the canonical form. -/
theorem Memory.put_wf {m : Memory} (a : Nat) (b : Byte) (h : Memory.wf m = true) : Memory.wf (Memory.put m a b) = true := by
  simp only [Memory.put]
  split
  · exact Memory.clear_wf a h
  · rename_i hb; exact Memory.set_wf a hb h

/-- A write of bytes keeps the canonical form. -/
theorem Memory.write_wf {m : Memory} (a : Nat) (bs : List Byte) (h : Memory.wf m = true) :
    Memory.wf (Memory.write m a bs) = true := by
  induction bs generalizing m a with
  | nil => exact h
  | cons b r ih => exact ih (a + 1) (Memory.put_wf a b h)

/-- Taking entries away keeps the canonical form. -/
theorem Memory.filter_wf {m : Memory} (p : Host.Cell → Bool) (h : Memory.wf m = true) : Memory.wf (m.filter p) = true := by
  induction m with
  | nil => rfl
  | cons c r ih =>
    obtain ⟨j, b⟩ := c
    rw [Memory.wf_cons] at h
    simp only [List.filter]
    split
    · exact (Memory.wf_cons j b _).2 ⟨h.1, fun e he => h.2.1 e ((List.mem_filter.1 he).1), ih h.2.2⟩
    · exact ih h.2.2

/-- Zeroing a range keeps the canonical form. -/
theorem Memory.zero_wf {m : Memory} (a n : Nat) (h : Memory.wf m = true) : Memory.wf (Memory.zero m a n) = true :=
  Memory.filter_wf _ h

/-- A cleared byte of a canonical memory reads 0. -/
theorem Memory.get_clear_same {m : Memory} (a : Nat) (h : Memory.wf m = true) : Memory.get (Memory.clear m a) a = 0 := by
  induction m with
  | nil => rfl
  | cons c r ih =>
    obtain ⟨j, b⟩ := c
    have h' := (Memory.wf_cons j b r).1 h
    have absent : ∀ (l : Memory), (∀ e ∈ l, a < e.1) → NMap.get l a (0 : Byte) = 0 := by
      intro l hl
      rcases NMap.get_cases l a (0 : Byte) with hg | hg
      · exact hg
      · exact absurd (hl _ hg) (by simp)
    simp only [Memory.clear]
    split
    · rename_i hlt
      exact absent _ (by intro e he; simp only [List.mem_cons] at he; rcases he with he | he; · subst he; exact hlt
                         · exact Nat.lt_trans hlt (h'.2.1 e he))
    · split
      · rename_i heq; subst heq; exact absent r h'.2.1
      · rename_i h1 h2
        have : ¬ j = a := fun q => h2 q.symm
        simpa [Memory.get, NMap.get, this] using ih h'.2.2

/-- Clearing a byte leaves every other byte. -/
theorem Memory.get_clear_other (m : Memory) (a c : Nat) (h : a ≠ c) : Memory.get (Memory.clear m a) c = Memory.get m c := by
  induction m with
  | nil => rfl
  | cons e r ih =>
    obtain ⟨j, b⟩ := e
    simp only [Memory.clear]
    split
    · rfl
    · split
      · rename_i heq; subst heq; simp [Memory.get, NMap.get, h]
      · by_cases hj : j = c
        · simp [Memory.get, NMap.get, hj]
        · simpa [Memory.get, NMap.get, hj] using ih

/-- A byte reads as it was written. -/
theorem Memory.get_put_same {m : Memory} (a : Nat) (b : Byte) (h : Memory.wf m = true) : Memory.get (Memory.put m a b) a = b := by
  simp only [Memory.put]
  split
  · rename_i hb; rw [Memory.get_clear_same a h, hb]
  · simp [Memory.get]

/-- A byte write leaves every other byte. -/
theorem Memory.get_put_other (m : Memory) (a c : Nat) (b : Byte) (h : a ≠ c) :
    Memory.get (Memory.put m a b) c = Memory.get m c := by
  simp only [Memory.put]
  split
  · exact Memory.get_clear_other m a c h
  · exact NMap.get_set_other m a c b 0 h

/-- A write leaves every byte outside it. -/
theorem Memory.get_write_outside (m : Memory) (a c : Nat) (bs : List Byte) (h : c < a ∨ a + bs.length ≤ c) :
    Memory.get (Memory.write m a bs) c = Memory.get m c := by
  induction bs generalizing m a with
  | nil => rfl
  | cons b r ih =>
    simp only [List.length_cons] at h
    rw [Memory.write, ih (Memory.put m a b) (a + 1) (by omega), Memory.get_put_other m a c b (by omega)]

/-- A write puts each of its bytes at its place. -/
theorem Memory.get_write_inside {m : Memory} (a i : Nat) (bs : List Byte) (hm : Memory.wf m = true) (h : i < bs.length) :
    Memory.get (Memory.write m a bs) (a + i) = bs[i] := by
  induction bs generalizing m a i with
  | nil => simp at h
  | cons b r ih =>
    rw [Memory.write]
    cases i with
    | zero =>
      rw [Memory.get_write_outside _ _ _ _ (by omega)]
      simpa using Memory.get_put_same a b hm
    | succ k =>
      have := ih (a + 1) k (Memory.put_wf a b hm) (by simpa using h)
      simpa [Nat.add_assoc, Nat.add_comm 1 k] using this

end Sys2Proof.Machine
end

