-- ==== Sys2Proof/Laws/State.lean ====
section
/-! SUPPORT. Sys2Proof/Laws/State.lean: what each elementary update leaves of each part of the state, by rfl, and reading a part
after writing it. -/

namespace Sys2Proof.Machine

/-! ### Changing a part is setting it -/

@[simp] theorem State.onDie_eq (s : State) (d : DieId) (g : Die → Die) : s.onDie d g = s.setDie d (g (s.die d)) := rfl
@[simp] theorem State.onPort_eq (s : State) (p : PortId) (g : Port → Port) : s.onPort p g = s.setPort p (g (s.port p)) := rfl
@[simp] theorem State.onLink_eq (s : State) (p : PortId) (g : Link → Link) :
    s.onLink p g = s.setPort p { s.port p with link := g (s.port p).link } := rfl
@[simp] theorem State.onField_eq (s : State) (f : Fin 8) (g : Field → Field) : s.onField f g = s.setField f (g (s.field f)) := rfl
@[simp] theorem State.onHost_eq (s : State) (n : Fin 4) (g : HostPort → HostPort) : s.onHost n g = s.setHost n (g (s.host n)) := rfl
@[simp] theorem State.onPkg_eq (s : State) (n : Fin 4) (g : Pkg → Pkg) : s.onPkg n g = s.setPkg n (g (s.pkg n)) := rfl

/-- A loop over no element. -/
@[simp] theorem State.forEach_nil {α : Type} (s : State) (g : State → α → State) : s.forEach [] g = s := rfl
/-- A loop over a list starts with its first element. -/
@[simp] theorem State.forEach_cons {α : Type} (s : State) (a : α) (l : List α) (g : State → α → State) :
    s.forEach (a :: l) g = (g s a).forEach l g := rfl

/-- What every pass of a loop keeps, the loop keeps. -/
theorem State.forEach_keeps {α β : Type} (s : State) (l : List α) (g : State → α → State) (v : State → β)
    (h : ∀ u a, a ∈ l → v (g u a) = v u) : v (s.forEach l g) = v s := by
  induction l generalizing s with
  | nil => rfl
  | cons a r ih =>
    rw [State.forEach_cons, ih (g s a) (fun u b hb => h u b (List.mem_cons_of_mem _ hb)), h s a List.mem_cons_self]

/-- A property every pass of a loop keeps, the loop keeps. -/
theorem State.forEach_inv {α : Type} (s : State) (l : List α) (g : State → α → State) (P : State → Prop) (h0 : P s)
    (h : ∀ u a, a ∈ l → P u → P (g u a)) : P (s.forEach l g) := by
  induction l generalizing s with
  | nil => exact h0
  | cons a r ih => exact ih (g s a) (h s a List.mem_cons_self h0) fun u b hb => h u b (List.mem_cons_of_mem _ hb)

/-! ### setDie -/

@[simp] theorem State.setDie_pending (s : State) (d : DieId) (x : Die) : (s.setDie d x).pending = s.pending := rfl
@[simp] theorem State.setDie_waiting (s : State) (d : DieId) (x : Die) : (s.setDie d x).waiting = s.waiting := rfl
@[simp] theorem State.setDie_resumed (s : State) (d : DieId) (x : Die) : (s.setDie d x).resumed = s.resumed := rfl
@[simp] theorem State.setDie_wmReply (s : State) (d : DieId) (x : Die) : (s.setDie d x).wmReply = s.wmReply := rfl
@[simp] theorem State.setDie_now (s : State) (d : DieId) (x : Die) : (s.setDie d x).now = s.now := rfl
@[simp] theorem State.setDie_free (s : State) (d : DieId) (x : Die) : (s.setDie d x).free = s.free := rfl
@[simp] theorem State.setDie_effects (s : State) (d : DieId) (x : Die) : (s.setDie d x).effects = s.effects := rfl
@[simp] theorem State.setDie_serial (s : State) (d : DieId) (x : Die) : (s.setDie d x).serial = s.serial := rfl
@[simp] theorem State.setDie_bundle (s : State) (d : DieId) (x : Die) : (s.setDie d x).bundle = s.bundle := rfl
@[simp] theorem State.setDie_tray (s : State) (d : DieId) (x : Die) : (s.setDie d x).tray = s.tray := rfl
@[simp] theorem State.setDie_span (s : State) (d : DieId) (x : Die) : (s.setDie d x).span = s.span := rfl
@[simp] theorem State.setDie_peers (s : State) (d : DieId) (x : Die) : (s.setDie d x).peers = s.peers := rfl
@[simp] theorem State.setDie_serving (s : State) (d : DieId) (x : Die) : (s.setDie d x).serving = s.serving := rfl
@[simp] theorem State.setDie_targets (s : State) (d : DieId) (x : Die) : (s.setDie d x).targets = s.targets := rfl
@[simp] theorem State.setDie_ledgerEpoch (s : State) (d : DieId) (x : Die) : (s.setDie d x).ledgerEpoch = s.ledgerEpoch := rfl
@[simp] theorem State.setDie_leader (s : State) (d : DieId) (x : Die) : (s.setDie d x).leader = s.leader := rfl
@[simp] theorem State.setDie_cleaner (s : State) (d : DieId) (x : Die) : (s.setDie d x).cleaner = s.cleaner := rfl
@[simp] theorem State.setDie_trouble (s : State) (d : DieId) (x : Die) : (s.setDie d x).trouble = s.trouble := rfl
@[simp] theorem State.setDie_wm (s : State) (d : DieId) (x : Die) : (s.setDie d x).wm = s.wm := rfl
@[simp] theorem State.setDie_input (s : State) (d : DieId) (x : Die) : (s.setDie d x).input = s.input := rfl
@[simp] theorem State.setDie_capTray (s : State) (d : DieId) (x : Die) : (s.setDie d x).capTray = s.capTray := rfl
@[simp] theorem State.setDie_capPkg (s : State) (d : DieId) (x : Die) : (s.setDie d x).capPkg = s.capPkg := rfl
@[simp] theorem State.setDie_sfTimerMs (s : State) (d : DieId) (x : Die) : (s.setDie d x).sfTimerMs = s.sfTimerMs := rfl
@[simp] theorem State.setDie_trayHolder (s : State) (d : DieId) (x : Die) : (s.setDie d x).trayHolder = s.trayHolder := rfl
@[simp] theorem State.setDie_links (s : State) (d : DieId) (x : Die) : (s.setDie d x).links = s.links := rfl
@[simp] theorem State.setDie_fields (s : State) (d : DieId) (x : Die) : (s.setDie d x).fields = s.fields := rfl
@[simp] theorem State.setDie_scopes (s : State) (d : DieId) (x : Die) : (s.setDie d x).scopes = s.scopes := rfl
@[simp] theorem State.setDie_ports (s : State) (d : DieId) (x : Die) : (s.setDie d x).ports = s.ports := rfl
@[simp] theorem State.setDie_pkgs (s : State) (d : DieId) (x : Die) : (s.setDie d x).pkgs = s.pkgs := rfl
@[simp] theorem State.setDie_port (s : State) (d : DieId) (x : Die) (k : PortId) : (s.setDie d x).port k = s.port k := rfl
@[simp] theorem State.setDie_field (s : State) (d : DieId) (x : Die) (k : Fin 8) : (s.setDie d x).field k = s.field k := rfl
@[simp] theorem State.setDie_scope (s : State) (d : DieId) (x : Die) (k : Fin 9) : (s.setDie d x).scope k = s.scope k := rfl
@[simp] theorem State.setDie_host (s : State) (d : DieId) (x : Die) (k : Fin 4) : (s.setDie d x).host k = s.host k := rfl
@[simp] theorem State.setDie_chan (s : State) (d : DieId) (x : Die) (k : Fin 4) (c : Fin 9) : (s.setDie d x).chan k c = s.chan k c := rfl
@[simp] theorem State.setDie_pkg (s : State) (d : DieId) (x : Die) (k : Fin 4) : (s.setDie d x).pkg k = s.pkg k := rfl

/-! ### setPort -/

@[simp] theorem State.setPort_pending (s : State) (p : PortId) (x : Port) : (s.setPort p x).pending = s.pending := rfl
@[simp] theorem State.setPort_waiting (s : State) (p : PortId) (x : Port) : (s.setPort p x).waiting = s.waiting := rfl
@[simp] theorem State.setPort_resumed (s : State) (p : PortId) (x : Port) : (s.setPort p x).resumed = s.resumed := rfl
@[simp] theorem State.setPort_wmReply (s : State) (p : PortId) (x : Port) : (s.setPort p x).wmReply = s.wmReply := rfl
@[simp] theorem State.setPort_now (s : State) (p : PortId) (x : Port) : (s.setPort p x).now = s.now := rfl
@[simp] theorem State.setPort_free (s : State) (p : PortId) (x : Port) : (s.setPort p x).free = s.free := rfl
@[simp] theorem State.setPort_effects (s : State) (p : PortId) (x : Port) : (s.setPort p x).effects = s.effects := rfl
@[simp] theorem State.setPort_serial (s : State) (p : PortId) (x : Port) : (s.setPort p x).serial = s.serial := rfl
@[simp] theorem State.setPort_bundle (s : State) (p : PortId) (x : Port) : (s.setPort p x).bundle = s.bundle := rfl
@[simp] theorem State.setPort_tray (s : State) (p : PortId) (x : Port) : (s.setPort p x).tray = s.tray := rfl
@[simp] theorem State.setPort_span (s : State) (p : PortId) (x : Port) : (s.setPort p x).span = s.span := rfl
@[simp] theorem State.setPort_peers (s : State) (p : PortId) (x : Port) : (s.setPort p x).peers = s.peers := rfl
@[simp] theorem State.setPort_serving (s : State) (p : PortId) (x : Port) : (s.setPort p x).serving = s.serving := rfl
@[simp] theorem State.setPort_targets (s : State) (p : PortId) (x : Port) : (s.setPort p x).targets = s.targets := rfl
@[simp] theorem State.setPort_ledgerEpoch (s : State) (p : PortId) (x : Port) : (s.setPort p x).ledgerEpoch = s.ledgerEpoch := rfl
@[simp] theorem State.setPort_leader (s : State) (p : PortId) (x : Port) : (s.setPort p x).leader = s.leader := rfl
@[simp] theorem State.setPort_cleaner (s : State) (p : PortId) (x : Port) : (s.setPort p x).cleaner = s.cleaner := rfl
@[simp] theorem State.setPort_trouble (s : State) (p : PortId) (x : Port) : (s.setPort p x).trouble = s.trouble := rfl
@[simp] theorem State.setPort_wm (s : State) (p : PortId) (x : Port) : (s.setPort p x).wm = s.wm := rfl
@[simp] theorem State.setPort_input (s : State) (p : PortId) (x : Port) : (s.setPort p x).input = s.input := rfl
@[simp] theorem State.setPort_capTray (s : State) (p : PortId) (x : Port) : (s.setPort p x).capTray = s.capTray := rfl
@[simp] theorem State.setPort_capPkg (s : State) (p : PortId) (x : Port) : (s.setPort p x).capPkg = s.capPkg := rfl
@[simp] theorem State.setPort_sfTimerMs (s : State) (p : PortId) (x : Port) : (s.setPort p x).sfTimerMs = s.sfTimerMs := rfl
@[simp] theorem State.setPort_trayHolder (s : State) (p : PortId) (x : Port) : (s.setPort p x).trayHolder = s.trayHolder := rfl
@[simp] theorem State.setPort_dies (s : State) (p : PortId) (x : Port) : (s.setPort p x).dies = s.dies := rfl
@[simp] theorem State.setPort_fields (s : State) (p : PortId) (x : Port) : (s.setPort p x).fields = s.fields := rfl
@[simp] theorem State.setPort_scopes (s : State) (p : PortId) (x : Port) : (s.setPort p x).scopes = s.scopes := rfl
@[simp] theorem State.setPort_ports (s : State) (p : PortId) (x : Port) : (s.setPort p x).ports = s.ports := rfl
@[simp] theorem State.setPort_pkgs (s : State) (p : PortId) (x : Port) : (s.setPort p x).pkgs = s.pkgs := rfl
@[simp] theorem State.setPort_die (s : State) (p : PortId) (x : Port) (k : DieId) : (s.setPort p x).die k = s.die k := rfl
@[simp] theorem State.setPort_field (s : State) (p : PortId) (x : Port) (k : Fin 8) : (s.setPort p x).field k = s.field k := rfl
@[simp] theorem State.setPort_scope (s : State) (p : PortId) (x : Port) (k : Fin 9) : (s.setPort p x).scope k = s.scope k := rfl
@[simp] theorem State.setPort_host (s : State) (p : PortId) (x : Port) (k : Fin 4) : (s.setPort p x).host k = s.host k := rfl
@[simp] theorem State.setPort_chan (s : State) (p : PortId) (x : Port) (k : Fin 4) (c : Fin 9) : (s.setPort p x).chan k c = s.chan k c := rfl
@[simp] theorem State.setPort_pkg (s : State) (p : PortId) (x : Port) (k : Fin 4) : (s.setPort p x).pkg k = s.pkg k := rfl

/-! ### setField -/

@[simp] theorem State.setField_pending (s : State) (f : Fin 8) (x : Field) : (s.setField f x).pending = s.pending := rfl
@[simp] theorem State.setField_waiting (s : State) (f : Fin 8) (x : Field) : (s.setField f x).waiting = s.waiting := rfl
@[simp] theorem State.setField_resumed (s : State) (f : Fin 8) (x : Field) : (s.setField f x).resumed = s.resumed := rfl
@[simp] theorem State.setField_wmReply (s : State) (f : Fin 8) (x : Field) : (s.setField f x).wmReply = s.wmReply := rfl
@[simp] theorem State.setField_now (s : State) (f : Fin 8) (x : Field) : (s.setField f x).now = s.now := rfl
@[simp] theorem State.setField_free (s : State) (f : Fin 8) (x : Field) : (s.setField f x).free = s.free := rfl
@[simp] theorem State.setField_effects (s : State) (f : Fin 8) (x : Field) : (s.setField f x).effects = s.effects := rfl
@[simp] theorem State.setField_serial (s : State) (f : Fin 8) (x : Field) : (s.setField f x).serial = s.serial := rfl
@[simp] theorem State.setField_bundle (s : State) (f : Fin 8) (x : Field) : (s.setField f x).bundle = s.bundle := rfl
@[simp] theorem State.setField_tray (s : State) (f : Fin 8) (x : Field) : (s.setField f x).tray = s.tray := rfl
@[simp] theorem State.setField_span (s : State) (f : Fin 8) (x : Field) : (s.setField f x).span = s.span := rfl
@[simp] theorem State.setField_peers (s : State) (f : Fin 8) (x : Field) : (s.setField f x).peers = s.peers := rfl
@[simp] theorem State.setField_serving (s : State) (f : Fin 8) (x : Field) : (s.setField f x).serving = s.serving := rfl
@[simp] theorem State.setField_targets (s : State) (f : Fin 8) (x : Field) : (s.setField f x).targets = s.targets := rfl
@[simp] theorem State.setField_ledgerEpoch (s : State) (f : Fin 8) (x : Field) : (s.setField f x).ledgerEpoch = s.ledgerEpoch := rfl
@[simp] theorem State.setField_leader (s : State) (f : Fin 8) (x : Field) : (s.setField f x).leader = s.leader := rfl
@[simp] theorem State.setField_cleaner (s : State) (f : Fin 8) (x : Field) : (s.setField f x).cleaner = s.cleaner := rfl
@[simp] theorem State.setField_trouble (s : State) (f : Fin 8) (x : Field) : (s.setField f x).trouble = s.trouble := rfl
@[simp] theorem State.setField_wm (s : State) (f : Fin 8) (x : Field) : (s.setField f x).wm = s.wm := rfl
@[simp] theorem State.setField_input (s : State) (f : Fin 8) (x : Field) : (s.setField f x).input = s.input := rfl
@[simp] theorem State.setField_capTray (s : State) (f : Fin 8) (x : Field) : (s.setField f x).capTray = s.capTray := rfl
@[simp] theorem State.setField_capPkg (s : State) (f : Fin 8) (x : Field) : (s.setField f x).capPkg = s.capPkg := rfl
@[simp] theorem State.setField_sfTimerMs (s : State) (f : Fin 8) (x : Field) : (s.setField f x).sfTimerMs = s.sfTimerMs := rfl
@[simp] theorem State.setField_trayHolder (s : State) (f : Fin 8) (x : Field) : (s.setField f x).trayHolder = s.trayHolder := rfl
@[simp] theorem State.setField_dies (s : State) (f : Fin 8) (x : Field) : (s.setField f x).dies = s.dies := rfl
@[simp] theorem State.setField_links (s : State) (f : Fin 8) (x : Field) : (s.setField f x).links = s.links := rfl
@[simp] theorem State.setField_scopes (s : State) (f : Fin 8) (x : Field) : (s.setField f x).scopes = s.scopes := rfl
@[simp] theorem State.setField_ports (s : State) (f : Fin 8) (x : Field) : (s.setField f x).ports = s.ports := rfl
@[simp] theorem State.setField_pkgs (s : State) (f : Fin 8) (x : Field) : (s.setField f x).pkgs = s.pkgs := rfl
@[simp] theorem State.setField_die (s : State) (f : Fin 8) (x : Field) (k : DieId) : (s.setField f x).die k = s.die k := rfl
@[simp] theorem State.setField_port (s : State) (f : Fin 8) (x : Field) (k : PortId) : (s.setField f x).port k = s.port k := rfl
@[simp] theorem State.setField_scope (s : State) (f : Fin 8) (x : Field) (k : Fin 9) : (s.setField f x).scope k = s.scope k := rfl
@[simp] theorem State.setField_host (s : State) (f : Fin 8) (x : Field) (k : Fin 4) : (s.setField f x).host k = s.host k := rfl
@[simp] theorem State.setField_chan (s : State) (f : Fin 8) (x : Field) (k : Fin 4) (c : Fin 9) : (s.setField f x).chan k c = s.chan k c := rfl
@[simp] theorem State.setField_pkg (s : State) (f : Fin 8) (x : Field) (k : Fin 4) : (s.setField f x).pkg k = s.pkg k := rfl

/-! ### setScope -/

@[simp] theorem State.setScope_pending (s : State) (n : Fin 9) (x : Scope) : (s.setScope n x).pending = s.pending := rfl
@[simp] theorem State.setScope_waiting (s : State) (n : Fin 9) (x : Scope) : (s.setScope n x).waiting = s.waiting := rfl
@[simp] theorem State.setScope_resumed (s : State) (n : Fin 9) (x : Scope) : (s.setScope n x).resumed = s.resumed := rfl
@[simp] theorem State.setScope_wmReply (s : State) (n : Fin 9) (x : Scope) : (s.setScope n x).wmReply = s.wmReply := rfl
@[simp] theorem State.setScope_now (s : State) (n : Fin 9) (x : Scope) : (s.setScope n x).now = s.now := rfl
@[simp] theorem State.setScope_free (s : State) (n : Fin 9) (x : Scope) : (s.setScope n x).free = s.free := rfl
@[simp] theorem State.setScope_effects (s : State) (n : Fin 9) (x : Scope) : (s.setScope n x).effects = s.effects := rfl
@[simp] theorem State.setScope_serial (s : State) (n : Fin 9) (x : Scope) : (s.setScope n x).serial = s.serial := rfl
@[simp] theorem State.setScope_bundle (s : State) (n : Fin 9) (x : Scope) : (s.setScope n x).bundle = s.bundle := rfl
@[simp] theorem State.setScope_tray (s : State) (n : Fin 9) (x : Scope) : (s.setScope n x).tray = s.tray := rfl
@[simp] theorem State.setScope_span (s : State) (n : Fin 9) (x : Scope) : (s.setScope n x).span = s.span := rfl
@[simp] theorem State.setScope_peers (s : State) (n : Fin 9) (x : Scope) : (s.setScope n x).peers = s.peers := rfl
@[simp] theorem State.setScope_serving (s : State) (n : Fin 9) (x : Scope) : (s.setScope n x).serving = s.serving := rfl
@[simp] theorem State.setScope_targets (s : State) (n : Fin 9) (x : Scope) : (s.setScope n x).targets = s.targets := rfl
@[simp] theorem State.setScope_ledgerEpoch (s : State) (n : Fin 9) (x : Scope) : (s.setScope n x).ledgerEpoch = s.ledgerEpoch := rfl
@[simp] theorem State.setScope_leader (s : State) (n : Fin 9) (x : Scope) : (s.setScope n x).leader = s.leader := rfl
@[simp] theorem State.setScope_cleaner (s : State) (n : Fin 9) (x : Scope) : (s.setScope n x).cleaner = s.cleaner := rfl
@[simp] theorem State.setScope_trouble (s : State) (n : Fin 9) (x : Scope) : (s.setScope n x).trouble = s.trouble := rfl
@[simp] theorem State.setScope_wm (s : State) (n : Fin 9) (x : Scope) : (s.setScope n x).wm = s.wm := rfl
@[simp] theorem State.setScope_input (s : State) (n : Fin 9) (x : Scope) : (s.setScope n x).input = s.input := rfl
@[simp] theorem State.setScope_capTray (s : State) (n : Fin 9) (x : Scope) : (s.setScope n x).capTray = s.capTray := rfl
@[simp] theorem State.setScope_capPkg (s : State) (n : Fin 9) (x : Scope) : (s.setScope n x).capPkg = s.capPkg := rfl
@[simp] theorem State.setScope_sfTimerMs (s : State) (n : Fin 9) (x : Scope) : (s.setScope n x).sfTimerMs = s.sfTimerMs := rfl
@[simp] theorem State.setScope_trayHolder (s : State) (n : Fin 9) (x : Scope) : (s.setScope n x).trayHolder = s.trayHolder := rfl
@[simp] theorem State.setScope_dies (s : State) (n : Fin 9) (x : Scope) : (s.setScope n x).dies = s.dies := rfl
@[simp] theorem State.setScope_links (s : State) (n : Fin 9) (x : Scope) : (s.setScope n x).links = s.links := rfl
@[simp] theorem State.setScope_fields (s : State) (n : Fin 9) (x : Scope) : (s.setScope n x).fields = s.fields := rfl
@[simp] theorem State.setScope_ports (s : State) (n : Fin 9) (x : Scope) : (s.setScope n x).ports = s.ports := rfl
@[simp] theorem State.setScope_pkgs (s : State) (n : Fin 9) (x : Scope) : (s.setScope n x).pkgs = s.pkgs := rfl
@[simp] theorem State.setScope_die (s : State) (n : Fin 9) (x : Scope) (k : DieId) : (s.setScope n x).die k = s.die k := rfl
@[simp] theorem State.setScope_port (s : State) (n : Fin 9) (x : Scope) (k : PortId) : (s.setScope n x).port k = s.port k := rfl
@[simp] theorem State.setScope_field (s : State) (n : Fin 9) (x : Scope) (k : Fin 8) : (s.setScope n x).field k = s.field k := rfl
@[simp] theorem State.setScope_host (s : State) (n : Fin 9) (x : Scope) (k : Fin 4) : (s.setScope n x).host k = s.host k := rfl
@[simp] theorem State.setScope_chan (s : State) (n : Fin 9) (x : Scope) (k : Fin 4) (c : Fin 9) : (s.setScope n x).chan k c = s.chan k c := rfl
@[simp] theorem State.setScope_pkg (s : State) (n : Fin 9) (x : Scope) (k : Fin 4) : (s.setScope n x).pkg k = s.pkg k := rfl

/-! ### setHost -/

@[simp] theorem State.setHost_pending (s : State) (n : Fin 4) (x : HostPort) : (s.setHost n x).pending = s.pending := rfl
@[simp] theorem State.setHost_waiting (s : State) (n : Fin 4) (x : HostPort) : (s.setHost n x).waiting = s.waiting := rfl
@[simp] theorem State.setHost_resumed (s : State) (n : Fin 4) (x : HostPort) : (s.setHost n x).resumed = s.resumed := rfl
@[simp] theorem State.setHost_wmReply (s : State) (n : Fin 4) (x : HostPort) : (s.setHost n x).wmReply = s.wmReply := rfl
@[simp] theorem State.setHost_now (s : State) (n : Fin 4) (x : HostPort) : (s.setHost n x).now = s.now := rfl
@[simp] theorem State.setHost_free (s : State) (n : Fin 4) (x : HostPort) : (s.setHost n x).free = s.free := rfl
@[simp] theorem State.setHost_effects (s : State) (n : Fin 4) (x : HostPort) : (s.setHost n x).effects = s.effects := rfl
@[simp] theorem State.setHost_serial (s : State) (n : Fin 4) (x : HostPort) : (s.setHost n x).serial = s.serial := rfl
@[simp] theorem State.setHost_bundle (s : State) (n : Fin 4) (x : HostPort) : (s.setHost n x).bundle = s.bundle := rfl
@[simp] theorem State.setHost_tray (s : State) (n : Fin 4) (x : HostPort) : (s.setHost n x).tray = s.tray := rfl
@[simp] theorem State.setHost_span (s : State) (n : Fin 4) (x : HostPort) : (s.setHost n x).span = s.span := rfl
@[simp] theorem State.setHost_peers (s : State) (n : Fin 4) (x : HostPort) : (s.setHost n x).peers = s.peers := rfl
@[simp] theorem State.setHost_serving (s : State) (n : Fin 4) (x : HostPort) : (s.setHost n x).serving = s.serving := rfl
@[simp] theorem State.setHost_targets (s : State) (n : Fin 4) (x : HostPort) : (s.setHost n x).targets = s.targets := rfl
@[simp] theorem State.setHost_ledgerEpoch (s : State) (n : Fin 4) (x : HostPort) : (s.setHost n x).ledgerEpoch = s.ledgerEpoch := rfl
@[simp] theorem State.setHost_leader (s : State) (n : Fin 4) (x : HostPort) : (s.setHost n x).leader = s.leader := rfl
@[simp] theorem State.setHost_cleaner (s : State) (n : Fin 4) (x : HostPort) : (s.setHost n x).cleaner = s.cleaner := rfl
@[simp] theorem State.setHost_trouble (s : State) (n : Fin 4) (x : HostPort) : (s.setHost n x).trouble = s.trouble := rfl
@[simp] theorem State.setHost_wm (s : State) (n : Fin 4) (x : HostPort) : (s.setHost n x).wm = s.wm := rfl
@[simp] theorem State.setHost_input (s : State) (n : Fin 4) (x : HostPort) : (s.setHost n x).input = s.input := rfl
@[simp] theorem State.setHost_capTray (s : State) (n : Fin 4) (x : HostPort) : (s.setHost n x).capTray = s.capTray := rfl
@[simp] theorem State.setHost_capPkg (s : State) (n : Fin 4) (x : HostPort) : (s.setHost n x).capPkg = s.capPkg := rfl
@[simp] theorem State.setHost_sfTimerMs (s : State) (n : Fin 4) (x : HostPort) : (s.setHost n x).sfTimerMs = s.sfTimerMs := rfl
@[simp] theorem State.setHost_trayHolder (s : State) (n : Fin 4) (x : HostPort) : (s.setHost n x).trayHolder = s.trayHolder := rfl
@[simp] theorem State.setHost_dies (s : State) (n : Fin 4) (x : HostPort) : (s.setHost n x).dies = s.dies := rfl
@[simp] theorem State.setHost_links (s : State) (n : Fin 4) (x : HostPort) : (s.setHost n x).links = s.links := rfl
@[simp] theorem State.setHost_fields (s : State) (n : Fin 4) (x : HostPort) : (s.setHost n x).fields = s.fields := rfl
@[simp] theorem State.setHost_scopes (s : State) (n : Fin 4) (x : HostPort) : (s.setHost n x).scopes = s.scopes := rfl
@[simp] theorem State.setHost_pkgs (s : State) (n : Fin 4) (x : HostPort) : (s.setHost n x).pkgs = s.pkgs := rfl
@[simp] theorem State.setHost_die (s : State) (n : Fin 4) (x : HostPort) (k : DieId) : (s.setHost n x).die k = s.die k := rfl
@[simp] theorem State.setHost_port (s : State) (n : Fin 4) (x : HostPort) (k : PortId) : (s.setHost n x).port k = s.port k := rfl
@[simp] theorem State.setHost_field (s : State) (n : Fin 4) (x : HostPort) (k : Fin 8) : (s.setHost n x).field k = s.field k := rfl
@[simp] theorem State.setHost_scope (s : State) (n : Fin 4) (x : HostPort) (k : Fin 9) : (s.setHost n x).scope k = s.scope k := rfl
@[simp] theorem State.setHost_pkg (s : State) (n : Fin 4) (x : HostPort) (k : Fin 4) : (s.setHost n x).pkg k = s.pkg k := rfl

/-! ### setChan -/

@[simp] theorem State.setChan_pending (s : State) (n : Fin 4) (j : Fin 9) (x : Chan) : (s.setChan n j x).pending = s.pending := rfl
@[simp] theorem State.setChan_waiting (s : State) (n : Fin 4) (j : Fin 9) (x : Chan) : (s.setChan n j x).waiting = s.waiting := rfl
@[simp] theorem State.setChan_resumed (s : State) (n : Fin 4) (j : Fin 9) (x : Chan) : (s.setChan n j x).resumed = s.resumed := rfl
@[simp] theorem State.setChan_wmReply (s : State) (n : Fin 4) (j : Fin 9) (x : Chan) : (s.setChan n j x).wmReply = s.wmReply := rfl
@[simp] theorem State.setChan_now (s : State) (n : Fin 4) (j : Fin 9) (x : Chan) : (s.setChan n j x).now = s.now := rfl
@[simp] theorem State.setChan_free (s : State) (n : Fin 4) (j : Fin 9) (x : Chan) : (s.setChan n j x).free = s.free := rfl
@[simp] theorem State.setChan_effects (s : State) (n : Fin 4) (j : Fin 9) (x : Chan) : (s.setChan n j x).effects = s.effects := rfl
@[simp] theorem State.setChan_serial (s : State) (n : Fin 4) (j : Fin 9) (x : Chan) : (s.setChan n j x).serial = s.serial := rfl
@[simp] theorem State.setChan_bundle (s : State) (n : Fin 4) (j : Fin 9) (x : Chan) : (s.setChan n j x).bundle = s.bundle := rfl
@[simp] theorem State.setChan_tray (s : State) (n : Fin 4) (j : Fin 9) (x : Chan) : (s.setChan n j x).tray = s.tray := rfl
@[simp] theorem State.setChan_span (s : State) (n : Fin 4) (j : Fin 9) (x : Chan) : (s.setChan n j x).span = s.span := rfl
@[simp] theorem State.setChan_peers (s : State) (n : Fin 4) (j : Fin 9) (x : Chan) : (s.setChan n j x).peers = s.peers := rfl
@[simp] theorem State.setChan_serving (s : State) (n : Fin 4) (j : Fin 9) (x : Chan) : (s.setChan n j x).serving = s.serving := rfl
@[simp] theorem State.setChan_targets (s : State) (n : Fin 4) (j : Fin 9) (x : Chan) : (s.setChan n j x).targets = s.targets := rfl
@[simp] theorem State.setChan_ledgerEpoch (s : State) (n : Fin 4) (j : Fin 9) (x : Chan) : (s.setChan n j x).ledgerEpoch = s.ledgerEpoch := rfl
@[simp] theorem State.setChan_leader (s : State) (n : Fin 4) (j : Fin 9) (x : Chan) : (s.setChan n j x).leader = s.leader := rfl
@[simp] theorem State.setChan_cleaner (s : State) (n : Fin 4) (j : Fin 9) (x : Chan) : (s.setChan n j x).cleaner = s.cleaner := rfl
@[simp] theorem State.setChan_trouble (s : State) (n : Fin 4) (j : Fin 9) (x : Chan) : (s.setChan n j x).trouble = s.trouble := rfl
@[simp] theorem State.setChan_wm (s : State) (n : Fin 4) (j : Fin 9) (x : Chan) : (s.setChan n j x).wm = s.wm := rfl
@[simp] theorem State.setChan_input (s : State) (n : Fin 4) (j : Fin 9) (x : Chan) : (s.setChan n j x).input = s.input := rfl
@[simp] theorem State.setChan_capTray (s : State) (n : Fin 4) (j : Fin 9) (x : Chan) : (s.setChan n j x).capTray = s.capTray := rfl
@[simp] theorem State.setChan_capPkg (s : State) (n : Fin 4) (j : Fin 9) (x : Chan) : (s.setChan n j x).capPkg = s.capPkg := rfl
@[simp] theorem State.setChan_sfTimerMs (s : State) (n : Fin 4) (j : Fin 9) (x : Chan) : (s.setChan n j x).sfTimerMs = s.sfTimerMs := rfl
@[simp] theorem State.setChan_trayHolder (s : State) (n : Fin 4) (j : Fin 9) (x : Chan) : (s.setChan n j x).trayHolder = s.trayHolder := rfl
@[simp] theorem State.setChan_dies (s : State) (n : Fin 4) (j : Fin 9) (x : Chan) : (s.setChan n j x).dies = s.dies := rfl
@[simp] theorem State.setChan_links (s : State) (n : Fin 4) (j : Fin 9) (x : Chan) : (s.setChan n j x).links = s.links := rfl
@[simp] theorem State.setChan_fields (s : State) (n : Fin 4) (j : Fin 9) (x : Chan) : (s.setChan n j x).fields = s.fields := rfl
@[simp] theorem State.setChan_scopes (s : State) (n : Fin 4) (j : Fin 9) (x : Chan) : (s.setChan n j x).scopes = s.scopes := rfl
@[simp] theorem State.setChan_pkgs (s : State) (n : Fin 4) (j : Fin 9) (x : Chan) : (s.setChan n j x).pkgs = s.pkgs := rfl
@[simp] theorem State.setChan_die (s : State) (n : Fin 4) (j : Fin 9) (x : Chan) (k : DieId) : (s.setChan n j x).die k = s.die k := rfl
@[simp] theorem State.setChan_port (s : State) (n : Fin 4) (j : Fin 9) (x : Chan) (k : PortId) : (s.setChan n j x).port k = s.port k := rfl
@[simp] theorem State.setChan_field (s : State) (n : Fin 4) (j : Fin 9) (x : Chan) (k : Fin 8) : (s.setChan n j x).field k = s.field k := rfl
@[simp] theorem State.setChan_scope (s : State) (n : Fin 4) (j : Fin 9) (x : Chan) (k : Fin 9) : (s.setChan n j x).scope k = s.scope k := rfl
@[simp] theorem State.setChan_pkg (s : State) (n : Fin 4) (j : Fin 9) (x : Chan) (k : Fin 4) : (s.setChan n j x).pkg k = s.pkg k := rfl

/-! ### setPkg -/

@[simp] theorem State.setPkg_pending (s : State) (n : Fin 4) (x : Pkg) : (s.setPkg n x).pending = s.pending := rfl
@[simp] theorem State.setPkg_waiting (s : State) (n : Fin 4) (x : Pkg) : (s.setPkg n x).waiting = s.waiting := rfl
@[simp] theorem State.setPkg_resumed (s : State) (n : Fin 4) (x : Pkg) : (s.setPkg n x).resumed = s.resumed := rfl
@[simp] theorem State.setPkg_wmReply (s : State) (n : Fin 4) (x : Pkg) : (s.setPkg n x).wmReply = s.wmReply := rfl
@[simp] theorem State.setPkg_now (s : State) (n : Fin 4) (x : Pkg) : (s.setPkg n x).now = s.now := rfl
@[simp] theorem State.setPkg_free (s : State) (n : Fin 4) (x : Pkg) : (s.setPkg n x).free = s.free := rfl
@[simp] theorem State.setPkg_effects (s : State) (n : Fin 4) (x : Pkg) : (s.setPkg n x).effects = s.effects := rfl
@[simp] theorem State.setPkg_serial (s : State) (n : Fin 4) (x : Pkg) : (s.setPkg n x).serial = s.serial := rfl
@[simp] theorem State.setPkg_bundle (s : State) (n : Fin 4) (x : Pkg) : (s.setPkg n x).bundle = s.bundle := rfl
@[simp] theorem State.setPkg_tray (s : State) (n : Fin 4) (x : Pkg) : (s.setPkg n x).tray = s.tray := rfl
@[simp] theorem State.setPkg_span (s : State) (n : Fin 4) (x : Pkg) : (s.setPkg n x).span = s.span := rfl
@[simp] theorem State.setPkg_peers (s : State) (n : Fin 4) (x : Pkg) : (s.setPkg n x).peers = s.peers := rfl
@[simp] theorem State.setPkg_serving (s : State) (n : Fin 4) (x : Pkg) : (s.setPkg n x).serving = s.serving := rfl
@[simp] theorem State.setPkg_targets (s : State) (n : Fin 4) (x : Pkg) : (s.setPkg n x).targets = s.targets := rfl
@[simp] theorem State.setPkg_ledgerEpoch (s : State) (n : Fin 4) (x : Pkg) : (s.setPkg n x).ledgerEpoch = s.ledgerEpoch := rfl
@[simp] theorem State.setPkg_leader (s : State) (n : Fin 4) (x : Pkg) : (s.setPkg n x).leader = s.leader := rfl
@[simp] theorem State.setPkg_cleaner (s : State) (n : Fin 4) (x : Pkg) : (s.setPkg n x).cleaner = s.cleaner := rfl
@[simp] theorem State.setPkg_trouble (s : State) (n : Fin 4) (x : Pkg) : (s.setPkg n x).trouble = s.trouble := rfl
@[simp] theorem State.setPkg_wm (s : State) (n : Fin 4) (x : Pkg) : (s.setPkg n x).wm = s.wm := rfl
@[simp] theorem State.setPkg_input (s : State) (n : Fin 4) (x : Pkg) : (s.setPkg n x).input = s.input := rfl
@[simp] theorem State.setPkg_capTray (s : State) (n : Fin 4) (x : Pkg) : (s.setPkg n x).capTray = s.capTray := rfl
@[simp] theorem State.setPkg_capPkg (s : State) (n : Fin 4) (x : Pkg) : (s.setPkg n x).capPkg = s.capPkg := rfl
@[simp] theorem State.setPkg_sfTimerMs (s : State) (n : Fin 4) (x : Pkg) : (s.setPkg n x).sfTimerMs = s.sfTimerMs := rfl
@[simp] theorem State.setPkg_trayHolder (s : State) (n : Fin 4) (x : Pkg) : (s.setPkg n x).trayHolder = s.trayHolder := rfl
@[simp] theorem State.setPkg_dies (s : State) (n : Fin 4) (x : Pkg) : (s.setPkg n x).dies = s.dies := rfl
@[simp] theorem State.setPkg_links (s : State) (n : Fin 4) (x : Pkg) : (s.setPkg n x).links = s.links := rfl
@[simp] theorem State.setPkg_fields (s : State) (n : Fin 4) (x : Pkg) : (s.setPkg n x).fields = s.fields := rfl
@[simp] theorem State.setPkg_scopes (s : State) (n : Fin 4) (x : Pkg) : (s.setPkg n x).scopes = s.scopes := rfl
@[simp] theorem State.setPkg_ports (s : State) (n : Fin 4) (x : Pkg) : (s.setPkg n x).ports = s.ports := rfl
@[simp] theorem State.setPkg_die (s : State) (n : Fin 4) (x : Pkg) (k : DieId) : (s.setPkg n x).die k = s.die k := rfl
@[simp] theorem State.setPkg_port (s : State) (n : Fin 4) (x : Pkg) (k : PortId) : (s.setPkg n x).port k = s.port k := rfl
@[simp] theorem State.setPkg_field (s : State) (n : Fin 4) (x : Pkg) (k : Fin 8) : (s.setPkg n x).field k = s.field k := rfl
@[simp] theorem State.setPkg_scope (s : State) (n : Fin 4) (x : Pkg) (k : Fin 9) : (s.setPkg n x).scope k = s.scope k := rfl
@[simp] theorem State.setPkg_host (s : State) (n : Fin 4) (x : Pkg) (k : Fin 4) : (s.setPkg n x).host k = s.host k := rfl
@[simp] theorem State.setPkg_chan (s : State) (n : Fin 4) (x : Pkg) (k : Fin 4) (c : Fin 9) : (s.setPkg n x).chan k c = s.chan k c := rfl

/-! ### onWm -/

@[simp] theorem State.onWm_pending (s : State) (g : Wm → Wm) : (s.onWm g).pending = s.pending := rfl
@[simp] theorem State.onWm_waiting (s : State) (g : Wm → Wm) : (s.onWm g).waiting = s.waiting := rfl
@[simp] theorem State.onWm_resumed (s : State) (g : Wm → Wm) : (s.onWm g).resumed = s.resumed := rfl
@[simp] theorem State.onWm_wmReply (s : State) (g : Wm → Wm) : (s.onWm g).wmReply = s.wmReply := rfl
@[simp] theorem State.onWm_now (s : State) (g : Wm → Wm) : (s.onWm g).now = s.now := rfl
@[simp] theorem State.onWm_free (s : State) (g : Wm → Wm) : (s.onWm g).free = s.free := rfl
@[simp] theorem State.onWm_effects (s : State) (g : Wm → Wm) : (s.onWm g).effects = s.effects := rfl
@[simp] theorem State.onWm_serial (s : State) (g : Wm → Wm) : (s.onWm g).serial = s.serial := rfl
@[simp] theorem State.onWm_bundle (s : State) (g : Wm → Wm) : (s.onWm g).bundle = s.bundle := rfl
@[simp] theorem State.onWm_tray (s : State) (g : Wm → Wm) : (s.onWm g).tray = s.tray := rfl
@[simp] theorem State.onWm_span (s : State) (g : Wm → Wm) : (s.onWm g).span = s.span := rfl
@[simp] theorem State.onWm_peers (s : State) (g : Wm → Wm) : (s.onWm g).peers = s.peers := rfl
@[simp] theorem State.onWm_serving (s : State) (g : Wm → Wm) : (s.onWm g).serving = s.serving := rfl
@[simp] theorem State.onWm_targets (s : State) (g : Wm → Wm) : (s.onWm g).targets = s.targets := rfl
@[simp] theorem State.onWm_ledgerEpoch (s : State) (g : Wm → Wm) : (s.onWm g).ledgerEpoch = s.ledgerEpoch := rfl
@[simp] theorem State.onWm_leader (s : State) (g : Wm → Wm) : (s.onWm g).leader = s.leader := rfl
@[simp] theorem State.onWm_cleaner (s : State) (g : Wm → Wm) : (s.onWm g).cleaner = s.cleaner := rfl
@[simp] theorem State.onWm_trouble (s : State) (g : Wm → Wm) : (s.onWm g).trouble = s.trouble := rfl
@[simp] theorem State.onWm_input (s : State) (g : Wm → Wm) : (s.onWm g).input = s.input := rfl
@[simp] theorem State.onWm_capTray (s : State) (g : Wm → Wm) : (s.onWm g).capTray = s.capTray := rfl
@[simp] theorem State.onWm_capPkg (s : State) (g : Wm → Wm) : (s.onWm g).capPkg = s.capPkg := rfl
@[simp] theorem State.onWm_sfTimerMs (s : State) (g : Wm → Wm) : (s.onWm g).sfTimerMs = s.sfTimerMs := rfl
@[simp] theorem State.onWm_trayHolder (s : State) (g : Wm → Wm) : (s.onWm g).trayHolder = s.trayHolder := rfl
@[simp] theorem State.onWm_dies (s : State) (g : Wm → Wm) : (s.onWm g).dies = s.dies := rfl
@[simp] theorem State.onWm_links (s : State) (g : Wm → Wm) : (s.onWm g).links = s.links := rfl
@[simp] theorem State.onWm_fields (s : State) (g : Wm → Wm) : (s.onWm g).fields = s.fields := rfl
@[simp] theorem State.onWm_scopes (s : State) (g : Wm → Wm) : (s.onWm g).scopes = s.scopes := rfl
@[simp] theorem State.onWm_ports (s : State) (g : Wm → Wm) : (s.onWm g).ports = s.ports := rfl
@[simp] theorem State.onWm_pkgs (s : State) (g : Wm → Wm) : (s.onWm g).pkgs = s.pkgs := rfl
@[simp] theorem State.onWm_die (s : State) (g : Wm → Wm) (k : DieId) : (s.onWm g).die k = s.die k := rfl
@[simp] theorem State.onWm_port (s : State) (g : Wm → Wm) (k : PortId) : (s.onWm g).port k = s.port k := rfl
@[simp] theorem State.onWm_field (s : State) (g : Wm → Wm) (k : Fin 8) : (s.onWm g).field k = s.field k := rfl
@[simp] theorem State.onWm_scope (s : State) (g : Wm → Wm) (k : Fin 9) : (s.onWm g).scope k = s.scope k := rfl
@[simp] theorem State.onWm_host (s : State) (g : Wm → Wm) (k : Fin 4) : (s.onWm g).host k = s.host k := rfl
@[simp] theorem State.onWm_chan (s : State) (g : Wm → Wm) (k : Fin 4) (c : Fin 9) : (s.onWm g).chan k c = s.chan k c := rfl
@[simp] theorem State.onWm_pkg (s : State) (g : Wm → Wm) (k : Fin 4) : (s.onWm g).pkg k = s.pkg k := rfl

/-! ### emit -/

@[simp] theorem State.emit_pending (s : State) (e : Effect) : (s.emit e).pending = s.pending := rfl
@[simp] theorem State.emit_waiting (s : State) (e : Effect) : (s.emit e).waiting = s.waiting := rfl
@[simp] theorem State.emit_resumed (s : State) (e : Effect) : (s.emit e).resumed = s.resumed := rfl
@[simp] theorem State.emit_wmReply (s : State) (e : Effect) : (s.emit e).wmReply = s.wmReply := rfl
@[simp] theorem State.emit_now (s : State) (e : Effect) : (s.emit e).now = s.now := rfl
@[simp] theorem State.emit_free (s : State) (e : Effect) : (s.emit e).free = s.free := rfl
@[simp] theorem State.emit_serial (s : State) (e : Effect) : (s.emit e).serial = s.serial := rfl
@[simp] theorem State.emit_bundle (s : State) (e : Effect) : (s.emit e).bundle = s.bundle := rfl
@[simp] theorem State.emit_tray (s : State) (e : Effect) : (s.emit e).tray = s.tray := rfl
@[simp] theorem State.emit_span (s : State) (e : Effect) : (s.emit e).span = s.span := rfl
@[simp] theorem State.emit_peers (s : State) (e : Effect) : (s.emit e).peers = s.peers := rfl
@[simp] theorem State.emit_serving (s : State) (e : Effect) : (s.emit e).serving = s.serving := rfl
@[simp] theorem State.emit_targets (s : State) (e : Effect) : (s.emit e).targets = s.targets := rfl
@[simp] theorem State.emit_ledgerEpoch (s : State) (e : Effect) : (s.emit e).ledgerEpoch = s.ledgerEpoch := rfl
@[simp] theorem State.emit_leader (s : State) (e : Effect) : (s.emit e).leader = s.leader := rfl
@[simp] theorem State.emit_cleaner (s : State) (e : Effect) : (s.emit e).cleaner = s.cleaner := rfl
@[simp] theorem State.emit_trouble (s : State) (e : Effect) : (s.emit e).trouble = s.trouble := rfl
@[simp] theorem State.emit_wm (s : State) (e : Effect) : (s.emit e).wm = s.wm := rfl
@[simp] theorem State.emit_input (s : State) (e : Effect) : (s.emit e).input = s.input := rfl
@[simp] theorem State.emit_capTray (s : State) (e : Effect) : (s.emit e).capTray = s.capTray := rfl
@[simp] theorem State.emit_capPkg (s : State) (e : Effect) : (s.emit e).capPkg = s.capPkg := rfl
@[simp] theorem State.emit_sfTimerMs (s : State) (e : Effect) : (s.emit e).sfTimerMs = s.sfTimerMs := rfl
@[simp] theorem State.emit_trayHolder (s : State) (e : Effect) : (s.emit e).trayHolder = s.trayHolder := rfl
@[simp] theorem State.emit_dies (s : State) (e : Effect) : (s.emit e).dies = s.dies := rfl
@[simp] theorem State.emit_links (s : State) (e : Effect) : (s.emit e).links = s.links := rfl
@[simp] theorem State.emit_fields (s : State) (e : Effect) : (s.emit e).fields = s.fields := rfl
@[simp] theorem State.emit_scopes (s : State) (e : Effect) : (s.emit e).scopes = s.scopes := rfl
@[simp] theorem State.emit_ports (s : State) (e : Effect) : (s.emit e).ports = s.ports := rfl
@[simp] theorem State.emit_pkgs (s : State) (e : Effect) : (s.emit e).pkgs = s.pkgs := rfl
@[simp] theorem State.emit_die (s : State) (e : Effect) (k : DieId) : (s.emit e).die k = s.die k := rfl
@[simp] theorem State.emit_port (s : State) (e : Effect) (k : PortId) : (s.emit e).port k = s.port k := rfl
@[simp] theorem State.emit_field (s : State) (e : Effect) (k : Fin 8) : (s.emit e).field k = s.field k := rfl
@[simp] theorem State.emit_scope (s : State) (e : Effect) (k : Fin 9) : (s.emit e).scope k = s.scope k := rfl
@[simp] theorem State.emit_host (s : State) (e : Effect) (k : Fin 4) : (s.emit e).host k = s.host k := rfl
@[simp] theorem State.emit_chan (s : State) (e : Effect) (k : Fin 4) (c : Fin 9) : (s.emit e).chan k c = s.chan k c := rfl
@[simp] theorem State.emit_pkg (s : State) (e : Effect) (k : Fin 4) : (s.emit e).pkg k = s.pkg k := rfl

/-! ### spend -/

@[simp] theorem State.spend_pending (s : State)  : (s.spend).pending = s.pending := rfl
@[simp] theorem State.spend_waiting (s : State)  : (s.spend).waiting = s.waiting := rfl
@[simp] theorem State.spend_resumed (s : State)  : (s.spend).resumed = s.resumed := rfl
@[simp] theorem State.spend_wmReply (s : State)  : (s.spend).wmReply = s.wmReply := rfl
@[simp] theorem State.spend_now (s : State)  : (s.spend).now = s.now := rfl
@[simp] theorem State.spend_effects (s : State)  : (s.spend).effects = s.effects := rfl
@[simp] theorem State.spend_serial (s : State)  : (s.spend).serial = s.serial := rfl
@[simp] theorem State.spend_bundle (s : State)  : (s.spend).bundle = s.bundle := rfl
@[simp] theorem State.spend_tray (s : State)  : (s.spend).tray = s.tray := rfl
@[simp] theorem State.spend_span (s : State)  : (s.spend).span = s.span := rfl
@[simp] theorem State.spend_peers (s : State)  : (s.spend).peers = s.peers := rfl
@[simp] theorem State.spend_serving (s : State)  : (s.spend).serving = s.serving := rfl
@[simp] theorem State.spend_targets (s : State)  : (s.spend).targets = s.targets := rfl
@[simp] theorem State.spend_ledgerEpoch (s : State)  : (s.spend).ledgerEpoch = s.ledgerEpoch := rfl
@[simp] theorem State.spend_leader (s : State)  : (s.spend).leader = s.leader := rfl
@[simp] theorem State.spend_cleaner (s : State)  : (s.spend).cleaner = s.cleaner := rfl
@[simp] theorem State.spend_trouble (s : State)  : (s.spend).trouble = s.trouble := rfl
@[simp] theorem State.spend_wm (s : State)  : (s.spend).wm = s.wm := rfl
@[simp] theorem State.spend_input (s : State)  : (s.spend).input = s.input := rfl
@[simp] theorem State.spend_capTray (s : State)  : (s.spend).capTray = s.capTray := rfl
@[simp] theorem State.spend_capPkg (s : State)  : (s.spend).capPkg = s.capPkg := rfl
@[simp] theorem State.spend_sfTimerMs (s : State)  : (s.spend).sfTimerMs = s.sfTimerMs := rfl
@[simp] theorem State.spend_trayHolder (s : State)  : (s.spend).trayHolder = s.trayHolder := rfl
@[simp] theorem State.spend_dies (s : State)  : (s.spend).dies = s.dies := rfl
@[simp] theorem State.spend_links (s : State)  : (s.spend).links = s.links := rfl
@[simp] theorem State.spend_fields (s : State)  : (s.spend).fields = s.fields := rfl
@[simp] theorem State.spend_scopes (s : State)  : (s.spend).scopes = s.scopes := rfl
@[simp] theorem State.spend_ports (s : State)  : (s.spend).ports = s.ports := rfl
@[simp] theorem State.spend_pkgs (s : State)  : (s.spend).pkgs = s.pkgs := rfl
@[simp] theorem State.spend_die (s : State)  (k : DieId) : (s.spend).die k = s.die k := rfl
@[simp] theorem State.spend_port (s : State)  (k : PortId) : (s.spend).port k = s.port k := rfl
@[simp] theorem State.spend_field (s : State)  (k : Fin 8) : (s.spend).field k = s.field k := rfl
@[simp] theorem State.spend_scope (s : State)  (k : Fin 9) : (s.spend).scope k = s.scope k := rfl
@[simp] theorem State.spend_host (s : State)  (k : Fin 4) : (s.spend).host k = s.host k := rfl
@[simp] theorem State.spend_chan (s : State)  (k : Fin 4) (c : Fin 9) : (s.spend).chan k c = s.chan k c := rfl
@[simp] theorem State.spend_pkg (s : State)  (k : Fin 4) : (s.spend).pkg k = s.pkg k := rfl

/-! ### tick -/

@[simp] theorem State.tick_pending (s : State) (n : Nat) : (s.tick n).pending = s.pending := rfl
@[simp] theorem State.tick_waiting (s : State) (n : Nat) : (s.tick n).waiting = s.waiting := rfl
@[simp] theorem State.tick_resumed (s : State) (n : Nat) : (s.tick n).resumed = s.resumed := rfl
@[simp] theorem State.tick_wmReply (s : State) (n : Nat) : (s.tick n).wmReply = s.wmReply := rfl
@[simp] theorem State.tick_free (s : State) (n : Nat) : (s.tick n).free = s.free := rfl
@[simp] theorem State.tick_effects (s : State) (n : Nat) : (s.tick n).effects = s.effects := rfl
@[simp] theorem State.tick_serial (s : State) (n : Nat) : (s.tick n).serial = s.serial := rfl
@[simp] theorem State.tick_bundle (s : State) (n : Nat) : (s.tick n).bundle = s.bundle := rfl
@[simp] theorem State.tick_tray (s : State) (n : Nat) : (s.tick n).tray = s.tray := rfl
@[simp] theorem State.tick_span (s : State) (n : Nat) : (s.tick n).span = s.span := rfl
@[simp] theorem State.tick_peers (s : State) (n : Nat) : (s.tick n).peers = s.peers := rfl
@[simp] theorem State.tick_serving (s : State) (n : Nat) : (s.tick n).serving = s.serving := rfl
@[simp] theorem State.tick_targets (s : State) (n : Nat) : (s.tick n).targets = s.targets := rfl
@[simp] theorem State.tick_ledgerEpoch (s : State) (n : Nat) : (s.tick n).ledgerEpoch = s.ledgerEpoch := rfl
@[simp] theorem State.tick_leader (s : State) (n : Nat) : (s.tick n).leader = s.leader := rfl
@[simp] theorem State.tick_cleaner (s : State) (n : Nat) : (s.tick n).cleaner = s.cleaner := rfl
@[simp] theorem State.tick_trouble (s : State) (n : Nat) : (s.tick n).trouble = s.trouble := rfl
@[simp] theorem State.tick_wm (s : State) (n : Nat) : (s.tick n).wm = s.wm := rfl
@[simp] theorem State.tick_input (s : State) (n : Nat) : (s.tick n).input = s.input := rfl
@[simp] theorem State.tick_capTray (s : State) (n : Nat) : (s.tick n).capTray = s.capTray := rfl
@[simp] theorem State.tick_capPkg (s : State) (n : Nat) : (s.tick n).capPkg = s.capPkg := rfl
@[simp] theorem State.tick_sfTimerMs (s : State) (n : Nat) : (s.tick n).sfTimerMs = s.sfTimerMs := rfl
@[simp] theorem State.tick_trayHolder (s : State) (n : Nat) : (s.tick n).trayHolder = s.trayHolder := rfl
@[simp] theorem State.tick_links (s : State) (n : Nat) : (s.tick n).links = s.links := rfl
@[simp] theorem State.tick_fields (s : State) (n : Nat) : (s.tick n).fields = s.fields := rfl
@[simp] theorem State.tick_scopes (s : State) (n : Nat) : (s.tick n).scopes = s.scopes := rfl
@[simp] theorem State.tick_ports (s : State) (n : Nat) : (s.tick n).ports = s.ports := rfl
@[simp] theorem State.tick_pkgs (s : State) (n : Nat) : (s.tick n).pkgs = s.pkgs := rfl
@[simp] theorem State.tick_port (s : State) (n : Nat) (k : PortId) : (s.tick n).port k = s.port k := rfl
@[simp] theorem State.tick_field (s : State) (n : Nat) (k : Fin 8) : (s.tick n).field k = s.field k := rfl
@[simp] theorem State.tick_scope (s : State) (n : Nat) (k : Fin 9) : (s.tick n).scope k = s.scope k := rfl
@[simp] theorem State.tick_host (s : State) (n : Nat) (k : Fin 4) : (s.tick n).host k = s.host k := rfl
@[simp] theorem State.tick_chan (s : State) (n : Nat) (k : Fin 4) (c : Fin 9) : (s.tick n).chan k c = s.chan k c := rfl
@[simp] theorem State.tick_pkg (s : State) (n : Nat) (k : Fin 4) : (s.tick n).pkg k = s.pkg k := rfl

/-! ### setWaiting -/

@[simp] theorem State.setWaiting_pending (s : State) (x : List Held) : (s.setWaiting x).pending = s.pending := rfl
@[simp] theorem State.setWaiting_resumed (s : State) (x : List Held) : (s.setWaiting x).resumed = s.resumed := rfl
@[simp] theorem State.setWaiting_wmReply (s : State) (x : List Held) : (s.setWaiting x).wmReply = s.wmReply := rfl
@[simp] theorem State.setWaiting_now (s : State) (x : List Held) : (s.setWaiting x).now = s.now := rfl
@[simp] theorem State.setWaiting_free (s : State) (x : List Held) : (s.setWaiting x).free = s.free := rfl
@[simp] theorem State.setWaiting_effects (s : State) (x : List Held) : (s.setWaiting x).effects = s.effects := rfl
@[simp] theorem State.setWaiting_serial (s : State) (x : List Held) : (s.setWaiting x).serial = s.serial := rfl
@[simp] theorem State.setWaiting_bundle (s : State) (x : List Held) : (s.setWaiting x).bundle = s.bundle := rfl
@[simp] theorem State.setWaiting_tray (s : State) (x : List Held) : (s.setWaiting x).tray = s.tray := rfl
@[simp] theorem State.setWaiting_span (s : State) (x : List Held) : (s.setWaiting x).span = s.span := rfl
@[simp] theorem State.setWaiting_peers (s : State) (x : List Held) : (s.setWaiting x).peers = s.peers := rfl
@[simp] theorem State.setWaiting_serving (s : State) (x : List Held) : (s.setWaiting x).serving = s.serving := rfl
@[simp] theorem State.setWaiting_targets (s : State) (x : List Held) : (s.setWaiting x).targets = s.targets := rfl
@[simp] theorem State.setWaiting_ledgerEpoch (s : State) (x : List Held) : (s.setWaiting x).ledgerEpoch = s.ledgerEpoch := rfl
@[simp] theorem State.setWaiting_leader (s : State) (x : List Held) : (s.setWaiting x).leader = s.leader := rfl
@[simp] theorem State.setWaiting_cleaner (s : State) (x : List Held) : (s.setWaiting x).cleaner = s.cleaner := rfl
@[simp] theorem State.setWaiting_trouble (s : State) (x : List Held) : (s.setWaiting x).trouble = s.trouble := rfl
@[simp] theorem State.setWaiting_wm (s : State) (x : List Held) : (s.setWaiting x).wm = s.wm := rfl
@[simp] theorem State.setWaiting_input (s : State) (x : List Held) : (s.setWaiting x).input = s.input := rfl
@[simp] theorem State.setWaiting_capTray (s : State) (x : List Held) : (s.setWaiting x).capTray = s.capTray := rfl
@[simp] theorem State.setWaiting_capPkg (s : State) (x : List Held) : (s.setWaiting x).capPkg = s.capPkg := rfl
@[simp] theorem State.setWaiting_sfTimerMs (s : State) (x : List Held) : (s.setWaiting x).sfTimerMs = s.sfTimerMs := rfl
@[simp] theorem State.setWaiting_trayHolder (s : State) (x : List Held) : (s.setWaiting x).trayHolder = s.trayHolder := rfl
@[simp] theorem State.setWaiting_dies (s : State) (x : List Held) : (s.setWaiting x).dies = s.dies := rfl
@[simp] theorem State.setWaiting_links (s : State) (x : List Held) : (s.setWaiting x).links = s.links := rfl
@[simp] theorem State.setWaiting_fields (s : State) (x : List Held) : (s.setWaiting x).fields = s.fields := rfl
@[simp] theorem State.setWaiting_scopes (s : State) (x : List Held) : (s.setWaiting x).scopes = s.scopes := rfl
@[simp] theorem State.setWaiting_ports (s : State) (x : List Held) : (s.setWaiting x).ports = s.ports := rfl
@[simp] theorem State.setWaiting_pkgs (s : State) (x : List Held) : (s.setWaiting x).pkgs = s.pkgs := rfl
@[simp] theorem State.setWaiting_die (s : State) (x : List Held) (k : DieId) : (s.setWaiting x).die k = s.die k := rfl
@[simp] theorem State.setWaiting_port (s : State) (x : List Held) (k : PortId) : (s.setWaiting x).port k = s.port k := rfl
@[simp] theorem State.setWaiting_field (s : State) (x : List Held) (k : Fin 8) : (s.setWaiting x).field k = s.field k := rfl
@[simp] theorem State.setWaiting_scope (s : State) (x : List Held) (k : Fin 9) : (s.setWaiting x).scope k = s.scope k := rfl
@[simp] theorem State.setWaiting_host (s : State) (x : List Held) (k : Fin 4) : (s.setWaiting x).host k = s.host k := rfl
@[simp] theorem State.setWaiting_chan (s : State) (x : List Held) (k : Fin 4) (c : Fin 9) : (s.setWaiting x).chan k c = s.chan k c := rfl
@[simp] theorem State.setWaiting_pkg (s : State) (x : List Held) (k : Fin 4) : (s.setWaiting x).pkg k = s.pkg k := rfl

/-! ### setResumed -/

@[simp] theorem State.setResumed_pending (s : State) (x : Bool) : (s.setResumed x).pending = s.pending := rfl
@[simp] theorem State.setResumed_waiting (s : State) (x : Bool) : (s.setResumed x).waiting = s.waiting := rfl
@[simp] theorem State.setResumed_wmReply (s : State) (x : Bool) : (s.setResumed x).wmReply = s.wmReply := rfl
@[simp] theorem State.setResumed_now (s : State) (x : Bool) : (s.setResumed x).now = s.now := rfl
@[simp] theorem State.setResumed_free (s : State) (x : Bool) : (s.setResumed x).free = s.free := rfl
@[simp] theorem State.setResumed_effects (s : State) (x : Bool) : (s.setResumed x).effects = s.effects := rfl
@[simp] theorem State.setResumed_serial (s : State) (x : Bool) : (s.setResumed x).serial = s.serial := rfl
@[simp] theorem State.setResumed_bundle (s : State) (x : Bool) : (s.setResumed x).bundle = s.bundle := rfl
@[simp] theorem State.setResumed_tray (s : State) (x : Bool) : (s.setResumed x).tray = s.tray := rfl
@[simp] theorem State.setResumed_span (s : State) (x : Bool) : (s.setResumed x).span = s.span := rfl
@[simp] theorem State.setResumed_peers (s : State) (x : Bool) : (s.setResumed x).peers = s.peers := rfl
@[simp] theorem State.setResumed_serving (s : State) (x : Bool) : (s.setResumed x).serving = s.serving := rfl
@[simp] theorem State.setResumed_targets (s : State) (x : Bool) : (s.setResumed x).targets = s.targets := rfl
@[simp] theorem State.setResumed_ledgerEpoch (s : State) (x : Bool) : (s.setResumed x).ledgerEpoch = s.ledgerEpoch := rfl
@[simp] theorem State.setResumed_leader (s : State) (x : Bool) : (s.setResumed x).leader = s.leader := rfl
@[simp] theorem State.setResumed_cleaner (s : State) (x : Bool) : (s.setResumed x).cleaner = s.cleaner := rfl
@[simp] theorem State.setResumed_trouble (s : State) (x : Bool) : (s.setResumed x).trouble = s.trouble := rfl
@[simp] theorem State.setResumed_wm (s : State) (x : Bool) : (s.setResumed x).wm = s.wm := rfl
@[simp] theorem State.setResumed_input (s : State) (x : Bool) : (s.setResumed x).input = s.input := rfl
@[simp] theorem State.setResumed_capTray (s : State) (x : Bool) : (s.setResumed x).capTray = s.capTray := rfl
@[simp] theorem State.setResumed_capPkg (s : State) (x : Bool) : (s.setResumed x).capPkg = s.capPkg := rfl
@[simp] theorem State.setResumed_sfTimerMs (s : State) (x : Bool) : (s.setResumed x).sfTimerMs = s.sfTimerMs := rfl
@[simp] theorem State.setResumed_trayHolder (s : State) (x : Bool) : (s.setResumed x).trayHolder = s.trayHolder := rfl
@[simp] theorem State.setResumed_dies (s : State) (x : Bool) : (s.setResumed x).dies = s.dies := rfl
@[simp] theorem State.setResumed_links (s : State) (x : Bool) : (s.setResumed x).links = s.links := rfl
@[simp] theorem State.setResumed_fields (s : State) (x : Bool) : (s.setResumed x).fields = s.fields := rfl
@[simp] theorem State.setResumed_scopes (s : State) (x : Bool) : (s.setResumed x).scopes = s.scopes := rfl
@[simp] theorem State.setResumed_ports (s : State) (x : Bool) : (s.setResumed x).ports = s.ports := rfl
@[simp] theorem State.setResumed_pkgs (s : State) (x : Bool) : (s.setResumed x).pkgs = s.pkgs := rfl
@[simp] theorem State.setResumed_die (s : State) (x : Bool) (k : DieId) : (s.setResumed x).die k = s.die k := rfl
@[simp] theorem State.setResumed_port (s : State) (x : Bool) (k : PortId) : (s.setResumed x).port k = s.port k := rfl
@[simp] theorem State.setResumed_field (s : State) (x : Bool) (k : Fin 8) : (s.setResumed x).field k = s.field k := rfl
@[simp] theorem State.setResumed_scope (s : State) (x : Bool) (k : Fin 9) : (s.setResumed x).scope k = s.scope k := rfl
@[simp] theorem State.setResumed_host (s : State) (x : Bool) (k : Fin 4) : (s.setResumed x).host k = s.host k := rfl
@[simp] theorem State.setResumed_chan (s : State) (x : Bool) (k : Fin 4) (c : Fin 9) : (s.setResumed x).chan k c = s.chan k c := rfl
@[simp] theorem State.setResumed_pkg (s : State) (x : Bool) (k : Fin 4) : (s.setResumed x).pkg k = s.pkg k := rfl

/-! ### setWmReply -/

@[simp] theorem State.setWmReply_pending (s : State) (x : Option Resp) : (s.setWmReply x).pending = s.pending := rfl
@[simp] theorem State.setWmReply_waiting (s : State) (x : Option Resp) : (s.setWmReply x).waiting = s.waiting := rfl
@[simp] theorem State.setWmReply_resumed (s : State) (x : Option Resp) : (s.setWmReply x).resumed = s.resumed := rfl
@[simp] theorem State.setWmReply_now (s : State) (x : Option Resp) : (s.setWmReply x).now = s.now := rfl
@[simp] theorem State.setWmReply_free (s : State) (x : Option Resp) : (s.setWmReply x).free = s.free := rfl
@[simp] theorem State.setWmReply_effects (s : State) (x : Option Resp) : (s.setWmReply x).effects = s.effects := rfl
@[simp] theorem State.setWmReply_serial (s : State) (x : Option Resp) : (s.setWmReply x).serial = s.serial := rfl
@[simp] theorem State.setWmReply_bundle (s : State) (x : Option Resp) : (s.setWmReply x).bundle = s.bundle := rfl
@[simp] theorem State.setWmReply_tray (s : State) (x : Option Resp) : (s.setWmReply x).tray = s.tray := rfl
@[simp] theorem State.setWmReply_span (s : State) (x : Option Resp) : (s.setWmReply x).span = s.span := rfl
@[simp] theorem State.setWmReply_peers (s : State) (x : Option Resp) : (s.setWmReply x).peers = s.peers := rfl
@[simp] theorem State.setWmReply_serving (s : State) (x : Option Resp) : (s.setWmReply x).serving = s.serving := rfl
@[simp] theorem State.setWmReply_targets (s : State) (x : Option Resp) : (s.setWmReply x).targets = s.targets := rfl
@[simp] theorem State.setWmReply_ledgerEpoch (s : State) (x : Option Resp) : (s.setWmReply x).ledgerEpoch = s.ledgerEpoch := rfl
@[simp] theorem State.setWmReply_leader (s : State) (x : Option Resp) : (s.setWmReply x).leader = s.leader := rfl
@[simp] theorem State.setWmReply_cleaner (s : State) (x : Option Resp) : (s.setWmReply x).cleaner = s.cleaner := rfl
@[simp] theorem State.setWmReply_trouble (s : State) (x : Option Resp) : (s.setWmReply x).trouble = s.trouble := rfl
@[simp] theorem State.setWmReply_wm (s : State) (x : Option Resp) : (s.setWmReply x).wm = s.wm := rfl
@[simp] theorem State.setWmReply_input (s : State) (x : Option Resp) : (s.setWmReply x).input = s.input := rfl
@[simp] theorem State.setWmReply_capTray (s : State) (x : Option Resp) : (s.setWmReply x).capTray = s.capTray := rfl
@[simp] theorem State.setWmReply_capPkg (s : State) (x : Option Resp) : (s.setWmReply x).capPkg = s.capPkg := rfl
@[simp] theorem State.setWmReply_sfTimerMs (s : State) (x : Option Resp) : (s.setWmReply x).sfTimerMs = s.sfTimerMs := rfl
@[simp] theorem State.setWmReply_trayHolder (s : State) (x : Option Resp) : (s.setWmReply x).trayHolder = s.trayHolder := rfl
@[simp] theorem State.setWmReply_dies (s : State) (x : Option Resp) : (s.setWmReply x).dies = s.dies := rfl
@[simp] theorem State.setWmReply_links (s : State) (x : Option Resp) : (s.setWmReply x).links = s.links := rfl
@[simp] theorem State.setWmReply_fields (s : State) (x : Option Resp) : (s.setWmReply x).fields = s.fields := rfl
@[simp] theorem State.setWmReply_scopes (s : State) (x : Option Resp) : (s.setWmReply x).scopes = s.scopes := rfl
@[simp] theorem State.setWmReply_ports (s : State) (x : Option Resp) : (s.setWmReply x).ports = s.ports := rfl
@[simp] theorem State.setWmReply_pkgs (s : State) (x : Option Resp) : (s.setWmReply x).pkgs = s.pkgs := rfl
@[simp] theorem State.setWmReply_die (s : State) (x : Option Resp) (k : DieId) : (s.setWmReply x).die k = s.die k := rfl
@[simp] theorem State.setWmReply_port (s : State) (x : Option Resp) (k : PortId) : (s.setWmReply x).port k = s.port k := rfl
@[simp] theorem State.setWmReply_field (s : State) (x : Option Resp) (k : Fin 8) : (s.setWmReply x).field k = s.field k := rfl
@[simp] theorem State.setWmReply_scope (s : State) (x : Option Resp) (k : Fin 9) : (s.setWmReply x).scope k = s.scope k := rfl
@[simp] theorem State.setWmReply_host (s : State) (x : Option Resp) (k : Fin 4) : (s.setWmReply x).host k = s.host k := rfl
@[simp] theorem State.setWmReply_chan (s : State) (x : Option Resp) (k : Fin 4) (c : Fin 9) : (s.setWmReply x).chan k c = s.chan k c := rfl
@[simp] theorem State.setWmReply_pkg (s : State) (x : Option Resp) (k : Fin 4) : (s.setWmReply x).pkg k = s.pkg k := rfl

/-! ### setTrayHolder -/

@[simp] theorem State.setTrayHolder_pending (s : State) (x : Option Waiting) : (s.setTrayHolder x).pending = s.pending := rfl
@[simp] theorem State.setTrayHolder_waiting (s : State) (x : Option Waiting) : (s.setTrayHolder x).waiting = s.waiting := rfl
@[simp] theorem State.setTrayHolder_resumed (s : State) (x : Option Waiting) : (s.setTrayHolder x).resumed = s.resumed := rfl
@[simp] theorem State.setTrayHolder_wmReply (s : State) (x : Option Waiting) : (s.setTrayHolder x).wmReply = s.wmReply := rfl
@[simp] theorem State.setTrayHolder_now (s : State) (x : Option Waiting) : (s.setTrayHolder x).now = s.now := rfl
@[simp] theorem State.setTrayHolder_free (s : State) (x : Option Waiting) : (s.setTrayHolder x).free = s.free := rfl
@[simp] theorem State.setTrayHolder_effects (s : State) (x : Option Waiting) : (s.setTrayHolder x).effects = s.effects := rfl
@[simp] theorem State.setTrayHolder_serial (s : State) (x : Option Waiting) : (s.setTrayHolder x).serial = s.serial := rfl
@[simp] theorem State.setTrayHolder_bundle (s : State) (x : Option Waiting) : (s.setTrayHolder x).bundle = s.bundle := rfl
@[simp] theorem State.setTrayHolder_tray (s : State) (x : Option Waiting) : (s.setTrayHolder x).tray = s.tray := rfl
@[simp] theorem State.setTrayHolder_span (s : State) (x : Option Waiting) : (s.setTrayHolder x).span = s.span := rfl
@[simp] theorem State.setTrayHolder_peers (s : State) (x : Option Waiting) : (s.setTrayHolder x).peers = s.peers := rfl
@[simp] theorem State.setTrayHolder_serving (s : State) (x : Option Waiting) : (s.setTrayHolder x).serving = s.serving := rfl
@[simp] theorem State.setTrayHolder_targets (s : State) (x : Option Waiting) : (s.setTrayHolder x).targets = s.targets := rfl
@[simp] theorem State.setTrayHolder_ledgerEpoch (s : State) (x : Option Waiting) : (s.setTrayHolder x).ledgerEpoch = s.ledgerEpoch := rfl
@[simp] theorem State.setTrayHolder_leader (s : State) (x : Option Waiting) : (s.setTrayHolder x).leader = s.leader := rfl
@[simp] theorem State.setTrayHolder_cleaner (s : State) (x : Option Waiting) : (s.setTrayHolder x).cleaner = s.cleaner := rfl
@[simp] theorem State.setTrayHolder_trouble (s : State) (x : Option Waiting) : (s.setTrayHolder x).trouble = s.trouble := rfl
@[simp] theorem State.setTrayHolder_wm (s : State) (x : Option Waiting) : (s.setTrayHolder x).wm = s.wm := rfl
@[simp] theorem State.setTrayHolder_input (s : State) (x : Option Waiting) : (s.setTrayHolder x).input = s.input := rfl
@[simp] theorem State.setTrayHolder_capTray (s : State) (x : Option Waiting) : (s.setTrayHolder x).capTray = s.capTray := rfl
@[simp] theorem State.setTrayHolder_capPkg (s : State) (x : Option Waiting) : (s.setTrayHolder x).capPkg = s.capPkg := rfl
@[simp] theorem State.setTrayHolder_sfTimerMs (s : State) (x : Option Waiting) : (s.setTrayHolder x).sfTimerMs = s.sfTimerMs := rfl
@[simp] theorem State.setTrayHolder_dies (s : State) (x : Option Waiting) : (s.setTrayHolder x).dies = s.dies := rfl
@[simp] theorem State.setTrayHolder_links (s : State) (x : Option Waiting) : (s.setTrayHolder x).links = s.links := rfl
@[simp] theorem State.setTrayHolder_fields (s : State) (x : Option Waiting) : (s.setTrayHolder x).fields = s.fields := rfl
@[simp] theorem State.setTrayHolder_scopes (s : State) (x : Option Waiting) : (s.setTrayHolder x).scopes = s.scopes := rfl
@[simp] theorem State.setTrayHolder_ports (s : State) (x : Option Waiting) : (s.setTrayHolder x).ports = s.ports := rfl
@[simp] theorem State.setTrayHolder_pkgs (s : State) (x : Option Waiting) : (s.setTrayHolder x).pkgs = s.pkgs := rfl
@[simp] theorem State.setTrayHolder_die (s : State) (x : Option Waiting) (k : DieId) : (s.setTrayHolder x).die k = s.die k := rfl
@[simp] theorem State.setTrayHolder_port (s : State) (x : Option Waiting) (k : PortId) : (s.setTrayHolder x).port k = s.port k := rfl
@[simp] theorem State.setTrayHolder_field (s : State) (x : Option Waiting) (k : Fin 8) : (s.setTrayHolder x).field k = s.field k := rfl
@[simp] theorem State.setTrayHolder_scope (s : State) (x : Option Waiting) (k : Fin 9) : (s.setTrayHolder x).scope k = s.scope k := rfl
@[simp] theorem State.setTrayHolder_host (s : State) (x : Option Waiting) (k : Fin 4) : (s.setTrayHolder x).host k = s.host k := rfl
@[simp] theorem State.setTrayHolder_chan (s : State) (x : Option Waiting) (k : Fin 4) (c : Fin 9) : (s.setTrayHolder x).chan k c = s.chan k c := rfl
@[simp] theorem State.setTrayHolder_pkg (s : State) (x : Option Waiting) (k : Fin 4) : (s.setTrayHolder x).pkg k = s.pkg k := rfl

/-! ### setTargets -/

@[simp] theorem State.setTargets_pending (s : State) (x : NMap (Option (Fin 4))) : (s.setTargets x).pending = s.pending := rfl
@[simp] theorem State.setTargets_waiting (s : State) (x : NMap (Option (Fin 4))) : (s.setTargets x).waiting = s.waiting := rfl
@[simp] theorem State.setTargets_resumed (s : State) (x : NMap (Option (Fin 4))) : (s.setTargets x).resumed = s.resumed := rfl
@[simp] theorem State.setTargets_wmReply (s : State) (x : NMap (Option (Fin 4))) : (s.setTargets x).wmReply = s.wmReply := rfl
@[simp] theorem State.setTargets_now (s : State) (x : NMap (Option (Fin 4))) : (s.setTargets x).now = s.now := rfl
@[simp] theorem State.setTargets_free (s : State) (x : NMap (Option (Fin 4))) : (s.setTargets x).free = s.free := rfl
@[simp] theorem State.setTargets_effects (s : State) (x : NMap (Option (Fin 4))) : (s.setTargets x).effects = s.effects := rfl
@[simp] theorem State.setTargets_serial (s : State) (x : NMap (Option (Fin 4))) : (s.setTargets x).serial = s.serial := rfl
@[simp] theorem State.setTargets_bundle (s : State) (x : NMap (Option (Fin 4))) : (s.setTargets x).bundle = s.bundle := rfl
@[simp] theorem State.setTargets_tray (s : State) (x : NMap (Option (Fin 4))) : (s.setTargets x).tray = s.tray := rfl
@[simp] theorem State.setTargets_span (s : State) (x : NMap (Option (Fin 4))) : (s.setTargets x).span = s.span := rfl
@[simp] theorem State.setTargets_peers (s : State) (x : NMap (Option (Fin 4))) : (s.setTargets x).peers = s.peers := rfl
@[simp] theorem State.setTargets_serving (s : State) (x : NMap (Option (Fin 4))) : (s.setTargets x).serving = s.serving := rfl
@[simp] theorem State.setTargets_ledgerEpoch (s : State) (x : NMap (Option (Fin 4))) : (s.setTargets x).ledgerEpoch = s.ledgerEpoch := rfl
@[simp] theorem State.setTargets_leader (s : State) (x : NMap (Option (Fin 4))) : (s.setTargets x).leader = s.leader := rfl
@[simp] theorem State.setTargets_cleaner (s : State) (x : NMap (Option (Fin 4))) : (s.setTargets x).cleaner = s.cleaner := rfl
@[simp] theorem State.setTargets_trouble (s : State) (x : NMap (Option (Fin 4))) : (s.setTargets x).trouble = s.trouble := rfl
@[simp] theorem State.setTargets_wm (s : State) (x : NMap (Option (Fin 4))) : (s.setTargets x).wm = s.wm := rfl
@[simp] theorem State.setTargets_input (s : State) (x : NMap (Option (Fin 4))) : (s.setTargets x).input = s.input := rfl
@[simp] theorem State.setTargets_capTray (s : State) (x : NMap (Option (Fin 4))) : (s.setTargets x).capTray = s.capTray := rfl
@[simp] theorem State.setTargets_capPkg (s : State) (x : NMap (Option (Fin 4))) : (s.setTargets x).capPkg = s.capPkg := rfl
@[simp] theorem State.setTargets_sfTimerMs (s : State) (x : NMap (Option (Fin 4))) : (s.setTargets x).sfTimerMs = s.sfTimerMs := rfl
@[simp] theorem State.setTargets_trayHolder (s : State) (x : NMap (Option (Fin 4))) : (s.setTargets x).trayHolder = s.trayHolder := rfl
@[simp] theorem State.setTargets_dies (s : State) (x : NMap (Option (Fin 4))) : (s.setTargets x).dies = s.dies := rfl
@[simp] theorem State.setTargets_links (s : State) (x : NMap (Option (Fin 4))) : (s.setTargets x).links = s.links := rfl
@[simp] theorem State.setTargets_fields (s : State) (x : NMap (Option (Fin 4))) : (s.setTargets x).fields = s.fields := rfl
@[simp] theorem State.setTargets_scopes (s : State) (x : NMap (Option (Fin 4))) : (s.setTargets x).scopes = s.scopes := rfl
@[simp] theorem State.setTargets_ports (s : State) (x : NMap (Option (Fin 4))) : (s.setTargets x).ports = s.ports := rfl
@[simp] theorem State.setTargets_pkgs (s : State) (x : NMap (Option (Fin 4))) : (s.setTargets x).pkgs = s.pkgs := rfl
@[simp] theorem State.setTargets_die (s : State) (x : NMap (Option (Fin 4))) (k : DieId) : (s.setTargets x).die k = s.die k := rfl
@[simp] theorem State.setTargets_port (s : State) (x : NMap (Option (Fin 4))) (k : PortId) : (s.setTargets x).port k = s.port k := rfl
@[simp] theorem State.setTargets_field (s : State) (x : NMap (Option (Fin 4))) (k : Fin 8) : (s.setTargets x).field k = s.field k := rfl
@[simp] theorem State.setTargets_scope (s : State) (x : NMap (Option (Fin 4))) (k : Fin 9) : (s.setTargets x).scope k = s.scope k := rfl
@[simp] theorem State.setTargets_host (s : State) (x : NMap (Option (Fin 4))) (k : Fin 4) : (s.setTargets x).host k = s.host k := rfl
@[simp] theorem State.setTargets_chan (s : State) (x : NMap (Option (Fin 4))) (k : Fin 4) (c : Fin 9) : (s.setTargets x).chan k c = s.chan k c := rfl
@[simp] theorem State.setTargets_pkg (s : State) (x : NMap (Option (Fin 4))) (k : Fin 4) : (s.setTargets x).pkg k = s.pkg k := rfl

/-! ### setSfTimer -/

@[simp] theorem State.setSfTimer_pending (s : State) (x : Nat) : (s.setSfTimer x).pending = s.pending := rfl
@[simp] theorem State.setSfTimer_waiting (s : State) (x : Nat) : (s.setSfTimer x).waiting = s.waiting := rfl
@[simp] theorem State.setSfTimer_resumed (s : State) (x : Nat) : (s.setSfTimer x).resumed = s.resumed := rfl
@[simp] theorem State.setSfTimer_wmReply (s : State) (x : Nat) : (s.setSfTimer x).wmReply = s.wmReply := rfl
@[simp] theorem State.setSfTimer_now (s : State) (x : Nat) : (s.setSfTimer x).now = s.now := rfl
@[simp] theorem State.setSfTimer_free (s : State) (x : Nat) : (s.setSfTimer x).free = s.free := rfl
@[simp] theorem State.setSfTimer_effects (s : State) (x : Nat) : (s.setSfTimer x).effects = s.effects := rfl
@[simp] theorem State.setSfTimer_serial (s : State) (x : Nat) : (s.setSfTimer x).serial = s.serial := rfl
@[simp] theorem State.setSfTimer_bundle (s : State) (x : Nat) : (s.setSfTimer x).bundle = s.bundle := rfl
@[simp] theorem State.setSfTimer_tray (s : State) (x : Nat) : (s.setSfTimer x).tray = s.tray := rfl
@[simp] theorem State.setSfTimer_span (s : State) (x : Nat) : (s.setSfTimer x).span = s.span := rfl
@[simp] theorem State.setSfTimer_peers (s : State) (x : Nat) : (s.setSfTimer x).peers = s.peers := rfl
@[simp] theorem State.setSfTimer_serving (s : State) (x : Nat) : (s.setSfTimer x).serving = s.serving := rfl
@[simp] theorem State.setSfTimer_targets (s : State) (x : Nat) : (s.setSfTimer x).targets = s.targets := rfl
@[simp] theorem State.setSfTimer_ledgerEpoch (s : State) (x : Nat) : (s.setSfTimer x).ledgerEpoch = s.ledgerEpoch := rfl
@[simp] theorem State.setSfTimer_leader (s : State) (x : Nat) : (s.setSfTimer x).leader = s.leader := rfl
@[simp] theorem State.setSfTimer_cleaner (s : State) (x : Nat) : (s.setSfTimer x).cleaner = s.cleaner := rfl
@[simp] theorem State.setSfTimer_trouble (s : State) (x : Nat) : (s.setSfTimer x).trouble = s.trouble := rfl
@[simp] theorem State.setSfTimer_wm (s : State) (x : Nat) : (s.setSfTimer x).wm = s.wm := rfl
@[simp] theorem State.setSfTimer_input (s : State) (x : Nat) : (s.setSfTimer x).input = s.input := rfl
@[simp] theorem State.setSfTimer_capTray (s : State) (x : Nat) : (s.setSfTimer x).capTray = s.capTray := rfl
@[simp] theorem State.setSfTimer_capPkg (s : State) (x : Nat) : (s.setSfTimer x).capPkg = s.capPkg := rfl
@[simp] theorem State.setSfTimer_trayHolder (s : State) (x : Nat) : (s.setSfTimer x).trayHolder = s.trayHolder := rfl
@[simp] theorem State.setSfTimer_dies (s : State) (x : Nat) : (s.setSfTimer x).dies = s.dies := rfl
@[simp] theorem State.setSfTimer_links (s : State) (x : Nat) : (s.setSfTimer x).links = s.links := rfl
@[simp] theorem State.setSfTimer_fields (s : State) (x : Nat) : (s.setSfTimer x).fields = s.fields := rfl
@[simp] theorem State.setSfTimer_scopes (s : State) (x : Nat) : (s.setSfTimer x).scopes = s.scopes := rfl
@[simp] theorem State.setSfTimer_ports (s : State) (x : Nat) : (s.setSfTimer x).ports = s.ports := rfl
@[simp] theorem State.setSfTimer_pkgs (s : State) (x : Nat) : (s.setSfTimer x).pkgs = s.pkgs := rfl
@[simp] theorem State.setSfTimer_die (s : State) (x : Nat) (k : DieId) : (s.setSfTimer x).die k = s.die k := rfl
@[simp] theorem State.setSfTimer_port (s : State) (x : Nat) (k : PortId) : (s.setSfTimer x).port k = s.port k := rfl
@[simp] theorem State.setSfTimer_field (s : State) (x : Nat) (k : Fin 8) : (s.setSfTimer x).field k = s.field k := rfl
@[simp] theorem State.setSfTimer_scope (s : State) (x : Nat) (k : Fin 9) : (s.setSfTimer x).scope k = s.scope k := rfl
@[simp] theorem State.setSfTimer_host (s : State) (x : Nat) (k : Fin 4) : (s.setSfTimer x).host k = s.host k := rfl
@[simp] theorem State.setSfTimer_chan (s : State) (x : Nat) (k : Fin 4) (c : Fin 9) : (s.setSfTimer x).chan k c = s.chan k c := rfl
@[simp] theorem State.setSfTimer_pkg (s : State) (x : Nat) (k : Fin 4) : (s.setSfTimer x).pkg k = s.pkg k := rfl

/-! ### Keys -/

/-- Two dies with one key are one die. -/
theorem key_die_inj {d e : DieId} (h : d.key = e.key) : d = e := by
  obtain ⟨⟨a, ha⟩, ⟨b, hb⟩, ⟨c, hc⟩⟩ := d
  obtain ⟨⟨a', ha'⟩, ⟨b', hb'⟩, ⟨c', hc'⟩⟩ := e
  simp only [DieId.key] at h
  simp only [DieId.mk.injEq, Fin.mk.injEq]
  omega

/-- Two ports with one key are one port. -/
theorem key_port_inj {p q : PortId} (h : p.key = q.key) : p = q := by
  obtain ⟨d, ⟨a, ha⟩⟩ := p
  obtain ⟨e, ⟨b, hb⟩⟩ := q
  simp only [PortId.key] at h
  have hd : d = e := key_die_inj (by omega)
  subst hd
  simp only [PortId.mk.injEq, Fin.mk.injEq, true_and]
  omega

/-! ### Reading after writing -/

@[simp] theorem State.setDie_die_same (s : State) (d : DieId) (x : Die) : (s.setDie d x).die d = x := by simp [State.setDie, State.die]
theorem State.setDie_die_other (s : State) (d e : DieId) (x : Die) (h : d ≠ e) : (s.setDie d x).die e = s.die e :=
  NMap.get_set_other _ _ _ _ _ fun q => h (key_die_inj q)
@[simp] theorem State.setPort_port_same (s : State) (p : PortId) (x : Port) : (s.setPort p x).port p = x := by
  simp [State.setPort, State.port]
theorem State.setPort_port_other (s : State) (p q : PortId) (x : Port) (h : p ≠ q) : (s.setPort p x).port q = s.port q :=
  NMap.get_set_other _ _ _ _ _ fun e => h (key_port_inj e)
@[simp] theorem State.setField_field_same (s : State) (f : Fin 8) (x : Field) : (s.setField f x).field f = x := by
  simp [State.setField, State.field]
theorem State.setField_field_other (s : State) (f g : Fin 8) (x : Field) (h : f ≠ g) : (s.setField f x).field g = s.field g :=
  NMap.get_set_other _ _ _ _ _ fun e => h (Fin.ext e)
@[simp] theorem State.setScope_scope_same (s : State) (n : Fin 9) (x : Scope) : (s.setScope n x).scope n = x := by
  simp [State.setScope, State.scope]
theorem State.setScope_scope_other (s : State) (n m : Fin 9) (x : Scope) (h : n ≠ m) : (s.setScope n x).scope m = s.scope m :=
  NMap.get_set_other _ _ _ _ _ fun e => h (Fin.ext e)
@[simp] theorem State.setHost_host_same (s : State) (n : Fin 4) (x : HostPort) : (s.setHost n x).host n = x := by
  simp [State.setHost, State.host]
theorem State.setHost_host_other (s : State) (n m : Fin 4) (x : HostPort) (h : n ≠ m) : (s.setHost n x).host m = s.host m :=
  NMap.get_set_other _ _ _ _ _ fun e => h (Fin.ext e)
@[simp] theorem State.setPkg_pkg_same (s : State) (n : Fin 4) (x : Pkg) : (s.setPkg n x).pkg n = x := by
  simp [State.setPkg, State.pkg]
theorem State.setPkg_pkg_other (s : State) (n m : Fin 4) (x : Pkg) (h : n ≠ m) : (s.setPkg n x).pkg m = s.pkg m :=
  NMap.get_set_other _ _ _ _ _ fun e => h (Fin.ext e)
@[simp] theorem State.setChan_chan_same (s : State) (n : Fin 4) (k : Fin 9) (x : Chan) : (s.setChan n k x).chan n k = x := by
  simp [State.setChan, State.chan]
theorem State.setChan_chan_other (s : State) (n m : Fin 4) (k j : Fin 9) (x : Chan) (h : n ≠ m ∨ k ≠ j) :
    (s.setChan n k x).chan m j = s.chan m j := by
  by_cases hn : n = m
  · subst hn
    have hk : k ≠ j := by rcases h with h | h; · exact absurd rfl h
                          · exact h
    simp only [State.setChan, State.chan, State.onHost_eq, State.setHost_host_same]
    exact NMap.get_set_other _ _ _ _ _ fun e => hk (Fin.ext e)
  · simp only [State.setChan, State.chan, State.onHost_eq, State.setHost_host_other _ _ _ _ hn]

/-- Reading a channel of a host port just written. -/
theorem State.setHost_chan_same (s : State) (n : Fin 4) (x : HostPort) (k : Fin 9) :
    (s.setHost n x).chan n k = NMap.get x.chans k.val {} := by simp [State.chan]
theorem State.setHost_chan_other (s : State) (n m : Fin 4) (x : HostPort) (k : Fin 9) (h : n ≠ m) :
    (s.setHost n x).chan m k = s.chan m k := by simp [State.chan, State.setHost_host_other _ _ _ _ h]

/-! ### Time -/

/-- Ticks pass at a die: its tally alone moves (R79, R80). -/
theorem State.tick_die (s : State) (n : Nat) (d : DieId) :
    (s.tick n).die d = { s.die d with tally := (s.die d).tally.count n } := by
  simp only [State.tick, State.die]
  refine NMap.get_map s.dies (fun x : Die => { x with tally := x.tally.count n }) d.key (resetDie d) ?_
  simp [resetDie, Tally.count]
@[simp] theorem State.tick_now (s : State) (n : Nat) : (s.tick n).now = s.now + n := rfl

/-- The clock after a command's arrival: never earlier than before. -/
@[simp] theorem State.clock_now (s : State) (t : Nat) : (s.clock t).now = max s.now t := by
  simp only [State.clock]
  split
  · simp only [State.tick_now]; omega
  · omega
/-- A command that arrives no later than the clock finds the state as it is. -/
theorem State.clock_past (s : State) (t : Nat) (h : t ≤ s.now) : s.clock t = s := by
  simp only [State.clock]; split
  · omega
  · rfl
/-- What ticks keep, the clock keeps. -/
theorem State.clock_keeps {β : Type} (s : State) (t : Nat) (v : State → β) (h : ∀ n, v (s.tick n) = v s) :
    v (s.clock t) = v s := by
  simp only [State.clock]; split
  · exact h _
  · rfl

/-! ### The clock leaves everything but `now` and the tallies -/

@[simp] theorem State.clock_pending (s : State) (t : Nat) : (s.clock t).pending = s.pending := State.clock_keeps s t (·.pending) fun _ => rfl
@[simp] theorem State.clock_waiting (s : State) (t : Nat) : (s.clock t).waiting = s.waiting := State.clock_keeps s t (·.waiting) fun _ => rfl
@[simp] theorem State.clock_resumed (s : State) (t : Nat) : (s.clock t).resumed = s.resumed := State.clock_keeps s t (·.resumed) fun _ => rfl
@[simp] theorem State.clock_wmReply (s : State) (t : Nat) : (s.clock t).wmReply = s.wmReply := State.clock_keeps s t (·.wmReply) fun _ => rfl
@[simp] theorem State.clock_free (s : State) (t : Nat) : (s.clock t).free = s.free := State.clock_keeps s t (·.free) fun _ => rfl
@[simp] theorem State.clock_effects (s : State) (t : Nat) : (s.clock t).effects = s.effects := State.clock_keeps s t (·.effects) fun _ => rfl
@[simp] theorem State.clock_serial (s : State) (t : Nat) : (s.clock t).serial = s.serial := State.clock_keeps s t (·.serial) fun _ => rfl
@[simp] theorem State.clock_bundle (s : State) (t : Nat) : (s.clock t).bundle = s.bundle := State.clock_keeps s t (·.bundle) fun _ => rfl
@[simp] theorem State.clock_tray (s : State) (t : Nat) : (s.clock t).tray = s.tray := State.clock_keeps s t (·.tray) fun _ => rfl
@[simp] theorem State.clock_span (s : State) (t : Nat) : (s.clock t).span = s.span := State.clock_keeps s t (·.span) fun _ => rfl
@[simp] theorem State.clock_peers (s : State) (t : Nat) : (s.clock t).peers = s.peers := State.clock_keeps s t (·.peers) fun _ => rfl
@[simp] theorem State.clock_serving (s : State) (t : Nat) : (s.clock t).serving = s.serving := State.clock_keeps s t (·.serving) fun _ => rfl
@[simp] theorem State.clock_scopes (s : State) (t : Nat) : (s.clock t).scopes = s.scopes := State.clock_keeps s t (·.scopes) fun _ => rfl
@[simp] theorem State.clock_targets (s : State) (t : Nat) : (s.clock t).targets = s.targets := State.clock_keeps s t (·.targets) fun _ => rfl
@[simp] theorem State.clock_ports (s : State) (t : Nat) : (s.clock t).ports = s.ports := State.clock_keeps s t (·.ports) fun _ => rfl
@[simp] theorem State.clock_fields (s : State) (t : Nat) : (s.clock t).fields = s.fields := State.clock_keeps s t (·.fields) fun _ => rfl
@[simp] theorem State.clock_links (s : State) (t : Nat) : (s.clock t).links = s.links := State.clock_keeps s t (·.links) fun _ => rfl
@[simp] theorem State.clock_ledgerEpoch (s : State) (t : Nat) : (s.clock t).ledgerEpoch = s.ledgerEpoch := State.clock_keeps s t (·.ledgerEpoch) fun _ => rfl
@[simp] theorem State.clock_leader (s : State) (t : Nat) : (s.clock t).leader = s.leader := State.clock_keeps s t (·.leader) fun _ => rfl
@[simp] theorem State.clock_cleaner (s : State) (t : Nat) : (s.clock t).cleaner = s.cleaner := State.clock_keeps s t (·.cleaner) fun _ => rfl
@[simp] theorem State.clock_trouble (s : State) (t : Nat) : (s.clock t).trouble = s.trouble := State.clock_keeps s t (·.trouble) fun _ => rfl
@[simp] theorem State.clock_pkgs (s : State) (t : Nat) : (s.clock t).pkgs = s.pkgs := State.clock_keeps s t (·.pkgs) fun _ => rfl
@[simp] theorem State.clock_wm (s : State) (t : Nat) : (s.clock t).wm = s.wm := State.clock_keeps s t (·.wm) fun _ => rfl
@[simp] theorem State.clock_input (s : State) (t : Nat) : (s.clock t).input = s.input := State.clock_keeps s t (·.input) fun _ => rfl
@[simp] theorem State.clock_capTray (s : State) (t : Nat) : (s.clock t).capTray = s.capTray := State.clock_keeps s t (·.capTray) fun _ => rfl
@[simp] theorem State.clock_capPkg (s : State) (t : Nat) : (s.clock t).capPkg = s.capPkg := State.clock_keeps s t (·.capPkg) fun _ => rfl
@[simp] theorem State.clock_sfTimerMs (s : State) (t : Nat) : (s.clock t).sfTimerMs = s.sfTimerMs := State.clock_keeps s t (·.sfTimerMs) fun _ => rfl
@[simp] theorem State.clock_trayHolder (s : State) (t : Nat) : (s.clock t).trayHolder = s.trayHolder := State.clock_keeps s t (·.trayHolder) fun _ => rfl
@[simp] theorem State.clock_port (s : State) (t : Nat) (k : PortId) : (s.clock t).port k = s.port k := State.clock_keeps s t (·.port k) fun _ => rfl
@[simp] theorem State.clock_field (s : State) (t : Nat) (k : Fin 8) : (s.clock t).field k = s.field k := State.clock_keeps s t (·.field k) fun _ => rfl
@[simp] theorem State.clock_scope (s : State) (t : Nat) (k : Fin 9) : (s.clock t).scope k = s.scope k := State.clock_keeps s t (·.scope k) fun _ => rfl
@[simp] theorem State.clock_host (s : State) (t : Nat) (k : Fin 4) : (s.clock t).host k = s.host k := State.clock_keeps s t (·.host k) fun _ => rfl
@[simp] theorem State.clock_chan (s : State) (t : Nat) (k : Fin 4) (c : Fin 9) : (s.clock t).chan k c = s.chan k c := State.clock_keeps s t (·.chan k c) fun _ => rfl
@[simp] theorem State.clock_pkg (s : State) (t : Nat) (k : Fin 4) : (s.clock t).pkg k = s.pkg k := State.clock_keeps s t (·.pkg k) fun _ => rfl
@[simp] theorem State.tick_die_ident (s : State) (n : Nat) (d : DieId) : ((s.tick n).die d).ident = (s.die d).ident := by rw [State.tick_die]
@[simp] theorem State.clock_die_ident (s : State) (t : Nat) (d : DieId) : ((s.clock t).die d).ident = (s.die d).ident := State.clock_keeps s t (fun u => (u.die d).ident) fun _ => State.tick_die_ident s _ d
@[simp] theorem State.tick_die_place (s : State) (n : Nat) (d : DieId) : ((s.tick n).die d).place = (s.die d).place := by rw [State.tick_die]
@[simp] theorem State.clock_die_place (s : State) (t : Nat) (d : DieId) : ((s.clock t).die d).place = (s.die d).place := State.clock_keeps s t (fun u => (u.die d).place) fun _ => State.tick_die_place s _ d
@[simp] theorem State.tick_die_boot (s : State) (n : Nat) (d : DieId) : ((s.tick n).die d).boot = (s.die d).boot := by rw [State.tick_die]
@[simp] theorem State.clock_die_boot (s : State) (t : Nat) (d : DieId) : ((s.clock t).die d).boot = (s.die d).boot := State.clock_keeps s t (fun u => (u.die d).boot) fun _ => State.tick_die_boot s _ d
@[simp] theorem State.tick_die_trb (s : State) (n : Nat) (d : DieId) : ((s.tick n).die d).trb = (s.die d).trb := by rw [State.tick_die]
@[simp] theorem State.clock_die_trb (s : State) (t : Nat) (d : DieId) : ((s.clock t).die d).trb = (s.die d).trb := State.clock_keeps s t (fun u => (u.die d).trb) fun _ => State.tick_die_trb s _ d
@[simp] theorem State.tick_die_mem (s : State) (n : Nat) (d : DieId) : ((s.tick n).die d).mem = (s.die d).mem := by rw [State.tick_die]
@[simp] theorem State.clock_die_mem (s : State) (t : Nat) (d : DieId) : ((s.clock t).die d).mem = (s.die d).mem := State.clock_keeps s t (fun u => (u.die d).mem) fun _ => State.tick_die_mem s _ d
@[simp] theorem State.tick_die_poison (s : State) (n : Nat) (d : DieId) : ((s.tick n).die d).poison = (s.die d).poison := by rw [State.tick_die]
@[simp] theorem State.clock_die_poison (s : State) (t : Nat) (d : DieId) : ((s.clock t).die d).poison = (s.die d).poison := State.clock_keeps s t (fun u => (u.die d).poison) fun _ => State.tick_die_poison s _ d
@[simp] theorem State.tick_die_tiles (s : State) (n : Nat) (d : DieId) : ((s.tick n).die d).tiles = (s.die d).tiles := by rw [State.tick_die]
@[simp] theorem State.clock_die_tiles (s : State) (t : Nat) (d : DieId) : ((s.clock t).die d).tiles = (s.die d).tiles := State.clock_keeps s t (fun u => (u.die d).tiles) fun _ => State.tick_die_tiles s _ d
@[simp] theorem State.tick_die_mesh (s : State) (n : Nat) (d : DieId) : ((s.tick n).die d).mesh = (s.die d).mesh := by rw [State.tick_die]
@[simp] theorem State.clock_die_mesh (s : State) (t : Nat) (d : DieId) : ((s.clock t).die d).mesh = (s.die d).mesh := State.clock_keeps s t (fun u => (u.die d).mesh) fun _ => State.tick_die_mesh s _ d
@[simp] theorem State.tick_die_eps (s : State) (n : Nat) (d : DieId) : ((s.tick n).die d).eps = (s.die d).eps := by rw [State.tick_die]
@[simp] theorem State.clock_die_eps (s : State) (t : Nat) (d : DieId) : ((s.clock t).die d).eps = (s.die d).eps := State.clock_keeps s t (fun u => (u.die d).eps) fun _ => State.tick_die_eps s _ d
@[simp] theorem State.tick_die_cnt (s : State) (n : Nat) (d : DieId) : ((s.tick n).die d).cnt = (s.die d).cnt := by rw [State.tick_die]
@[simp] theorem State.clock_die_cnt (s : State) (t : Nat) (d : DieId) : ((s.clock t).die d).cnt = (s.die d).cnt := State.clock_keeps s t (fun u => (u.die d).cnt) fun _ => State.tick_die_cnt s _ d
@[simp] theorem State.tick_die_side (s : State) (n : Nat) (d : DieId) : ((s.tick n).die d).side = (s.die d).side := by rw [State.tick_die]
@[simp] theorem State.clock_die_side (s : State) (t : Nat) (d : DieId) : ((s.clock t).die d).side = (s.die d).side := State.clock_keeps s t (fun u => (u.die d).side) fun _ => State.tick_die_side s _ d
@[simp] theorem State.tick_die_pow (s : State) (n : Nat) (d : DieId) : ((s.tick n).die d).pow = (s.die d).pow := by rw [State.tick_die]
@[simp] theorem State.clock_die_pow (s : State) (t : Nat) (d : DieId) : ((s.clock t).die d).pow = (s.die d).pow := State.clock_keeps s t (fun u => (u.die d).pow) fun _ => State.tick_die_pow s _ d

end Sys2Proof.Machine
end

