-- ==== Sys2Proof/Laws/Mailbox.lean ====
section
/-! SUPPORT. Sys2Proof/Laws/Mailbox.lean: what serving a mailbox request comes to, what a response leaves, and that it stands. -/

namespace Sys2Proof.Machine

/-- A request that is decided at once: its command's body, in the state of its decision. -/
theorem State.serve_decides {s : State} {r : MReq} {c : Cmd} {early : State → Option Nat} (h : s.decides r c early) (self : Instr)
    (body : State → State) : s.serve r c self early body = body (s.atRequest r) := by
  obtain ⟨h1, h2, h3, h4, h5, h6⟩ := h
  simp only [State.serve]
  split
  · rename_i hp
    have hq := hp.2
    rw [h1 hp.1] at hq
    exact absurd hq (by decide)
  · simp only [State.arrived] at h2 h3
    rw [h2]; simp only [h3]
    have hw : (c.wm && !(s.atRequest r).wmFor c.opcode) = false := by
      cases hc : c.wm
      · rfl
      · simp [h6 hc]
    simp only [State.atRequest, State.arrived] at hw h5
    simp only [hw, Bool.or_false]
    cases ha : c.acts with
    | none => rfl
    | some n =>
      rcases h5 n ha with q | ⟨q1, q2⟩
      · simp only [q, Bool.not_true, Bool.false_and]; rfl
      · simp only [q1, q2, Bool.or_false, Bool.and_false]; rfl

/-- A response that a channel awaits stands. -/
theorem State.reply_answered {s : State} {r : MReq} (h : s.awaits r) (opcode status : Nat) (body : List Byte) :
    (s.reply r opcode status body).answered r opcode status body := by
  simp only [State.reply, State.answered]
  split
  · rename_i hp
    have := h hp
    simp [this]
  · rfl


/-! ### A response leaves everything but its channel -/

@[simp] theorem State.reply_pending (s : State) (r : MReq) (o st : Nat) (b : List Byte) : (s.reply r o st b).pending = s.pending := by
  simp only [State.reply]; split
  · split <;> rfl
  · rfl
@[simp] theorem State.reply_waiting (s : State) (r : MReq) (o st : Nat) (b : List Byte) : (s.reply r o st b).waiting = s.waiting := by
  simp only [State.reply]; split
  · split <;> rfl
  · rfl
@[simp] theorem State.reply_resumed (s : State) (r : MReq) (o st : Nat) (b : List Byte) : (s.reply r o st b).resumed = s.resumed := by
  simp only [State.reply]; split
  · split <;> rfl
  · rfl
@[simp] theorem State.reply_now (s : State) (r : MReq) (o st : Nat) (b : List Byte) : (s.reply r o st b).now = s.now := by
  simp only [State.reply]; split
  · split <;> rfl
  · rfl
@[simp] theorem State.reply_free (s : State) (r : MReq) (o st : Nat) (b : List Byte) : (s.reply r o st b).free = s.free := by
  simp only [State.reply]; split
  · split <;> rfl
  · rfl
@[simp] theorem State.reply_effects (s : State) (r : MReq) (o st : Nat) (b : List Byte) : (s.reply r o st b).effects = s.effects := by
  simp only [State.reply]; split
  · split <;> rfl
  · rfl
@[simp] theorem State.reply_serial (s : State) (r : MReq) (o st : Nat) (b : List Byte) : (s.reply r o st b).serial = s.serial := by
  simp only [State.reply]; split
  · split <;> rfl
  · rfl
@[simp] theorem State.reply_bundle (s : State) (r : MReq) (o st : Nat) (b : List Byte) : (s.reply r o st b).bundle = s.bundle := by
  simp only [State.reply]; split
  · split <;> rfl
  · rfl
@[simp] theorem State.reply_tray (s : State) (r : MReq) (o st : Nat) (b : List Byte) : (s.reply r o st b).tray = s.tray := by
  simp only [State.reply]; split
  · split <;> rfl
  · rfl
@[simp] theorem State.reply_span (s : State) (r : MReq) (o st : Nat) (b : List Byte) : (s.reply r o st b).span = s.span := by
  simp only [State.reply]; split
  · split <;> rfl
  · rfl
@[simp] theorem State.reply_peers (s : State) (r : MReq) (o st : Nat) (b : List Byte) : (s.reply r o st b).peers = s.peers := by
  simp only [State.reply]; split
  · split <;> rfl
  · rfl
@[simp] theorem State.reply_serving (s : State) (r : MReq) (o st : Nat) (b : List Byte) : (s.reply r o st b).serving = s.serving := by
  simp only [State.reply]; split
  · split <;> rfl
  · rfl
@[simp] theorem State.reply_scopes (s : State) (r : MReq) (o st : Nat) (b : List Byte) : (s.reply r o st b).scopes = s.scopes := by
  simp only [State.reply]; split
  · split <;> rfl
  · rfl
@[simp] theorem State.reply_targets (s : State) (r : MReq) (o st : Nat) (b : List Byte) : (s.reply r o st b).targets = s.targets := by
  simp only [State.reply]; split
  · split <;> rfl
  · rfl
@[simp] theorem State.reply_fields (s : State) (r : MReq) (o st : Nat) (b : List Byte) : (s.reply r o st b).fields = s.fields := by
  simp only [State.reply]; split
  · split <;> rfl
  · rfl
@[simp] theorem State.reply_dies (s : State) (r : MReq) (o st : Nat) (b : List Byte) : (s.reply r o st b).dies = s.dies := by
  simp only [State.reply]; split
  · split <;> rfl
  · rfl
@[simp] theorem State.reply_links (s : State) (r : MReq) (o st : Nat) (b : List Byte) : (s.reply r o st b).links = s.links := by
  simp only [State.reply]; split
  · split <;> rfl
  · rfl
@[simp] theorem State.reply_ledgerEpoch (s : State) (r : MReq) (o st : Nat) (b : List Byte) : (s.reply r o st b).ledgerEpoch = s.ledgerEpoch := by
  simp only [State.reply]; split
  · split <;> rfl
  · rfl
@[simp] theorem State.reply_leader (s : State) (r : MReq) (o st : Nat) (b : List Byte) : (s.reply r o st b).leader = s.leader := by
  simp only [State.reply]; split
  · split <;> rfl
  · rfl
@[simp] theorem State.reply_cleaner (s : State) (r : MReq) (o st : Nat) (b : List Byte) : (s.reply r o st b).cleaner = s.cleaner := by
  simp only [State.reply]; split
  · split <;> rfl
  · rfl
@[simp] theorem State.reply_trouble (s : State) (r : MReq) (o st : Nat) (b : List Byte) : (s.reply r o st b).trouble = s.trouble := by
  simp only [State.reply]; split
  · split <;> rfl
  · rfl
@[simp] theorem State.reply_pkgs (s : State) (r : MReq) (o st : Nat) (b : List Byte) : (s.reply r o st b).pkgs = s.pkgs := by
  simp only [State.reply]; split
  · split <;> rfl
  · rfl
@[simp] theorem State.reply_wm (s : State) (r : MReq) (o st : Nat) (b : List Byte) : (s.reply r o st b).wm = s.wm := by
  simp only [State.reply]; split
  · split <;> rfl
  · rfl
@[simp] theorem State.reply_input (s : State) (r : MReq) (o st : Nat) (b : List Byte) : (s.reply r o st b).input = s.input := by
  simp only [State.reply]; split
  · split <;> rfl
  · rfl
@[simp] theorem State.reply_capTray (s : State) (r : MReq) (o st : Nat) (b : List Byte) : (s.reply r o st b).capTray = s.capTray := by
  simp only [State.reply]; split
  · split <;> rfl
  · rfl
@[simp] theorem State.reply_capPkg (s : State) (r : MReq) (o st : Nat) (b : List Byte) : (s.reply r o st b).capPkg = s.capPkg := by
  simp only [State.reply]; split
  · split <;> rfl
  · rfl
@[simp] theorem State.reply_sfTimerMs (s : State) (r : MReq) (o st : Nat) (b : List Byte) : (s.reply r o st b).sfTimerMs = s.sfTimerMs := by
  simp only [State.reply]; split
  · split <;> rfl
  · rfl
@[simp] theorem State.reply_trayHolder (s : State) (r : MReq) (o st : Nat) (b : List Byte) : (s.reply r o st b).trayHolder = s.trayHolder := by
  simp only [State.reply]; split
  · split <;> rfl
  · rfl
@[simp] theorem State.reply_die (s : State) (r : MReq) (o st : Nat) (b : List Byte) (k : DieId) : (s.reply r o st b).die k = s.die k := by
  simp only [State.die, State.reply_dies]
@[simp] theorem State.reply_port (s : State) (r : MReq) (o st : Nat) (b : List Byte) (k : PortId) : (s.reply r o st b).port k = s.port k := by
  simp only [State.port, State.reply_links]
@[simp] theorem State.reply_field (s : State) (r : MReq) (o st : Nat) (b : List Byte) (k : Fin 8) : (s.reply r o st b).field k = s.field k := by
  simp only [State.field, State.reply_fields]
@[simp] theorem State.reply_scope (s : State) (r : MReq) (o st : Nat) (b : List Byte) (k : Fin 9) : (s.reply r o st b).scope k = s.scope k := by
  simp only [State.scope, State.reply_scopes]
@[simp] theorem State.reply_pkg (s : State) (r : MReq) (o st : Nat) (b : List Byte) (k : Fin 4) : (s.reply r o st b).pkg k = s.pkg k := by
  simp only [State.pkg, State.reply_pkgs]

/-- A response changes at most the decision of one channel: whether a channel awaits a request stays. -/
theorem State.reply_awaits (s : State) (r q : MReq) (o st : Nat) (b : List Byte) (h : s.awaits q) :
    (s.reply r o st b).awaits q := by
  intro hq
  have hw := h hq
  simp only [State.reply]
  split
  · rename_i hr
    split
    · by_cases hc : (⟨r.port.val, hr⟩ : Fin 4) = ⟨q.port.val, hq⟩ ∧ r.chan = q.chan
      · obtain ⟨h1, h2⟩ := hc
        rw [h1, h2, State.setChan_chan_same]
        exact hw
      · rw [State.setChan_chan_other]
        · exact hw
        · by_cases h1 : (⟨r.port.val, hr⟩ : Fin 4) = ⟨q.port.val, hq⟩
          · exact .inr fun h2 => hc ⟨h1, h2⟩
          · exact .inl h1
    · exact hw
  · exact hw

/-- A response to another channel leaves a response that stands. -/
theorem State.reply_other_answered (s : State) (r q : MReq) (o st : Nat) (b : List Byte) (o' st' : Nat) (b' : List Byte)
    (hr : r.port.val < 4) (hq : q.port.val < 4) (hn : r.port ≠ q.port ∨ r.chan ≠ q.chan) (h : s.answered q o' st' b') :
    (s.reply r o st b).answered q o' st' b' := by
  have hne : (⟨r.port.val, hr⟩ : Fin 4) ≠ ⟨q.port.val, hq⟩ ∨ r.chan ≠ q.chan := by
    rcases hn with hn | hn
    · exact .inl fun e => hn (Fin.ext (by simpa using e))
    · exact .inr hn
  simp only [State.answered, hq, dite_true, State.reply_die, State.reply_span] at h ⊢
  rw [← h]
  simp only [State.reply, hr, dite_true]
  split
  · rw [State.setChan_chan_other _ _ _ _ _ _ hne]
  · rfl

/-! ### A vector: cause, message, nothing else -/

@[simp] theorem State.raise_pending (s : State) (n : Fin 4) (v : Nat) : (s.raise n v).pending = s.pending := by
  simp only [State.raise]; split
  · rfl
  · split <;> rfl
@[simp] theorem State.raise_waiting (s : State) (n : Fin 4) (v : Nat) : (s.raise n v).waiting = s.waiting := by
  simp only [State.raise]; split
  · rfl
  · split <;> rfl
@[simp] theorem State.raise_resumed (s : State) (n : Fin 4) (v : Nat) : (s.raise n v).resumed = s.resumed := by
  simp only [State.raise]; split
  · rfl
  · split <;> rfl
@[simp] theorem State.raise_wmReply (s : State) (n : Fin 4) (v : Nat) : (s.raise n v).wmReply = s.wmReply := by
  simp only [State.raise]; split
  · rfl
  · split <;> rfl
@[simp] theorem State.raise_now (s : State) (n : Fin 4) (v : Nat) : (s.raise n v).now = s.now := by
  simp only [State.raise]; split
  · rfl
  · split <;> rfl
@[simp] theorem State.raise_free (s : State) (n : Fin 4) (v : Nat) : (s.raise n v).free = s.free := by
  simp only [State.raise]; split
  · rfl
  · split <;> rfl
@[simp] theorem State.raise_serial (s : State) (n : Fin 4) (v : Nat) : (s.raise n v).serial = s.serial := by
  simp only [State.raise]; split
  · rfl
  · split <;> rfl
@[simp] theorem State.raise_bundle (s : State) (n : Fin 4) (v : Nat) : (s.raise n v).bundle = s.bundle := by
  simp only [State.raise]; split
  · rfl
  · split <;> rfl
@[simp] theorem State.raise_tray (s : State) (n : Fin 4) (v : Nat) : (s.raise n v).tray = s.tray := by
  simp only [State.raise]; split
  · rfl
  · split <;> rfl
@[simp] theorem State.raise_span (s : State) (n : Fin 4) (v : Nat) : (s.raise n v).span = s.span := by
  simp only [State.raise]; split
  · rfl
  · split <;> rfl
@[simp] theorem State.raise_peers (s : State) (n : Fin 4) (v : Nat) : (s.raise n v).peers = s.peers := by
  simp only [State.raise]; split
  · rfl
  · split <;> rfl
@[simp] theorem State.raise_serving (s : State) (n : Fin 4) (v : Nat) : (s.raise n v).serving = s.serving := by
  simp only [State.raise]; split
  · rfl
  · split <;> rfl
@[simp] theorem State.raise_scopes (s : State) (n : Fin 4) (v : Nat) : (s.raise n v).scopes = s.scopes := by
  simp only [State.raise]; split
  · rfl
  · split <;> rfl
@[simp] theorem State.raise_targets (s : State) (n : Fin 4) (v : Nat) : (s.raise n v).targets = s.targets := by
  simp only [State.raise]; split
  · rfl
  · split <;> rfl
@[simp] theorem State.raise_fields (s : State) (n : Fin 4) (v : Nat) : (s.raise n v).fields = s.fields := by
  simp only [State.raise]; split
  · rfl
  · split <;> rfl
@[simp] theorem State.raise_dies (s : State) (n : Fin 4) (v : Nat) : (s.raise n v).dies = s.dies := by
  simp only [State.raise]; split
  · rfl
  · split <;> rfl
@[simp] theorem State.raise_links (s : State) (n : Fin 4) (v : Nat) : (s.raise n v).links = s.links := by
  simp only [State.raise]; split
  · rfl
  · split <;> rfl
@[simp] theorem State.raise_ledgerEpoch (s : State) (n : Fin 4) (v : Nat) : (s.raise n v).ledgerEpoch = s.ledgerEpoch := by
  simp only [State.raise]; split
  · rfl
  · split <;> rfl
@[simp] theorem State.raise_leader (s : State) (n : Fin 4) (v : Nat) : (s.raise n v).leader = s.leader := by
  simp only [State.raise]; split
  · rfl
  · split <;> rfl
@[simp] theorem State.raise_cleaner (s : State) (n : Fin 4) (v : Nat) : (s.raise n v).cleaner = s.cleaner := by
  simp only [State.raise]; split
  · rfl
  · split <;> rfl
@[simp] theorem State.raise_trouble (s : State) (n : Fin 4) (v : Nat) : (s.raise n v).trouble = s.trouble := by
  simp only [State.raise]; split
  · rfl
  · split <;> rfl
@[simp] theorem State.raise_pkgs (s : State) (n : Fin 4) (v : Nat) : (s.raise n v).pkgs = s.pkgs := by
  simp only [State.raise]; split
  · rfl
  · split <;> rfl
@[simp] theorem State.raise_wm (s : State) (n : Fin 4) (v : Nat) : (s.raise n v).wm = s.wm := by
  simp only [State.raise]; split
  · rfl
  · split <;> rfl
@[simp] theorem State.raise_input (s : State) (n : Fin 4) (v : Nat) : (s.raise n v).input = s.input := by
  simp only [State.raise]; split
  · rfl
  · split <;> rfl
@[simp] theorem State.raise_capTray (s : State) (n : Fin 4) (v : Nat) : (s.raise n v).capTray = s.capTray := by
  simp only [State.raise]; split
  · rfl
  · split <;> rfl
@[simp] theorem State.raise_capPkg (s : State) (n : Fin 4) (v : Nat) : (s.raise n v).capPkg = s.capPkg := by
  simp only [State.raise]; split
  · rfl
  · split <;> rfl
@[simp] theorem State.raise_sfTimerMs (s : State) (n : Fin 4) (v : Nat) : (s.raise n v).sfTimerMs = s.sfTimerMs := by
  simp only [State.raise]; split
  · rfl
  · split <;> rfl
@[simp] theorem State.raise_trayHolder (s : State) (n : Fin 4) (v : Nat) : (s.raise n v).trayHolder = s.trayHolder := by
  simp only [State.raise]; split
  · rfl
  · split <;> rfl
@[simp] theorem State.raise_die (s : State) (n : Fin 4) (v : Nat) (k : DieId) : (s.raise n v).die k = s.die k := by
  simp only [State.die, State.raise_dies]
@[simp] theorem State.raise_port (s : State) (n : Fin 4) (v : Nat) (k : PortId) : (s.raise n v).port k = s.port k := by
  simp only [State.port, State.raise_links]
@[simp] theorem State.raise_field (s : State) (n : Fin 4) (v : Nat) (k : Fin 8) : (s.raise n v).field k = s.field k := by
  simp only [State.field, State.raise_fields]
@[simp] theorem State.raise_scope (s : State) (n : Fin 4) (v : Nat) (k : Fin 9) : (s.raise n v).scope k = s.scope k := by
  simp only [State.scope, State.raise_scopes]
@[simp] theorem State.raise_pkg (s : State) (n : Fin 4) (v : Nat) (k : Fin 4) : (s.raise n v).pkg k = s.pkg k := by
  simp only [State.pkg, State.raise_pkgs]

/-- A raised vector's cause stands (R255). -/
theorem State.raise_cause (s : State) (n : Fin 4) (v : Nat) (h : v < 64) : ((s.raise n v).host n).cause.getLsbD v = true := by
  have hb : (setBit (s.host n).cause v).getLsbD v = true := by
    simp [setBit, h]
  simp only [State.raise]
  split
  · assumption
  · split
    · simpa using hb
    · simpa [State.emit_host] using hb

/-- A cause that stood still stands after any vector. -/
theorem State.raise_cause_mono (s : State) (n m : Fin 4) (v j : Nat) (h : (s.host m).cause.getLsbD j = true) :
    ((s.raise n v).host m).cause.getLsbD j = true := by
  have hb : (setBit (s.host m).cause v).getLsbD j = true := by simp [setBit, BitVec.getLsbD_or, h]
  simp only [State.raise]
  split
  · exact h
  · by_cases hn : n = m
    · subst hn
      split
      · simpa using hb
      · simpa [State.emit_host] using hb
    · split
      · rw [State.setHost_host_other _ _ _ _ hn]; exact h
      · rw [State.emit_host, State.setHost_host_other _ _ _ _ hn]; exact h

/-- A vector leaves every mailbox channel. -/
@[simp] theorem State.raise_chan (s : State) (n : Fin 4) (v : Nat) (k : Fin 4) (c : Fin 9) : (s.raise n v).chan k c = s.chan k c := by
  simp only [State.raise]
  split
  · rfl
  · by_cases hn : n = k
    · subst hn
      split
      · simp [State.chan]
      · simp [State.chan]
    · split
      · rw [State.setHost_chan_other _ _ _ _ _ hn]
      · rw [State.emit_chan, State.setHost_chan_other _ _ _ _ _ hn]

/-- What channels and dies keep, the responses that await and stand keep. -/
theorem State.awaits_of_chan {s t : State} (r : MReq) (h : ∀ k c, t.chan k c = s.chan k c) (w : s.awaits r) : t.awaits r := by
  intro hp; rw [h]; exact w hp

@[simp] theorem State.ownEvent_chan (s : State) (a : Fin 5) (k : Fin 4) (c : Fin 9) : (s.ownEvent a).chan k c = s.chan k c := by
  simp only [State.ownEvent]; split <;> simp

/-- An ownership event raises vector 26 at the agent's port (Table 10.5a). -/
theorem State.ownEvent_cause (s : State) (a : Fin 5) (p : Fin 4) (h : a.val = p.val) : ((s.ownEvent a).host p).cause.getLsbD 26 = true := by
  have : targetOf a = some p := by
    simp only [targetOf]; rw [dif_pos (by omega)]; simp [h]
  simp only [State.ownEvent, this]
  exact State.raise_cause s p 26 (by omega)

theorem State.ownEvent_cause_mono (s : State) (a : Fin 5) (m : Fin 4) (j : Nat) (h : (s.host m).cause.getLsbD j = true) :
    ((s.ownEvent a).host m).cause.getLsbD j = true := by
  simp only [State.ownEvent]; split
  · exact State.raise_cause_mono _ _ _ _ _ h
  · exact h

/-! ### Grants and ends of claims -/

@[simp] theorem State.ownEvent_pending (s : State) (a : Fin 5) : (s.ownEvent a).pending = s.pending := by
  simp only [State.ownEvent]; split <;> simp
@[simp] theorem State.ownEvent_waiting (s : State) (a : Fin 5) : (s.ownEvent a).waiting = s.waiting := by
  simp only [State.ownEvent]; split <;> simp
@[simp] theorem State.ownEvent_resumed (s : State) (a : Fin 5) : (s.ownEvent a).resumed = s.resumed := by
  simp only [State.ownEvent]; split <;> simp
@[simp] theorem State.ownEvent_wmReply (s : State) (a : Fin 5) : (s.ownEvent a).wmReply = s.wmReply := by
  simp only [State.ownEvent]; split <;> simp
@[simp] theorem State.ownEvent_now (s : State) (a : Fin 5) : (s.ownEvent a).now = s.now := by
  simp only [State.ownEvent]; split <;> simp
@[simp] theorem State.ownEvent_free (s : State) (a : Fin 5) : (s.ownEvent a).free = s.free := by
  simp only [State.ownEvent]; split <;> simp
@[simp] theorem State.ownEvent_serial (s : State) (a : Fin 5) : (s.ownEvent a).serial = s.serial := by
  simp only [State.ownEvent]; split <;> simp
@[simp] theorem State.ownEvent_bundle (s : State) (a : Fin 5) : (s.ownEvent a).bundle = s.bundle := by
  simp only [State.ownEvent]; split <;> simp
@[simp] theorem State.ownEvent_tray (s : State) (a : Fin 5) : (s.ownEvent a).tray = s.tray := by
  simp only [State.ownEvent]; split <;> simp
@[simp] theorem State.ownEvent_span (s : State) (a : Fin 5) : (s.ownEvent a).span = s.span := by
  simp only [State.ownEvent]; split <;> simp
@[simp] theorem State.ownEvent_peers (s : State) (a : Fin 5) : (s.ownEvent a).peers = s.peers := by
  simp only [State.ownEvent]; split <;> simp
@[simp] theorem State.ownEvent_serving (s : State) (a : Fin 5) : (s.ownEvent a).serving = s.serving := by
  simp only [State.ownEvent]; split <;> simp
@[simp] theorem State.ownEvent_scopes (s : State) (a : Fin 5) : (s.ownEvent a).scopes = s.scopes := by
  simp only [State.ownEvent]; split <;> simp
@[simp] theorem State.ownEvent_targets (s : State) (a : Fin 5) : (s.ownEvent a).targets = s.targets := by
  simp only [State.ownEvent]; split <;> simp
@[simp] theorem State.ownEvent_fields (s : State) (a : Fin 5) : (s.ownEvent a).fields = s.fields := by
  simp only [State.ownEvent]; split <;> simp
@[simp] theorem State.ownEvent_dies (s : State) (a : Fin 5) : (s.ownEvent a).dies = s.dies := by
  simp only [State.ownEvent]; split <;> simp
@[simp] theorem State.ownEvent_links (s : State) (a : Fin 5) : (s.ownEvent a).links = s.links := by
  simp only [State.ownEvent]; split <;> simp
@[simp] theorem State.ownEvent_ledgerEpoch (s : State) (a : Fin 5) : (s.ownEvent a).ledgerEpoch = s.ledgerEpoch := by
  simp only [State.ownEvent]; split <;> simp
@[simp] theorem State.ownEvent_leader (s : State) (a : Fin 5) : (s.ownEvent a).leader = s.leader := by
  simp only [State.ownEvent]; split <;> simp
@[simp] theorem State.ownEvent_cleaner (s : State) (a : Fin 5) : (s.ownEvent a).cleaner = s.cleaner := by
  simp only [State.ownEvent]; split <;> simp
@[simp] theorem State.ownEvent_trouble (s : State) (a : Fin 5) : (s.ownEvent a).trouble = s.trouble := by
  simp only [State.ownEvent]; split <;> simp
@[simp] theorem State.ownEvent_pkgs (s : State) (a : Fin 5) : (s.ownEvent a).pkgs = s.pkgs := by
  simp only [State.ownEvent]; split <;> simp
@[simp] theorem State.ownEvent_wm (s : State) (a : Fin 5) : (s.ownEvent a).wm = s.wm := by
  simp only [State.ownEvent]; split <;> simp
@[simp] theorem State.ownEvent_input (s : State) (a : Fin 5) : (s.ownEvent a).input = s.input := by
  simp only [State.ownEvent]; split <;> simp
@[simp] theorem State.ownEvent_capTray (s : State) (a : Fin 5) : (s.ownEvent a).capTray = s.capTray := by
  simp only [State.ownEvent]; split <;> simp
@[simp] theorem State.ownEvent_capPkg (s : State) (a : Fin 5) : (s.ownEvent a).capPkg = s.capPkg := by
  simp only [State.ownEvent]; split <;> simp
@[simp] theorem State.ownEvent_sfTimerMs (s : State) (a : Fin 5) : (s.ownEvent a).sfTimerMs = s.sfTimerMs := by
  simp only [State.ownEvent]; split <;> simp
@[simp] theorem State.ownEvent_trayHolder (s : State) (a : Fin 5) : (s.ownEvent a).trayHolder = s.trayHolder := by
  simp only [State.ownEvent]; split <;> simp
@[simp] theorem State.ownEvent_die (s : State) (a : Fin 5) (k : DieId) : (s.ownEvent a).die k = s.die k := by
  simp only [State.die, State.ownEvent_dies]
@[simp] theorem State.ownEvent_port (s : State) (a : Fin 5) (k : PortId) : (s.ownEvent a).port k = s.port k := by
  simp only [State.port, State.ownEvent_links]
@[simp] theorem State.ownEvent_field (s : State) (a : Fin 5) (k : Fin 8) : (s.ownEvent a).field k = s.field k := by
  simp only [State.field, State.ownEvent_fields]
@[simp] theorem State.ownEvent_scope (s : State) (a : Fin 5) (k : Fin 9) : (s.ownEvent a).scope k = s.scope k := by
  simp only [State.scope, State.ownEvent_scopes]
@[simp] theorem State.ownEvent_pkg (s : State) (a : Fin 5) (k : Fin 4) : (s.ownEvent a).pkg k = s.pkg k := by
  simp only [State.pkg, State.ownEvent_pkgs]
@[simp] theorem State.aim_pending (s : State) (n : Fin 9) (a : Option (Fin 4)) : (s.aim n a).pending = s.pending := by
  rfl
@[simp] theorem State.aim_waiting (s : State) (n : Fin 9) (a : Option (Fin 4)) : (s.aim n a).waiting = s.waiting := by
  rfl
@[simp] theorem State.aim_resumed (s : State) (n : Fin 9) (a : Option (Fin 4)) : (s.aim n a).resumed = s.resumed := by
  rfl
@[simp] theorem State.aim_wmReply (s : State) (n : Fin 9) (a : Option (Fin 4)) : (s.aim n a).wmReply = s.wmReply := by
  rfl
@[simp] theorem State.aim_now (s : State) (n : Fin 9) (a : Option (Fin 4)) : (s.aim n a).now = s.now := by
  rfl
@[simp] theorem State.aim_free (s : State) (n : Fin 9) (a : Option (Fin 4)) : (s.aim n a).free = s.free := by
  rfl
@[simp] theorem State.aim_effects (s : State) (n : Fin 9) (a : Option (Fin 4)) : (s.aim n a).effects = s.effects := by
  rfl
@[simp] theorem State.aim_serial (s : State) (n : Fin 9) (a : Option (Fin 4)) : (s.aim n a).serial = s.serial := by
  rfl
@[simp] theorem State.aim_bundle (s : State) (n : Fin 9) (a : Option (Fin 4)) : (s.aim n a).bundle = s.bundle := by
  rfl
@[simp] theorem State.aim_tray (s : State) (n : Fin 9) (a : Option (Fin 4)) : (s.aim n a).tray = s.tray := by
  rfl
@[simp] theorem State.aim_span (s : State) (n : Fin 9) (a : Option (Fin 4)) : (s.aim n a).span = s.span := by
  rfl
@[simp] theorem State.aim_peers (s : State) (n : Fin 9) (a : Option (Fin 4)) : (s.aim n a).peers = s.peers := by
  rfl
@[simp] theorem State.aim_serving (s : State) (n : Fin 9) (a : Option (Fin 4)) : (s.aim n a).serving = s.serving := by
  rfl
@[simp] theorem State.aim_scopes (s : State) (n : Fin 9) (a : Option (Fin 4)) : (s.aim n a).scopes = s.scopes := by
  rfl
@[simp] theorem State.aim_ports (s : State) (n : Fin 9) (a : Option (Fin 4)) : (s.aim n a).ports = s.ports := by
  rfl
@[simp] theorem State.aim_fields (s : State) (n : Fin 9) (a : Option (Fin 4)) : (s.aim n a).fields = s.fields := by
  rfl
@[simp] theorem State.aim_dies (s : State) (n : Fin 9) (a : Option (Fin 4)) : (s.aim n a).dies = s.dies := by
  rfl
@[simp] theorem State.aim_links (s : State) (n : Fin 9) (a : Option (Fin 4)) : (s.aim n a).links = s.links := by
  rfl
@[simp] theorem State.aim_ledgerEpoch (s : State) (n : Fin 9) (a : Option (Fin 4)) : (s.aim n a).ledgerEpoch = s.ledgerEpoch := by
  rfl
@[simp] theorem State.aim_leader (s : State) (n : Fin 9) (a : Option (Fin 4)) : (s.aim n a).leader = s.leader := by
  rfl
@[simp] theorem State.aim_cleaner (s : State) (n : Fin 9) (a : Option (Fin 4)) : (s.aim n a).cleaner = s.cleaner := by
  rfl
@[simp] theorem State.aim_trouble (s : State) (n : Fin 9) (a : Option (Fin 4)) : (s.aim n a).trouble = s.trouble := by
  rfl
@[simp] theorem State.aim_pkgs (s : State) (n : Fin 9) (a : Option (Fin 4)) : (s.aim n a).pkgs = s.pkgs := by
  rfl
@[simp] theorem State.aim_wm (s : State) (n : Fin 9) (a : Option (Fin 4)) : (s.aim n a).wm = s.wm := by
  rfl
@[simp] theorem State.aim_input (s : State) (n : Fin 9) (a : Option (Fin 4)) : (s.aim n a).input = s.input := by
  rfl
@[simp] theorem State.aim_capTray (s : State) (n : Fin 9) (a : Option (Fin 4)) : (s.aim n a).capTray = s.capTray := by
  rfl
@[simp] theorem State.aim_capPkg (s : State) (n : Fin 9) (a : Option (Fin 4)) : (s.aim n a).capPkg = s.capPkg := by
  rfl
@[simp] theorem State.aim_sfTimerMs (s : State) (n : Fin 9) (a : Option (Fin 4)) : (s.aim n a).sfTimerMs = s.sfTimerMs := by
  rfl
@[simp] theorem State.aim_trayHolder (s : State) (n : Fin 9) (a : Option (Fin 4)) : (s.aim n a).trayHolder = s.trayHolder := by
  rfl
@[simp] theorem State.aim_die (s : State) (n : Fin 9) (a : Option (Fin 4)) (k : DieId) : (s.aim n a).die k = s.die k := by
  simp only [State.die, State.aim_dies]
@[simp] theorem State.aim_port (s : State) (n : Fin 9) (a : Option (Fin 4)) (k : PortId) : (s.aim n a).port k = s.port k := by
  simp only [State.port, State.aim_links]
@[simp] theorem State.aim_field (s : State) (n : Fin 9) (a : Option (Fin 4)) (k : Fin 8) : (s.aim n a).field k = s.field k := by
  simp only [State.field, State.aim_fields]
@[simp] theorem State.aim_scope (s : State) (n : Fin 9) (a : Option (Fin 4)) (k : Fin 9) : (s.aim n a).scope k = s.scope k := by
  simp only [State.scope, State.aim_scopes]
@[simp] theorem State.aim_host (s : State) (n : Fin 9) (a : Option (Fin 4)) (k : Fin 4) : (s.aim n a).host k = s.host k := by
  simp only [State.host, State.aim_ports]
@[simp] theorem State.aim_chan (s : State) (n : Fin 9) (a : Option (Fin 4)) (k : Fin 4) (c : Fin 9) : (s.aim n a).chan k c = s.chan k c := by
  simp only [State.chan, State.host, State.aim_ports]
@[simp] theorem State.aim_pkg (s : State) (n : Fin 9) (a : Option (Fin 4)) (k : Fin 4) : (s.aim n a).pkg k = s.pkg k := by
  simp only [State.pkg, State.aim_pkgs]
@[simp] theorem State.aim_targets (s : State) (n : Fin 9) (a : Option (Fin 4)) : (s.aim n a).targets = NMap.set s.targets n.val a := rfl
@[simp] theorem State.undelivered_pending (s : State) (a b c : Nat) : (s.undelivered a b c).pending = s.pending :=
  (State.undelivered_only s a b c).agrees .pending (by decide)
@[simp] theorem State.undelivered_waiting (s : State) (a b c : Nat) : (s.undelivered a b c).waiting = s.waiting :=
  (State.undelivered_only s a b c).agrees .waiting (by decide)
@[simp] theorem State.undelivered_resumed (s : State) (a b c : Nat) : (s.undelivered a b c).resumed = s.resumed :=
  (State.undelivered_only s a b c).agrees .resumed (by decide)
@[simp] theorem State.undelivered_wmReply (s : State) (a b c : Nat) : (s.undelivered a b c).wmReply = s.wmReply :=
  (State.undelivered_only s a b c).agrees .wmReply (by decide)
@[simp] theorem State.undelivered_now (s : State) (a b c : Nat) : (s.undelivered a b c).now = s.now :=
  (State.undelivered_only s a b c).agrees .now (by decide)
@[simp] theorem State.undelivered_free (s : State) (a b c : Nat) : (s.undelivered a b c).free = s.free :=
  (State.undelivered_only s a b c).agrees .free (by decide)
@[simp] theorem State.undelivered_serial (s : State) (a b c : Nat) : (s.undelivered a b c).serial = s.serial :=
  (State.undelivered_only s a b c).agrees .serial (by decide)
@[simp] theorem State.undelivered_bundle (s : State) (a b c : Nat) : (s.undelivered a b c).bundle = s.bundle :=
  (State.undelivered_only s a b c).agrees .bundle (by decide)
@[simp] theorem State.undelivered_tray (s : State) (a b c : Nat) : (s.undelivered a b c).tray = s.tray :=
  (State.undelivered_only s a b c).agrees .tray (by decide)
@[simp] theorem State.undelivered_span (s : State) (a b c : Nat) : (s.undelivered a b c).span = s.span :=
  (State.undelivered_only s a b c).agrees .span (by decide)
@[simp] theorem State.undelivered_peers (s : State) (a b c : Nat) : (s.undelivered a b c).peers = s.peers :=
  (State.undelivered_only s a b c).agrees .peers (by decide)
@[simp] theorem State.undelivered_serving (s : State) (a b c : Nat) : (s.undelivered a b c).serving = s.serving :=
  (State.undelivered_only s a b c).agrees .serving (by decide)
@[simp] theorem State.undelivered_scopes (s : State) (a b c : Nat) : (s.undelivered a b c).scopes = s.scopes :=
  (State.undelivered_only s a b c).agrees .scopes (by decide)
@[simp] theorem State.undelivered_targets (s : State) (a b c : Nat) : (s.undelivered a b c).targets = s.targets :=
  (State.undelivered_only s a b c).agrees .targets (by decide)
@[simp] theorem State.undelivered_fields (s : State) (a b c : Nat) : (s.undelivered a b c).fields = s.fields :=
  (State.undelivered_only s a b c).agrees .fields (by decide)
@[simp] theorem State.undelivered_links (s : State) (a b c : Nat) : (s.undelivered a b c).links = s.links :=
  (State.undelivered_only s a b c).agrees .links (by decide)
@[simp] theorem State.undelivered_ledgerEpoch (s : State) (a b c : Nat) : (s.undelivered a b c).ledgerEpoch = s.ledgerEpoch :=
  (State.undelivered_only s a b c).agrees .ledgerEpoch (by decide)
@[simp] theorem State.undelivered_leader (s : State) (a b c : Nat) : (s.undelivered a b c).leader = s.leader :=
  (State.undelivered_only s a b c).agrees .leader (by decide)
@[simp] theorem State.undelivered_cleaner (s : State) (a b c : Nat) : (s.undelivered a b c).cleaner = s.cleaner :=
  (State.undelivered_only s a b c).agrees .cleaner (by decide)
@[simp] theorem State.undelivered_pkgs (s : State) (a b c : Nat) : (s.undelivered a b c).pkgs = s.pkgs :=
  (State.undelivered_only s a b c).agrees .pkgs (by decide)
@[simp] theorem State.undelivered_input (s : State) (a b c : Nat) : (s.undelivered a b c).input = s.input :=
  (State.undelivered_only s a b c).agrees .input (by decide)
@[simp] theorem State.undelivered_capTray (s : State) (a b c : Nat) : (s.undelivered a b c).capTray = s.capTray :=
  (State.undelivered_only s a b c).agrees .capTray (by decide)
@[simp] theorem State.undelivered_capPkg (s : State) (a b c : Nat) : (s.undelivered a b c).capPkg = s.capPkg :=
  (State.undelivered_only s a b c).agrees .capPkg (by decide)
@[simp] theorem State.undelivered_sfTimerMs (s : State) (a b c : Nat) : (s.undelivered a b c).sfTimerMs = s.sfTimerMs :=
  (State.undelivered_only s a b c).agrees .sfTimerMs (by decide)
@[simp] theorem State.undelivered_trayHolder (s : State) (a b c : Nat) : (s.undelivered a b c).trayHolder = s.trayHolder :=
  (State.undelivered_only s a b c).agrees .trayHolder (by decide)
@[simp] theorem State.undelivered_chan (s : State) (a b c : Nat) (k : Fin 4) (m : Fin 9) : (s.undelivered a b c).chan k m = s.chan k m := by
  have h := (State.undelivered_only s a b c).agrees .ports (by decide)
  simp only [State.chan, State.host, show (s.undelivered a b c).ports = s.ports from h]
@[simp] theorem State.payFwVector_pending (s : State) (a : Fin 5) : (s.payFwVector a).pending = s.pending := by
  simp only [State.payFwVector]; split
  · split <;> simp
  · rfl
@[simp] theorem State.payFwVector_waiting (s : State) (a : Fin 5) : (s.payFwVector a).waiting = s.waiting := by
  simp only [State.payFwVector]; split
  · split <;> simp
  · rfl
@[simp] theorem State.payFwVector_resumed (s : State) (a : Fin 5) : (s.payFwVector a).resumed = s.resumed := by
  simp only [State.payFwVector]; split
  · split <;> simp
  · rfl
@[simp] theorem State.payFwVector_wmReply (s : State) (a : Fin 5) : (s.payFwVector a).wmReply = s.wmReply := by
  simp only [State.payFwVector]; split
  · split <;> simp
  · rfl
@[simp] theorem State.payFwVector_now (s : State) (a : Fin 5) : (s.payFwVector a).now = s.now := by
  simp only [State.payFwVector]; split
  · split <;> simp
  · rfl
@[simp] theorem State.payFwVector_free (s : State) (a : Fin 5) : (s.payFwVector a).free = s.free := by
  simp only [State.payFwVector]; split
  · split <;> simp
  · rfl
@[simp] theorem State.payFwVector_serial (s : State) (a : Fin 5) : (s.payFwVector a).serial = s.serial := by
  simp only [State.payFwVector]; split
  · split <;> simp
  · rfl
@[simp] theorem State.payFwVector_bundle (s : State) (a : Fin 5) : (s.payFwVector a).bundle = s.bundle := by
  simp only [State.payFwVector]; split
  · split <;> simp
  · rfl
@[simp] theorem State.payFwVector_tray (s : State) (a : Fin 5) : (s.payFwVector a).tray = s.tray := by
  simp only [State.payFwVector]; split
  · split <;> simp
  · rfl
@[simp] theorem State.payFwVector_span (s : State) (a : Fin 5) : (s.payFwVector a).span = s.span := by
  simp only [State.payFwVector]; split
  · split <;> simp
  · rfl
@[simp] theorem State.payFwVector_peers (s : State) (a : Fin 5) : (s.payFwVector a).peers = s.peers := by
  simp only [State.payFwVector]; split
  · split <;> simp
  · rfl
@[simp] theorem State.payFwVector_serving (s : State) (a : Fin 5) : (s.payFwVector a).serving = s.serving := by
  simp only [State.payFwVector]; split
  · split <;> simp
  · rfl
@[simp] theorem State.payFwVector_scopes (s : State) (a : Fin 5) : (s.payFwVector a).scopes = s.scopes := by
  simp only [State.payFwVector]; split
  · split <;> simp
  · rfl
@[simp] theorem State.payFwVector_targets (s : State) (a : Fin 5) : (s.payFwVector a).targets = s.targets := by
  simp only [State.payFwVector]; split
  · split <;> simp
  · rfl
@[simp] theorem State.payFwVector_fields (s : State) (a : Fin 5) : (s.payFwVector a).fields = s.fields := by
  simp only [State.payFwVector]; split
  · split <;> simp
  · rfl
@[simp] theorem State.payFwVector_links (s : State) (a : Fin 5) : (s.payFwVector a).links = s.links := by
  simp only [State.payFwVector]; split
  · split <;> simp
  · rfl
@[simp] theorem State.payFwVector_ledgerEpoch (s : State) (a : Fin 5) : (s.payFwVector a).ledgerEpoch = s.ledgerEpoch := by
  simp only [State.payFwVector]; split
  · split <;> simp
  · rfl
@[simp] theorem State.payFwVector_leader (s : State) (a : Fin 5) : (s.payFwVector a).leader = s.leader := by
  simp only [State.payFwVector]; split
  · split <;> simp
  · rfl
@[simp] theorem State.payFwVector_cleaner (s : State) (a : Fin 5) : (s.payFwVector a).cleaner = s.cleaner := by
  simp only [State.payFwVector]; split
  · split <;> simp
  · rfl
@[simp] theorem State.payFwVector_pkgs (s : State) (a : Fin 5) : (s.payFwVector a).pkgs = s.pkgs := by
  simp only [State.payFwVector]; split
  · split <;> simp
  · rfl
@[simp] theorem State.payFwVector_input (s : State) (a : Fin 5) : (s.payFwVector a).input = s.input := by
  simp only [State.payFwVector]; split
  · split <;> simp
  · rfl
@[simp] theorem State.payFwVector_capTray (s : State) (a : Fin 5) : (s.payFwVector a).capTray = s.capTray := by
  simp only [State.payFwVector]; split
  · split <;> simp
  · rfl
@[simp] theorem State.payFwVector_capPkg (s : State) (a : Fin 5) : (s.payFwVector a).capPkg = s.capPkg := by
  simp only [State.payFwVector]; split
  · split <;> simp
  · rfl
@[simp] theorem State.payFwVector_sfTimerMs (s : State) (a : Fin 5) : (s.payFwVector a).sfTimerMs = s.sfTimerMs := by
  simp only [State.payFwVector]; split
  · split <;> simp
  · rfl
@[simp] theorem State.payFwVector_trayHolder (s : State) (a : Fin 5) : (s.payFwVector a).trayHolder = s.trayHolder := by
  simp only [State.payFwVector]; split
  · split <;> simp
  · rfl
@[simp] theorem State.payFwVector_port (s : State) (a : Fin 5) (k : PortId) : (s.payFwVector a).port k = s.port k := by
  simp only [State.port, State.payFwVector_links]
@[simp] theorem State.payFwVector_field (s : State) (a : Fin 5) (k : Fin 8) : (s.payFwVector a).field k = s.field k := by
  simp only [State.field, State.payFwVector_fields]
@[simp] theorem State.payFwVector_scope (s : State) (a : Fin 5) (k : Fin 9) : (s.payFwVector a).scope k = s.scope k := by
  simp only [State.scope, State.payFwVector_scopes]
@[simp] theorem State.payFwVector_pkg (s : State) (a : Fin 5) (k : Fin 4) : (s.payFwVector a).pkg k = s.pkg k := by
  simp only [State.pkg, State.payFwVector_pkgs]
@[simp] theorem State.payFwVector_chan (s : State) (a : Fin 5) (k : Fin 4) (c : Fin 9) : (s.payFwVector a).chan k c = s.chan k c := by
  simp only [State.payFwVector]; split
  · split <;> simp
  · rfl
@[simp] theorem State.grant_pending (s : State) (n : Fin 9) (a : Half) (b : Fin 5) : (s.grant n a b).pending = s.pending := by
  simp only [State.grant]; split <;> simp
@[simp] theorem State.grant_waiting (s : State) (n : Fin 9) (a : Half) (b : Fin 5) : (s.grant n a b).waiting = s.waiting := by
  simp only [State.grant]; split <;> simp
@[simp] theorem State.grant_resumed (s : State) (n : Fin 9) (a : Half) (b : Fin 5) : (s.grant n a b).resumed = s.resumed := by
  simp only [State.grant]; split <;> simp
@[simp] theorem State.grant_wmReply (s : State) (n : Fin 9) (a : Half) (b : Fin 5) : (s.grant n a b).wmReply = s.wmReply := by
  simp only [State.grant]; split <;> simp
@[simp] theorem State.grant_now (s : State) (n : Fin 9) (a : Half) (b : Fin 5) : (s.grant n a b).now = s.now := by
  simp only [State.grant]; split <;> simp
@[simp] theorem State.grant_serial (s : State) (n : Fin 9) (a : Half) (b : Fin 5) : (s.grant n a b).serial = s.serial := by
  simp only [State.grant]; split <;> simp
@[simp] theorem State.grant_bundle (s : State) (n : Fin 9) (a : Half) (b : Fin 5) : (s.grant n a b).bundle = s.bundle := by
  simp only [State.grant]; split <;> simp
@[simp] theorem State.grant_tray (s : State) (n : Fin 9) (a : Half) (b : Fin 5) : (s.grant n a b).tray = s.tray := by
  simp only [State.grant]; split <;> simp
@[simp] theorem State.grant_span (s : State) (n : Fin 9) (a : Half) (b : Fin 5) : (s.grant n a b).span = s.span := by
  simp only [State.grant]; split <;> simp
@[simp] theorem State.grant_peers (s : State) (n : Fin 9) (a : Half) (b : Fin 5) : (s.grant n a b).peers = s.peers := by
  simp only [State.grant]; split <;> simp
@[simp] theorem State.grant_serving (s : State) (n : Fin 9) (a : Half) (b : Fin 5) : (s.grant n a b).serving = s.serving := by
  simp only [State.grant]; split <;> simp
@[simp] theorem State.grant_fields (s : State) (n : Fin 9) (a : Half) (b : Fin 5) : (s.grant n a b).fields = s.fields := by
  simp only [State.grant]; split <;> simp
@[simp] theorem State.grant_links (s : State) (n : Fin 9) (a : Half) (b : Fin 5) : (s.grant n a b).links = s.links := by
  simp only [State.grant]; split <;> simp
@[simp] theorem State.grant_ledgerEpoch (s : State) (n : Fin 9) (a : Half) (b : Fin 5) : (s.grant n a b).ledgerEpoch = s.ledgerEpoch := by
  simp only [State.grant]; split <;> simp
@[simp] theorem State.grant_leader (s : State) (n : Fin 9) (a : Half) (b : Fin 5) : (s.grant n a b).leader = s.leader := by
  simp only [State.grant]; split <;> simp
@[simp] theorem State.grant_cleaner (s : State) (n : Fin 9) (a : Half) (b : Fin 5) : (s.grant n a b).cleaner = s.cleaner := by
  simp only [State.grant]; split <;> simp
@[simp] theorem State.grant_pkgs (s : State) (n : Fin 9) (a : Half) (b : Fin 5) : (s.grant n a b).pkgs = s.pkgs := by
  simp only [State.grant]; split <;> simp
@[simp] theorem State.grant_input (s : State) (n : Fin 9) (a : Half) (b : Fin 5) : (s.grant n a b).input = s.input := by
  simp only [State.grant]; split <;> simp
@[simp] theorem State.grant_capTray (s : State) (n : Fin 9) (a : Half) (b : Fin 5) : (s.grant n a b).capTray = s.capTray := by
  simp only [State.grant]; split <;> simp
@[simp] theorem State.grant_capPkg (s : State) (n : Fin 9) (a : Half) (b : Fin 5) : (s.grant n a b).capPkg = s.capPkg := by
  simp only [State.grant]; split <;> simp
@[simp] theorem State.grant_sfTimerMs (s : State) (n : Fin 9) (a : Half) (b : Fin 5) : (s.grant n a b).sfTimerMs = s.sfTimerMs := by
  simp only [State.grant]; split <;> simp
@[simp] theorem State.grant_trayHolder (s : State) (n : Fin 9) (a : Half) (b : Fin 5) : (s.grant n a b).trayHolder = s.trayHolder := by
  simp only [State.grant]; split <;> simp
@[simp] theorem State.grant_port (s : State) (n : Fin 9) (a : Half) (b : Fin 5) (k : PortId) : (s.grant n a b).port k = s.port k := by
  simp only [State.port, State.grant_links]
@[simp] theorem State.grant_field (s : State) (n : Fin 9) (a : Half) (b : Fin 5) (k : Fin 8) : (s.grant n a b).field k = s.field k := by
  simp only [State.field, State.grant_fields]
@[simp] theorem State.grant_pkg (s : State) (n : Fin 9) (a : Half) (b : Fin 5) (k : Fin 4) : (s.grant n a b).pkg k = s.pkg k := by
  simp only [State.pkg, State.grant_pkgs]
@[simp] theorem State.endClaim_pending (s : State) (n : Fin 9) (b : Bool) : (s.endClaim n b).pending = s.pending := by
  simp only [State.endClaim]; split
  · split <;> simp
  · rfl
@[simp] theorem State.endClaim_waiting (s : State) (n : Fin 9) (b : Bool) : (s.endClaim n b).waiting = s.waiting := by
  simp only [State.endClaim]; split
  · split <;> simp
  · rfl
@[simp] theorem State.endClaim_resumed (s : State) (n : Fin 9) (b : Bool) : (s.endClaim n b).resumed = s.resumed := by
  simp only [State.endClaim]; split
  · split <;> simp
  · rfl
@[simp] theorem State.endClaim_wmReply (s : State) (n : Fin 9) (b : Bool) : (s.endClaim n b).wmReply = s.wmReply := by
  simp only [State.endClaim]; split
  · split <;> simp
  · rfl
@[simp] theorem State.endClaim_now (s : State) (n : Fin 9) (b : Bool) : (s.endClaim n b).now = s.now := by
  simp only [State.endClaim]; split
  · split <;> simp
  · rfl
@[simp] theorem State.endClaim_free (s : State) (n : Fin 9) (b : Bool) : (s.endClaim n b).free = s.free := by
  simp only [State.endClaim]; split
  · split <;> simp
  · rfl
@[simp] theorem State.endClaim_serial (s : State) (n : Fin 9) (b : Bool) : (s.endClaim n b).serial = s.serial := by
  simp only [State.endClaim]; split
  · split <;> simp
  · rfl
@[simp] theorem State.endClaim_bundle (s : State) (n : Fin 9) (b : Bool) : (s.endClaim n b).bundle = s.bundle := by
  simp only [State.endClaim]; split
  · split <;> simp
  · rfl
@[simp] theorem State.endClaim_tray (s : State) (n : Fin 9) (b : Bool) : (s.endClaim n b).tray = s.tray := by
  simp only [State.endClaim]; split
  · split <;> simp
  · rfl
@[simp] theorem State.endClaim_span (s : State) (n : Fin 9) (b : Bool) : (s.endClaim n b).span = s.span := by
  simp only [State.endClaim]; split
  · split <;> simp
  · rfl
@[simp] theorem State.endClaim_peers (s : State) (n : Fin 9) (b : Bool) : (s.endClaim n b).peers = s.peers := by
  simp only [State.endClaim]; split
  · split <;> simp
  · rfl
@[simp] theorem State.endClaim_serving (s : State) (n : Fin 9) (b : Bool) : (s.endClaim n b).serving = s.serving := by
  simp only [State.endClaim]; split
  · split <;> simp
  · rfl
@[simp] theorem State.endClaim_fields (s : State) (n : Fin 9) (b : Bool) : (s.endClaim n b).fields = s.fields := by
  simp only [State.endClaim]; split
  · split <;> simp
  · rfl
@[simp] theorem State.endClaim_dies (s : State) (n : Fin 9) (b : Bool) : (s.endClaim n b).dies = s.dies := by
  simp only [State.endClaim]; split
  · split <;> simp
  · rfl
@[simp] theorem State.endClaim_links (s : State) (n : Fin 9) (b : Bool) : (s.endClaim n b).links = s.links := by
  simp only [State.endClaim]; split
  · split <;> simp
  · rfl
@[simp] theorem State.endClaim_ledgerEpoch (s : State) (n : Fin 9) (b : Bool) : (s.endClaim n b).ledgerEpoch = s.ledgerEpoch := by
  simp only [State.endClaim]; split
  · split <;> simp
  · rfl
@[simp] theorem State.endClaim_leader (s : State) (n : Fin 9) (b : Bool) : (s.endClaim n b).leader = s.leader := by
  simp only [State.endClaim]; split
  · split <;> simp
  · rfl
@[simp] theorem State.endClaim_cleaner (s : State) (n : Fin 9) (b : Bool) : (s.endClaim n b).cleaner = s.cleaner := by
  simp only [State.endClaim]; split
  · split <;> simp
  · rfl
@[simp] theorem State.endClaim_trouble (s : State) (n : Fin 9) (b : Bool) : (s.endClaim n b).trouble = s.trouble := by
  simp only [State.endClaim]; split
  · split <;> simp
  · rfl
@[simp] theorem State.endClaim_pkgs (s : State) (n : Fin 9) (b : Bool) : (s.endClaim n b).pkgs = s.pkgs := by
  simp only [State.endClaim]; split
  · split <;> simp
  · rfl
@[simp] theorem State.endClaim_wm (s : State) (n : Fin 9) (b : Bool) : (s.endClaim n b).wm = s.wm := by
  simp only [State.endClaim]; split
  · split <;> simp
  · rfl
@[simp] theorem State.endClaim_input (s : State) (n : Fin 9) (b : Bool) : (s.endClaim n b).input = s.input := by
  simp only [State.endClaim]; split
  · split <;> simp
  · rfl
@[simp] theorem State.endClaim_capTray (s : State) (n : Fin 9) (b : Bool) : (s.endClaim n b).capTray = s.capTray := by
  simp only [State.endClaim]; split
  · split <;> simp
  · rfl
@[simp] theorem State.endClaim_capPkg (s : State) (n : Fin 9) (b : Bool) : (s.endClaim n b).capPkg = s.capPkg := by
  simp only [State.endClaim]; split
  · split <;> simp
  · rfl
@[simp] theorem State.endClaim_sfTimerMs (s : State) (n : Fin 9) (b : Bool) : (s.endClaim n b).sfTimerMs = s.sfTimerMs := by
  simp only [State.endClaim]; split
  · split <;> simp
  · rfl
@[simp] theorem State.endClaim_trayHolder (s : State) (n : Fin 9) (b : Bool) : (s.endClaim n b).trayHolder = s.trayHolder := by
  simp only [State.endClaim]; split
  · split <;> simp
  · rfl
@[simp] theorem State.endClaim_die (s : State) (n : Fin 9) (b : Bool) (k : DieId) : (s.endClaim n b).die k = s.die k := by
  simp only [State.die, State.endClaim_dies]
@[simp] theorem State.endClaim_port (s : State) (n : Fin 9) (b : Bool) (k : PortId) : (s.endClaim n b).port k = s.port k := by
  simp only [State.port, State.endClaim_links]
@[simp] theorem State.endClaim_field (s : State) (n : Fin 9) (b : Bool) (k : Fin 8) : (s.endClaim n b).field k = s.field k := by
  simp only [State.field, State.endClaim_fields]
@[simp] theorem State.endClaim_pkg (s : State) (n : Fin 9) (b : Bool) (k : Fin 4) : (s.endClaim n b).pkg k = s.pkg k := by
  simp only [State.pkg, State.endClaim_pkgs]

@[simp] theorem State.grant_chan (s : State) (n : Fin 9) (a : Half) (b : Fin 5) (k : Fin 4) (c : Fin 9) :
    (s.grant n a b).chan k c = s.chan k c := by
  simp only [State.grant]; split <;> simp
@[simp] theorem State.endClaim_chan (s : State) (n : Fin 9) (b : Bool) (k : Fin 4) (c : Fin 9) : (s.endClaim n b).chan k c = s.chan k c := by
  simp only [State.endClaim]; split
  · split <;> simp
  · rfl

/-- A token is new and not zero (R267). -/
theorem State.newToken_ne (s : State) (old : Dword) : s.newToken old ≠ 0 ∧ s.newToken old ≠ old := by
  simp only [State.newToken]
  split
  · assumption
  · split
    · rename_i h; exact ⟨h, by intro e; have := congrArg BitVec.toNat e; simp at this; omega⟩
    · rename_i h
      refine ⟨by decide, ?_⟩
      intro e; apply h; rw [← e]; intro q; simp only [Decidable.not_not] at h; rw [← e] at h; exact absurd h (by decide)

/-- A grant: the scope is owned with a new token, its interrupts go to the new owner's port (R267). -/
theorem State.grant_granted (s : State) (n : Fin 9) (rid : Half) (src : Fin 5) : s.granted (s.grant n rid src) n rid src := by
  have h := State.newToken_ne s (s.scope n).token
  simp only [State.granted, State.grant]
  split <;> simp [h.2] <;> exact h.1

/-- A grant leaves every other scope. -/
theorem State.grant_scope_other (s : State) (n m : Fin 9) (rid : Half) (src : Fin 5) (h : n ≠ m) :
    (s.grant n rid src).scope m = s.scope m := by
  simp only [State.grant]
  split <;> simp [State.setScope_scope_other _ _ _ _ h]

end Sys2Proof.Machine
end

