-- ==== Sys2Proof/Machine/Redfish.lean ====
section
/-! DEFINITION. Sys2Proof/Machine/Redfish.lean: what the rack reads from the Watermaster's Redfish resources (R315, R330, R340, R355,
R358, R378, R408, Tables 13.2, 13.9). The table has no row for a read: these are views of the state (log entry 154). -/

namespace Sys2Proof.Machine

/-- A resource of Table 13.9. -/
inductive RackResource where
  | trayChassis
  | pkgChassis (n : Fin 4)
  | cageChassis (c : Fin 16)
  | trayPower
  | pkgPower (n : Fin 4)
  | sensor (i : Fin 96)
  | updateService
deriving DecidableEq, Repr

/-- What a resource shows: of a chassis its health and locate, of a package its state and WMP_PKGFAULT, of a cage module presence,
training state and level, of a power control the cap in W (0 none) and the consumed power in mW, of a sensor its reading and limits,
of the update service the BUNDLE_ID and state of each bank. -/
inductive RackValue where
  | trayChassis (health : Health) (locate : Bool)
  | pkgChassis (state fault : Nat) (health : Health) (locate : Bool)
  | cageChassis (module : Bool) (training level : Nat) (health : Health) (locate : Bool)
  | power (cap consumed : Nat)
  | sensor (reading : Int) (limits : Limits)
  | banks (bundleA : Dword) (stateA : Nat) (bundleB : Dword) (stateB : Nat)
deriving DecidableEq, Repr

/-- WMP_PKGFAULT of a package: the latch bits, RAIL_ID, and the hiccups of the present second (Table 13.2). -/
def State.pkgFaultWord (s : State) (n : Fin 4) : Nat :=
  let k := s.pkg n
  k.latch.toNat + 256 * k.railId + 65536 * min 15 (k.hiccups.filter fun a => s.now < a + sec).length

/-- What a resource shows (Table 13.9). -/
def State.rackValue (s : State) : RackResource → RackValue
  | .trayChassis => .trayChassis s.trayHealth s.wm.locTray.isSome
  | .pkgChassis n => .pkgChassis (s.pkg n).st.code (s.pkgFaultWord n) (s.pkgHealth n) (s.wm.located (.pkg n)).isSome
  | .cageChassis c =>
    let y := s.port (cagePort s.span.num c)
    .cageChassis y.link.cable.isSome y.link.st.code y.err.level.code (s.cageHealth c) (s.wm.located (.cage c)).isSome
  | .trayPower => .power s.wm.redfishTray (s.pointPower 0 48)
  | .pkgPower n => .power (NMap.get s.wm.redfishPkg n.val 0) (s.pkgInput n)
  | .sensor i => .sensor (NMap.get s.wm.mon i.val {}).reading (s.limits (NMap.get s.wm.mon 0 {}).reading i.val)
  | .updateService => .banks s.wm.bankA.bundle s.wm.bankA.st.code s.wm.bankB.bundle s.wm.bankB.st.code

/-- A read of a resource: no answer while the Watermaster restarts; its recovery image serves the update service and the package
chassis alone (R336, R340, R378). -/
def State.rackRead (s : State) (r : RackResource) : Option RackValue :=
  let served : Bool := s.wmUp || (s.wmAlive && (match r with | .pkgChassis _ => true | .updateService => true | _ => false))
  if served then some (s.rackValue r) else none

end Sys2Proof.Machine
end

