-- ==== Sys2Proof/WellFormed.lean ====
section
/-! DEFINITION. Sys2Proof/WellFormed.lean: when a command could have been sent at all: its fields fit the widths the spec gives them,
and it names units that exist. The meanings do not need it: they state what happens to every operand. -/

namespace Sys2Proof

/-- A request's header fields fit their widths (Table 10.6). -/
def MReq.ok (r : MReq) : Bool := r.version < 256 && r.length < 65536

/-- A port exists: five on an HC-2, four on an HX-1 (R429). -/
def portOk (p : PortId) : Bool := Machine.portExists p

/-- A mesh header's fields fit their widths, DEST and SRC name a tile or an endpoint (Table 3.2). -/
def Packet.ok (p : Packet) : Bool :=
  p.channel < 64 && p.dest < 1056 && p.src < 1056 && p.kind < 6 && p.egress < 5

/-- A side-flow header's fields fit their widths (Table 7.2). -/
def Hdr.ok (h : Hdr) : Bool :=
  h.opcode < 256 && h.field < 16 && h.space < 8 && h.dstUnit < 256 && h.srcUnit < 256 && h.tag < 4096 && h.cstatus < 16
    && h.len ≤ 256 && h.addr < 0x1000000000000

/-- A message carries the data its header states (R174). -/
def Msg.ok (m : Msg) : Bool := m.h.ok && m.data.length = m.h.len

/-- A tally mark's fields fit their widths (Table 4.2). -/
def Mark.ok (m : Mark) : Bool :=
  m.pinned < 65536 && decide (-32768 ≤ m.rootOfs) && decide (m.rootOfs < 32768) && m.depth < 256 && m.state < 256

/-- A lane lies in a bundle of a port, data or spare (R111). -/
def laneOk (p : PortId) (l : Lane) : Bool :=
  l.bundle < Machine.bundlesOf p && l.dir < 2 && l.lane < Machine.dataLanes p + Machine.spareLanes p

/-- Whether a command is well formed. -/
def Instr.wf (i : Instr) : Bool :=
  match i with
  | .idTray r => r.ok
  | .idDie r _ _ => r.ok
  | .status r => r.ok
  | .placement r _ => r.ok
  | .ownClaim r _ => r.ok
  | .ownRelease r _ => r.ok
  | .ownHeartbeat r _ => r.ok
  | .ownHandover r _ _ _ => r.ok
  | .ownAccept r _ => r.ok
  | .ownQuery r => r.ok
  | .ownNolapse r _ _ => r.ok
  | .ownSeize r _ => r.ok
  | .ownExpert r _ _ => r.ok
  | .fieldCreate r b => r.ok && b.masks.length = 4
  | .fieldResize r b => r.ok && b.masks.length = 4
  | .fieldDestroy r _ => r.ok
  | .fieldDisable r _ => r.ok
  | .fieldEnable r _ => r.ok
  | .fieldStatus r _ => r.ok
  | .planLoad r _ _ => r.ok
  | .planUnload r _ => r.ok
  | .planActivate r => r.ok
  | .planReload r _ => r.ok
  | .launchCancel r _ _ _ => r.ok
  | .planInfo r _ => r.ok
  | .launchResume r => r.ok
  | .ledgerRead r _ _ => r.ok
  | .linkCfgRead r _ _ _ => r.ok
  | .linkRetrain r _ => r.ok
  | .linkDisable r _ => r.ok
  | .linkDisableForce r _ => r.ok
  | .linkEnable r _ => r.ok
  | .linkDry r _ _ _ => r.ok
  | .linkPond r _ _ holds => r.ok && holds.length = 9
  | .linkThresh r _ figs => r.ok && figs.length = 6
  | .linkCntClear r _ _ => r.ok
  | .sfTimer r _ => r.ok
  | .spanForm r _ _ => r.ok
  | .spanDissolve r _ => r.ok
  | .powerRead r => r.ok
  | .powerCap r _ pkgs => r.ok && pkgs.length = 4
  | .fieldRung r _ _ => r.ok
  | .calOff r _ _ => r.ok
  | .pkgRearm r _ => r.ok
  | .pkgPowerOn r _ => r.ok
  | .pkgPowerOff r _ => r.ok
  | .trbRead r _ _ _ _ => r.ok
  | .trbClear r _ _ _ => r.ok
  | .obsCounters r _ => r.ok
  | .obsHistArm r _ => r.ok
  | .obsHistRead r _ => r.ok
  | .obsTraceStart r _ => r.ok
  | .obsTraceRead r _ => r.ok
  | .obsTraceStop r _ => r.ok
  | .dbgRead r _ _ _ _ => r.ok
  | .dbgWrite r _ _ _ data => r.ok && data.length ≤ 4000
  | .fwStatus r => r.ok
  | .fwStage r _ _ => r.ok
  | .fwActivate r => r.ok
  | .fwRollback r => r.ok
  | .fwAbort r => r.ok
  | .testStart r _ _ _ _ => r.ok
  | .testStop r _ => r.ok
  | .testRead r _ _ => r.ok
  | .repairClear r _ => r.ok
  | .dbiMbxLockRead _ _ _ _ => true
  | .mbxSubmit _ _ _ _ => true
  | .mbxRelease _ _ _ _ => true
  | .mbxResponsePosted _ _ _ => true
  | .mbxLockSubmitTimeout _ _ _ => true
  | .mbxLockDoneTimeout _ _ _ => true
  | .wmAbsentTimeout _ _ _ => true
  | .ownClaimWindowClose _ _ => true
  | .ownerLapse _ _ => true
  | .handoverExpiry _ _ => true
  | .ownBeatWrite _ _ _ _ => true
  | .launchDoorbell _ _ _ _ _ => true
  | .launchRingWrite _ _ _ _ data => data.length ≤ 64
  | .hostBar4Read _ _ _ _ => true
  | .hostBar4Write _ _ _ _ => true
  | .hostPortReset _ => true
  | .pciePowerStateChange _ _ => true
  | .idsTallyLoRead _ => true
  | .idsTallyHiRead _ => true
  | .trbSummaryWrite _ _ _ => true
  | .hgAlmctlPop _ => true
  | .tstCtrlStart p => portOk p
  | .tstCtrlStop p => portOk p
  | .registerWrite _ _ _ => true
  | .testRunLimit p => portOk p
  | .stepBoundary _ _ => true
  | .launchTake _ _ => true
  | .homeRecallDone _ _ _ => true
  | .routerForward d _ _ _ => d.isCompute
  | .meshPacketArrival d _ p => p.ok && d.isCompute
  | .ruleFire d _ => d.isCompute
  | .iterationComplete d _ _ => d.isCompute
  | .creditReturn d src dst channel => d.isCompute && src < 1056 && dst < 1056 && channel < 64
  | .memoryReadRequest d _ addr p reply _ => p.ok && d.isCompute && addr < 0xC00000000 && reply < 64
  | .memoryWrite d _ addr p _ => p.ok && d.isCompute && addr < 0xC00000000
  | .memoryReadResponse d _ _ => d.isCompute
  | .ingressInject p => portOk p && p.die.isCompute
  | .drainMarkerArrival d _ channel => d.isCompute && channel < 64
  | .tileDrained d _ => d.isCompute
  | .configPacketArrival d _ p => p.ok && d.isCompute
  | .tileSwitch d _ => d.isCompute
  | .switchStepEnd _ _ _ => true
  | .dieSwitchReport _ _ _ => true
  | .reloadDeadline _ _ _ => true
  | .fieldDrained _ _ => true
  | .drainLimit _ _ => true
  | .flushComplete _ _ => true
  | .tallyMarkSend p _ => portOk p
  | .tallyMark p m _ _ => portOk p && m.ok
  | .slewStep _ _ => true
  | .parentSilence _ _ => true
  | .holdoverDescendantEnd _ _ => true
  | .holdoverVacant _ _ => true
  | .holdoverFault _ _ => true
  | .leaderClaim _ _ => true
  | .leaderClaimWindowClose _ => true
  | .referenceInputFail _ => true
  | .rootTallyStart _ => true
  | .fieldChangeNotice _ _ _ => true
  | .fieldChangeConfirm _ _ _ => true
  | .commitDeadline _ _ => true
  | .fieldChangeCommit _ _ _ => true
  | .stewardLimit _ _ => true
  | .trainingTimeout p _ => portOk p
  | .trainingBackoffEnd p _ => portOk p
  | .detectAnswer p _ => portOk p
  | .clockLocked p _ => portOk p
  | .eqRecordAnswer p _ => portOk p
  | .eqFetchTimeout p _ => portOk p
  | .equaliseDone p _ _ => portOk p
  | .repairDone p peerMaps failing _ => portOk p && failing.all (laneOk p) && peerMaps.length = 2 * Machine.bundlesOf p
  | .alignDone p _ _ _ => portOk p
  | .configDone p _ _ => portOk p
  | .pinDone p _ _ => portOk p
  | .eqRecordStore p _ _ => portOk p
  | .roleSwap r _ => portOk r.port
  | .modulePresenceChange _ _ _ => true
  | .laneSilent p l _ => portOk p && laneOk p l
  | .substitutionTxSwitch p _ => portOk p
  | .substitutionRxSwitch r _ => portOk r.port
  | .clockPairLoss p _ => portOk p
  | .linkDown p _ _ => portOk p
  | .dryIdleElapsed p _ => portOk p
  | .dryReq p _ => portOk p
  | .dryAck p _ => portOk p
  | .dryNak p _ => portOk p
  | .dryCommit p _ => portOk p
  | .dryEntered p _ => portOk p
  | .wake p _ _ => portOk p
  | .dryExitDone p dead _ _ => portOk p && dead.all (laneOk p)
  | .plannedPositionSend p bundle _ => portOk p && bundle < Machine.bundlesOf p
  | .sidePositionSend p bundle _ _ => portOk p && bundle < Machine.bundlesOf p
  | .plannedFlitReceive p bundle _ _ _ => portOk p && bundle < Machine.bundlesOf p
  | .sideFlitReceive p bundle _ _ _ => portOk p && bundle < Machine.bundlesOf p
  | .nak p _ _ => portOk p
  | .ackTimerExpiry p _ => portOk p
  | .replaySync p _ _ _ => portOk p
  | .lcRequestRepeat p => portOk p
  | .cfgRd p _ _ => portOk p
  | .cfgRsp p _ _ _ => portOk p
  | .errorWindowEnd p _ => portOk p
  | .sluice _ _ _ _ _ _ => true
  | .messageForward _ m _ _ => m.ok
  | .credit h data => h.ok && data.length = h.len
  | .creditSendDue _ _ => true
  | .census h data _ => h.ok && data.length = h.len
  | .censusDue _ => true
  | .lostNotice h data _ => h.ok && data.length = h.len
  | .routeHold h _ => h.ok
  | .routeClear h _ => h.ok
  | .memRd h _ => h.ok
  | .memWr h data _ => h.ok && data.length = h.len
  | .memWrNp h data _ => h.ok && data.length = h.len
  | .memAtomic h data _ => h.ok && data.length = h.len
  | .memCpl h data _ => h.ok && data.length = h.len
  | .memCplNd h _ => h.ok
  | .ownReq h _ => h.ok
  | .ownGrant h data _ => h.ok && data.length = h.len
  | .inval h => h.ok
  | .invalAck h data => h.ok && data.length = h.len
  | .release h data _ => h.ok && data.length = h.len
  | .intMsg h data _ => h.ok && data.length = h.len
  | .dbgRd h _ => h.ok
  | .dbgWr h data _ => h.ok && data.length = h.len
  | .dbgRsp h data _ => h.ok && data.length = h.len
  | .alarm h data _ => h.ok && data.length = h.len
  | .sfTimerExpiry _ _ _ _ => true
  | .sfCeilingExpiry _ _ _ _ => true
  | .telemetryRecord _ _ _ => true
  | .telemetryLost d _ => d.isCompute
  | .thermalLevelLeave _ _ => true
  | .limitRaiseDue _ _ _ _ => true
  | .thermalTrip _ _ => true
  | .capReceive _ _ _ _ _ => true
  | .regulatorSettled d _ => d.isCompute
  | .calWindowMeasure d _ _ => d.isCompute
  | .calStale d _ => d.isCompute
  | .inputLockout _ => true
  | .breakerTrip _ _ => true
  | .rampTimeout _ _ => true
  | .hsOvertemp _ _ => true
  | .vhsRampDone _ _ => true
  | .powerupSequenceStep _ _ => true
  | .railInWindow _ _ _ => true
  | .railWindowTimeout _ _ _ => true
  | .powerdownSequenceStep _ _ _ => true
  | .vhsDischarged _ _ => true
  | .pkgDown _ _ => true
  | .monitorScan readings _ => readings.length = 96 || readings.length = 97
  | .inputFault _ => true
  | .inputReturn _ => true
  | .regulatorHiccup _ _ _ => true
  | .hiccupWindowEnd _ _ _ => true
  | .regulatorLatchoff _ _ _ => true
  | .protectiveCapClear _ _ => true
  | .dieWarmReset _ _ => true
  | .dieResetRelease _ _ => true
  | .redfishTrayOn _ => true
  | .redfishTrayForceoff _ => true
  | .redfishTrayPowercycle _ => true
  | .powercycleOnDelay _ => true
  | .redfishPkgOn _ _ => true
  | .redfishPkgForceoff _ _ => true
  | .redfishPkgGracefulshutdown _ _ => true
  | .redfishPkgForcerestart _ _ => true
  | .redfishResetUnsupported => true
  | .redfishCap _ _ _ => true
  | .redfishClearFault _ _ => true
  | .redfishLocate _ _ _ => true
  | .redfishUpdatePush _ _ _ => true
  | .redfishFwActivate _ => true
  | .redfishFwRollback _ => true
  | .redfishRecoveryRequest => true
  | .watchdogExpiry _ => true
  | .wmFirmwareFault _ => true
  | .wmServiceResumed _ => true
  | .wmHeartbeatDue _ => true
  | .bootExpiryCountReset _ => true
  | .buttonPress _ _ => true
  | .buttonHold _ => true
  | .locateTimeout _ _ => true
  | .stagingComplete _ _ _ => true
  | .trayPowerUp _ => true
  | .bringupDeadline _ => true
  | .bringupRetry _ => true
  | .vmgtInWindow _ _ => true
  | .chainAssign _ _ => true
  | .chainRead _ _ len => len < 65536
  | .chainWrite _ _ data => data.length < 65536
  | .assignNoAnswer _ _ _ => true
  | .chainStuck _ _ => true
  | .chainRetry _ _ _ _ => true
  | .chainAlarmPoll _ => true
  | .firmwareComponentArrival _ _ _ => true
  | .hbmTrainingDone d _ _ => d.isCompute
  | .hbmScrubDone d _ => d.isCompute
  | .trayReady _ => true
  | .trayDegraded _ => true
  | .spanReform _ _ => true
  | .handlingDone _ _ _ => true
  | .handlingTimeout _ _ _ => true
  | .histogramSample _ => true
  | .pinningPadOverflow p _ => portOk p
  | .auxiliarySupplyLoss _ => true
  | .riderFault _ _ _ => true
  | .dieUe _ _ => true
  | .fabricUe _ _ => true
  | .scrubComplete _ _ => true

end Sys2Proof
end

