-- ==== Sys2Proof/Tests/Slice0.lean ====
section
/-! SUPPORT. Sys2Proof/Tests/Slice0.lean: the model's own tests: for every statement with hypotheses, states and operands that meet them,
each clause at a boundary of its range; a term each check of WellFormed.lean refuses; figures the spec states. -/

namespace Sys2Proof.Tests
open Sys2Proof.Machine

set_option Elab.async false

/-- Nothing is queued at reset. -/
theorem test_reset_queue : State.reset.pending = [] := by decide

/-- A die whose firmware runs and whose tally counts in agreement; HBM scrubbed. -/
def liveDie (d : DieId) : Die :=
  { resetDie d with boot := { st := .firmware, addr := BitVec.ofNat 8 d.addr, hbmTrained := true, hbmScrubbed := true, plcCtrl := 0x1A60 }
                    tally := { st := .agreed, wasAgreed := true, counting := true, depth := 0, value := 1000000 } }

/-- A package in state 2, placed. -/
def livePkg : Pkg :=
  { st := .on, gate := true, sw := true, placed := true, enumDone := true, enumerated := 5, seq := 11, refOn := true, straps := true }

/-- A tray that is ready: package 0 is on, agent 0x100 at port 0 owns the tray and F1, whose member is KP0-C0. -/
def lit : State :=
  { now := 20000000, tray := .ready, serving := some 0, input := { present := true }, wm := { running := true }
    pkgs := [(0, livePkg)]
    dies := (packageDies 0 0).map fun d => (d.key, liveDie d)
    scopes := [(0, { owned := true, rid := 0x100, token := 5 }), (1, { owned := true, rid := 0x100, token := 6 })]
    leader := { root := some ⟨0, 0, 0⟩ }
    fields := [(0, { st := .enabled, dies := [⟨0, 0, 1⟩], w := 0x4000000, h := 0x4000000 })]
    ports := [(0, { chans := [(0, { held := true, holder := 0x100, submitted := true, st := .busy, captured := some [] })] })] }

/-- A request of the tray owner on channel M. -/
def ask (len : Nat) : MReq :=
  { port := 0, rid := 0x100, chan := 0, version := 2, flags := 0, seq := 0, length := len, token := 5, rsvd := 0, t := 20000000 }

abbrev C0 : DieId := ⟨0, 0, 1⟩
abbrev X : DieId := ⟨0, 0, 0⟩

/-- The tray with the expert permission of its owner. -/
def expertLit : State := { lit with scopes := [(0, { owned := true, rid := 0x100, token := 5, expert := true }),
                                               (1, { owned := true, rid := 0x100, token := 6, expert := true })] }

/-- Claimant k of F1, whose channel awaits the answer. -/
def claimant (k : Nat) : MReq := { ask 4 with port := 0, rid := BitVec.ofNat 16 (0x100 * (k + 1)), chan := Fin.ofNat 9 k, t := 19000000 }

/-- The tray with F1 vacant and two claims of it. -/
def claimLit : State :=
  { lit with scopes := [(0, { owned := true, rid := 0x100, token := 5 }),
                        (1, { win := some ⟨19000000, [⟨claimant 0, 0x100, 0⟩, ⟨claimant 1, 0x200, 1⟩]⟩ })]
             ports := [(0, { chans := [(0, { held := true, holder := 0x100, submitted := true, st := .busy, captured := some [] }),
                                       (1, { held := true, holder := 0x200, submitted := true, st := .busy, captured := some [] })] })] }

/-- The tray owner has offered the tray to agent 0x200. -/
def offerLit : State :=
  { lit with scopes := [(0, { owned := true, rid := 0x100, token := 5, offer := some ⟨0x200, 0, 19000000⟩ })]
             ports := [(0, { chans := [(0, { held := true, holder := 0x200, submitted := true, st := .busy, captured := some [] })] })] }

/-- The body of a FIELD_CREATE or FIELD_RESIZE of F(f): the first compute dies of a mask of tray 0. -/
def body (f mask : Nat) : FieldBody := { field := f, masks := [mask, 0, 0, 0], w := 0x4000000, h := 0x4000000, hold := 0 }

/-- F1 disabled; F1 to be destroyed and scrubbed; F1 running step 0 of a launch. -/
def stillLit : State := { lit with fields := [(0, { lit.field 0 with st := .disabled })] }
def scrubLit : State :=
  { lit with fields := [(0, { lit.field 0 with st := .changing, scrub := some .destroy,
                                               scrubs := [{ die := C0, ofs := 0, len := 0x4000000, tiles := true }] })] }
def runOf (start boundary : Nat) : Running :=
  { idx := 0, entry := ⟨0, 1, 0⟩, step := 0, start := start, boundary := boundary, started := true }
def runLit : State := { lit with fields := [(0, { lit.field 0 with run := some (runOf 990000 1000000) })] }

/-- A request on the channel of F1 by its owner, and the same tray with that channel busy. -/
def askF (len : Nat) : MReq := { ask len with chan := 1, token := 6 }
def chanLit (s : State) : State :=
  { s with ports := [(0, { chans := [(1, { held := true, holder := 0x100, submitted := true, st := .busy, captured := some [] })] })] }

/-- A port in UP at the end C0 of its Bridge link. -/
def root0 : PortId := ⟨C0, 4⟩
def upLit : State :=
  { lit with links := [((⟨C0, 4⟩ : PortId).key, { resetPort ⟨C0, 4⟩ with link := { st := .up, enabled := true, peer := some ⟨X, 0⟩ } })] }

/-- The tray without a field; with plans of F1 and its channel busy; with F1 frozen. -/
def freeLit : State := { lit with fields := [] }
def planLit (active staged : Option Plan) : State :=
  chanLit { lit with fields := [(0, { lit.field 0 with active := active, staged := staged })] }
def frozenLit : State := chanLit { lit with fields := [(0, { lit.field 0 with frozen := true })] }

/-- Entry 0 of the ring of F1 is VALID. -/
def ringLit : State := { lit with fields := [(0, { lit.field 0 with ring := [(2, 1)] })] }
def latchLit : State := { lit with ports := [(0, { latch := some 3 })] }
def alarmLit : State := lit.onDie X fun x => { x with trb := { x.trb with fifo := [{}] } }

/-- Channel M held with nothing submitted; with its response decided; done. -/
def idleChanLit : State := { lit with ports := [(0, { chans := [(0, { held := true, holder := 0x100 })] })] }
def decidedLit : State :=
  { lit with ports := [(0, { chans := [(0, { held := true, holder := 0x100, submitted := true, st := .busy,
                                             decided := some ⟨0x0101, 2, 0, 0, 0, []⟩ })] })] }
def doneLit : State := { lit with ports := [(0, { chans := [(0, { held := true, holder := 0x100, submitted := true, st := .done })] })] }

/-- A PKG_REARM waits while no Watermaster serves it. -/
def waitLit : State :=
  { lit with wm := {}, waiting := [{ scope := 0, wm := true, opcode := 0x0605, req := ask 4, cmd := .pkgRearm (ask 4) 1 }] }

/-- The expert permission of the tray owner; package 1 in a state. -/
def expertOf (s : State) : State := { s with scopes := expertLit.scopes }
def pkgLit (x : PkgSt) : State := { lit with pkgs := [(0, livePkg), (1, { st := x, gate := x = .poweringDown })] }

/-- The tray holds a span record of itself alone. -/
def recordLit : State := { lit with span := { record := some (1, [1]) } }


/-- The trace recorder of KP0-C0's Bridge port runs for agent 0x300, who owns F1; a port with a test run. -/
def traceLit : State :=
  { expertLit with scopes := [(0, { owned := true, rid := 0x100, token := 5, expert := true }), (1, { owned := true, rid := 0x300, token := 6 })]
                   links := [(root0.key, { resetPort root0 with trace := { running := true, starter := some (0x300, 0), only := some 1 } })] }
def testLit (limit : Nat) : State :=
  lit.setPort root0 { resetPort root0 with tst := { ctrl := 0x119, run := some 1, uiLimit := limit } }

/-- A Watermaster with a staging, with a bank in a state. -/
def bankLit (x : BankSt) : State := { lit with wm := { running := true, bankB := { st := x } } }
def stageLit : State := { lit with wm := { running := true, bankB := { st := .staging }, staging := some none } }

/-- F1 with a part of its state set. -/
def fieldLit (g : Field → Field) : State := lit.onField 0 g

/-- A packet to tile 0 on channel 1; a tile with one rule of it, an entry with its operand, room and credits. -/
def packet : Packet :=
  { tag := 0, channel := 1, half := false, pair := false, dest := 0, src := 1, kind := 0, poison := false, egress := 0, order := false,
    payload := 0 }
def tile0 : Tile :=
  { configured := true, rules := [{ operands := [1], outputs := [], isEnd := true }], ins := [{ channel := 1, bound := 2 }]
    outs := [{ dst := 1, channel := 1, bound := 2, credits := 1, fresh := 1, cycles := 2 ^ 8 }]
    queue := [packet], pairs := [{ rule := 0, tag := 0, present := [1] }] }
def tileLit (x : Tile) : State := lit.onDie C0 fun y => { y with tiles := [(0, x)] }
def flyLit (x : InFlight) : State := lit.onDie C0 fun y => { y with mesh := [x] }
def epLit (x : Endpoint) : State := lit.onDie C0 fun y => { y with eps := [(0, x)] }

/-- The root end of KP0-C0 in UP below X, its tally's parent there. -/
def markLit (err : Int) : State :=
  upLit.onDie C0 fun y => { y with tally := { y.tally with parent := some 4, depth := 1, err := err } }
/-- A mark of X at C0's own tally, pinned as the port is. -/
def mark0 : Mark := { tally := 1000000, leader := 1, epoch := 0, pinned := 0, rootOfs := 0, depth := 0, state := 1 }

/-- An entry of F1's ring names plan 7 and waits; a switch to plan 8; a change to rung 0 with its boundary. -/
def takeLit : State :=
  fieldLit fun x => { x with active := some { id := 7, entries := [⟨0, 0, 0⟩], steps := [{}] }, ring := [(2, 1), (8, 7)], prod := 1,
                             rang := [(0, 1000000)] }
def switchLit (form : Form) : State :=
  fieldLit fun x => { x with staged := some { id := 8 }, switch := some { form := form, since := 15000000 },
                             run := if form = .tailwater then some { runOf 990000 1000000 with kind := .switch } else none }
def changeLit (committed : Bool) (boundary : Nat) : State :=
  fieldLit fun x => { x with rung := 7, change := some { kind := .rung 0, boundary := boundary, noticed := [C0], confirmed := [C0],
                                                         committed := committed, applied := if committed then [C0] else [] } }

/-- A tile of F1 with its marker, in a drain wave. -/
def waveTile : Tile :=
  { tile0 with queue := [], pairs := [], markers := [1]
               outs := [{ dst := 1, channel := 1, bound := 2, credits := 2, fresh := 1, cycles := 2 ^ 8 }] }
def waveLit : State := (tileLit waveTile).onField 0 fun x => { x with drain := some (.reload true, 19900000) }
/-! ### Mailbox -/

/-- O3: a request that passes the header checks and fails at its scope, its level, its owner, its token. -/
theorem test_checks_fail : lit.checks { ask 4 with rid := 0x200 } ⟨0x0202, 4, false, .scope (some 0), some 0, false⟩ = some 0x0202 ∧
    lit.checks { ask 4 with token := 4 } ⟨0x0202, 4, false, .scope (some 0), some 0, false⟩ = some 0x0203 ∧
    lit.checks (ask 4) ⟨0x0207, 4, true, .scope (some 0), some 0, false⟩ = some 0x0204 ∧
    lit.headCheck 0x0202 4 { ask 4 with version := 3 } = some 0x0105 ∧
    State.reset.headCheck 0x0202 4 (ask 4) = some 0x0402 := by
  and_intros <;> decide +kernel

/-- O3: the clauses about failed requests. -/
theorem test_refused_request : ((lit.setResumed false).clock 20000000).portLive 0 = true ∧
    (lit.arrived { ask 4 with rid := 0x200 }).checks { ask 4 with rid := 0x200 } ⟨0x0303, 4, false, .tray, fieldScope 1, false⟩ =
      some 0x0202 := by
  and_intros <;> decide +kernel

/-- O4: the queries are decided at once; KP0-C0 is a die of the span, and package 0 is placed where package 1 is not. -/
theorem test_queries_decided : lit.decides (ask 0) ⟨0x0101, 0, false, .anyone, none, false⟩ noEarly ∧
    lit.decides (ask 4) ⟨0x0102, 4, false, .anyone, none, false⟩ noEarly ∧
    lit.decides (ask 0) ⟨0x0103, 0, false, .anyone, none, false⟩ noEarly ∧
    lit.decides (ask 4) ⟨0x0104, 4, false, .anyone, none, false⟩ noEarly ∧
    lit.decides (ask 0) ⟨0x0206, 0, false, .anyone, none, false⟩ noEarly ∧
    (lit.atRequest (ask 4)).dieRef 0 0x11 = some C0 ∧ (lit.atRequest (ask 4)).dieRef 3 0x11 = none ∧
    ((lit.atRequest (ask 4)).pkg 0).placed = true ∧ ((lit.atRequest (ask 4)).pkg 1).placed = false := by
  and_intros <;> decide +kernel

/-- O5: the owner's commands on its scope, with and without expert level. -/
theorem test_owner_acts : lit.decides (ask 4) ⟨0x0202, 4, false, .scope (some 0), some 0, false⟩ noEarly ∧
    lit.decides (ask 4) ⟨0x0203, 4, false, .scope (some 0), some 0, false⟩ noEarly ∧
    lit.decides (ask 4) ⟨0x0209, 4, false, .tray, some (fscope 0), false⟩ noEarly ∧
    expertLit.decides { ask 4 with flags := 1 } ⟨0x0207, 4, true, .scope (some 0), some 0, false⟩ noEarly ∧
    ((lit.clock 0).settleOwn).portLive 0 = true ∧ ((lit.clock 0).settleOwn).isReady = true ∧
    (((lit.clock 0).settleOwn).host 0).d3 = false := by
  and_intros <;> decide +kernel

/-- O6: a claim of a vacant field scope, a window due, one claim of two lowest, a lapse due, and one not. -/
theorem test_claims : lit.decides (ask 4) ⟨0x0201, 4, false, .anyone, some 0, false⟩ noEarly ∧
    ((lit.atRequest (ask 4)).scope 0).owned = true ∧ (lit.atRequest (ask 4)).scopeExists 2 = false ∧
    (claimLit.atRequest (ask 4)).scopeExists 1 = true ∧ ((claimLit.atRequest (ask 4)).scope 1).owned = false ∧
    ((claimLit.clock 20000000).scope 1).win = some ⟨19000000, [⟨claimant 0, 0x100, 0⟩, ⟨claimant 1, 0x200, 1⟩]⟩ ∧
    (claimLit.clock 20000000).awaits (claimant 0) ∧ (claimLit.clock 20000000).awaits (claimant 1) ∧
    ((lit.clock 15000000001).scope 0).beat + 15000000000 < (lit.clock 15000000001).now ∧
    (lit.clock 15000000000).now ≤ ((lit.clock 15000000000).scope 0).beat + 15000000000 := by
  and_intros <;> decide +kernel

/-- O7: a handover to another agent and to none, an offer taken, one that is over, a seizure by the tray owner. -/
theorem test_handovers : lit.decides (ask 8) ⟨0x0204, 8, false, .scope (some 0), some 0, false⟩ noEarly ∧
    offerLit.decides { ask 4 with rid := 0x200 } ⟨0x0205, 4, false, .anyone, some 0, false⟩ noEarly ∧
    ((offerLit.atRequest { ask 4 with rid := 0x200 }).scope 0).offer = some ⟨0x200, 0, 19000000⟩ ∧
    ((offerLit.clock 1019000001).scope 0).offer = some ⟨0x200, 0, 19000000⟩ ∧
    ((offerLit.clock 1019000000).scope 0).offer = some ⟨0x200, 0, 19000000⟩ ∧
    expertLit.decides { ask 4 with flags := 1 } ⟨0x0208, 4, true, .seize (some 1), some 1, false⟩ noEarly := by
  and_intros <;> decide +kernel

/-! ### Fields and plans -/

/-- O8: a create of F2 that passes the checks, one of a field that stands, a resize that scrubs, and its end. -/
theorem test_field_bodies : fieldOfNum (body 2 2).field = some 1 ∧ (body 2 2).masks.any maskReserved = false ∧
    freeLit.decides (ask 40) ⟨0x0301, 40, false, .tray, some 0, false⟩
      (fun v => if v.fieldRange (body 2 2) then none else some 0x0104) ∧
    ((freeLit.atRequest (ask 40)).field 1).live = false ∧ (freeLit.atRequest (ask 40)).fieldChecks 1 (body 2 2) = none ∧
    (lit.atRequest (ask 40)).fieldChecks 1 (body 2 2) ≠ none ∧ ((lit.atRequest (ask 40)).field 0).live = true ∧
    ((lit.atRequest (ask 40)).field 0).resizeBusy (body 1 4) = false ∧
    ((lit.atRequest (ask 40)).field 0).resizeScrubs (body 1 4) ≠ [] ∧ ((scrubLit.clock 0).field 0).st = .changing := by
  and_intros <;> decide +kernel

/-- O9: a disable of a field with a running step, and with none; a destroy of a DISABLED field; its scrub; an enable. -/
theorem test_field_gates :
    runLit.decides (ask 4) ⟨0x0304, 4, false, .either (some (fscope 0)), some (fscope 0), false⟩ (fun v => v.refuses (some 0) true) ∧
    ((runLit.atRequest (ask 4)).field 0).run = some (runOf 990000 1000000) ∧
    ((lit.atRequest (ask 4)).field 0).run = none ∧ ((lit.atRequest (ask 4)).field 0).flush = none ∧
    stillLit.decides (ask 4) ⟨0x0303, 4, false, .tray, some (fscope 0), false⟩ (fun v => v.refuses (some 0) true) ∧
    ((stillLit.atRequest (ask 4)).field 0).st = .disabled ∧
    stillLit.decides (ask 4) ⟨0x0305, 4, false, .either (some (fscope 0)), some (fscope 0), false⟩ noEarly ∧
    ((scrubLit.clock 0).field 0).scrub = some .destroy := by
  and_intros <;> decide +kernel

/-- O10, O11: plan commands on the channel of F1 with a plan staged, and with none; a frozen field to resume. -/
theorem test_plan_commands :
    (planLit none (some { id := 7 })).decides (askF 16) (planCmd (askF 16) 0x0401 16)
      (fun v => if (v.field 0).loadRange 0 0x1000 then v.refuses (some 0) false else some 0x0104) ∧
    (planLit none (some { id := 7 })).decides (askF 4) (planCmd (askF 4) 0x0402 4) (fun v => v.refuses (some 0) false) ∧
    (((planLit none (some { id := 7 })).atRequest (askF 4)).field 0).planAt 0 = some { id := 7 } ∧
    (((planLit none none).atRequest (askF 4)).field 0).planAt 0 = none ∧
    (planLit none (some { id := 7 })).decides (askF 0) (planCmd (askF 0) 0x0403 0) (fun v => v.refuses (some 0) false) ∧
    ((planLit none (some { id := 7 })).field 0).inFlight = 0 ∧ ({ id := 7 } : Plan).fastFits = true ∧ ({ blocks := [⟨0, 0x11, [], [], [], 65537, 0⟩] } : Plan).fastFits = false ∧
    ({ id := 7, flags := 4 } : Plan).stale = false ∧
    (planLit (some { id := 7 }) none).decides (askF 4) (planCmd (askF 4) 0x0404 4) (fun v => v.refuses (some 0) false) ∧
    (planLit (some { id := 7 }) none).decides (askF 4) (planCmd (askF 4) 0x0405 4) noEarly ∧
    frozenLit.decides (askF 0) (planCmd (askF 0) 0x0407 0) noEarly ∧ ((frozenLit.atRequest (askF 0)).field 0).frozen = true := by
  and_intros <;> decide +kernel

/-- O12: the queries of a field, its plan, the ledger and a port. -/
theorem test_field_queries : lit.decides (ask 4) ⟨0x0306, 4, false, .anyone, none, false⟩ noEarly ∧
    ((lit.atRequest (ask 4)).field 0).live = true ∧ ((lit.atRequest (ask 4)).field 1).live = false ∧
    lit.decides (ask 4) ⟨0x0501, 4, false, .anyone, none, false⟩ noEarly ∧
    lit.decides (ask 8) ⟨0x0502, 8, false, .anyone, none, false⟩ noEarly ∧
    (lit.atRequest (ask 8)).portRef ⟨0, 0x11, 4⟩ = some root0 ∧
    (planLit (some { id := 7 }) none).decides (askF 4) ⟨0x0406, 4, false, .anyone, none, false⟩ noEarly := by
  and_intros <;> decide +kernel

/-! ### Host ports -/

/-- O13: the owner's doorbell on a ring entry that is VALID, and on none; a ring write; a latched word; an alarm to pop. -/
theorem test_host_port : ((ringLit.clock 0).settleOwn).barsLive 0 = true ∧ (((ringLit.clock 0).settleOwn).field 0).live = true ∧
    ((ringLit.clock 0).settleOwn).portOwns 0 0x100 0 = true ∧ (((ringLit.clock 0).settleOwn).field 0).lflags 0 % 2 = 1 ∧
    (((lit.clock 0).settleOwn).field 0).lflags 0 % 2 = 0 ∧ (ringLit.field 0).entryRead 0 = false ∧
    Memory.wf (ringLit.field 0).ring = true ∧ (latchLit.host 0).latch = some 3 ∧ lit.isReady = true ∧
    (alarmLit.die X).trb.fifo ≠ [] := by
  and_intros <;> decide +kernel

/-- O14: channel M free, held by another, held idle, busy with a response, done; each for 1 s; a command that waits for the
Watermaster. -/
theorem test_channels : (lit.clock 0).chanLive 0 1 = true ∧ ((lit.clock 0).chan 0 1).held = false ∧ ((lit.clock 0).chan 0 0).held = true ∧
    ((lit.clock 0).chan 0 0).st = .busy ∧ ((idleChanLit.clock 0).chan 0 0).st ≠ .busy ∧
    ((idleChanLit.clock 1000000000).chan 0 0).lockedAt + 1000000000 ≤ (idleChanLit.clock 1000000000).now ∧
    ((decidedLit.clock 0).chan 0 0).decided ≠ none ∧ ((doneLit.clock 1000000000).chan 0 0).st = .done ∧
    (doneLit.clock 1000000000).now = ((doneLit.clock 1000000000).chan 0 0).doneAt + 1000000000 ∧
    (waitLit.clock 5020000000).wmFor 0x0605 = false ∧
    ((waitLit.clock 5020000000).waiting.find? fun w => w.wm && w.req.port.val = (0 : Fin 4).val && w.req.chan = 0 &&
      w.req.t + 5000000000 ≤ (waitLit.clock 5020000000).now) ≠ none := by
  and_intros <;> decide +kernel

/-- O15: an open window at its first and last bytes, one past it, an image in it; registers of a die that runs. -/
theorem test_registers : lit.barsLive 0 = true ∧ lit.barOpen 0 0x100 0 0 64 = true ∧ lit.barOpen 0 0x100 0 0x3FFFFC0 64 = true ∧
    lit.barOpen 0 0x100 0 0x3FFFFF0 64 = false ∧ (lit.field 0).imageHit 0 64 = false ∧ (lit.field 0).dies.Nodup ∧
    (lit.die X).side.cache = [] ∧ ((planLit (some { id := 7, ofs := 0, len := 64 }) none).field 0).imageHit 0 64 = true ∧
    lit.agentUp C0 = true ∧ lit.dieUp C0 = true ∧ portExists root0 = true ∧
    (∀ q ∈ diePorts C0, (lit.onDie C0 fun y => { y with boot := { y.boot with plcCtrl := (y.boot.plcCtrl &&& ~~~0xFFFF#32) |||
      (0x1A60#32 &&& 0xFFFF#32) } }).adapter q = lit.adapter q) := by
  and_intros <;> decide +kernel

/-! ### Commands on links, spans, power, trouble -/

/-- O16: the link commands on the Bridge port of KP0-C0, in UP and unplanned; a pond in range; a port that is none. -/
theorem test_link_commands : (upLit.atRequest (ask 4)).portRef ⟨0, 0x11, 4⟩ = some root0 ∧ (upLit.atRequest (ask 4)).portRef ⟨0, 0x11, 5⟩ = none ∧
    upLit.decides (ask 4) ⟨0x0503, 4, false, .tray, some 0, false⟩ noEarly ∧ (upLit.atRequest (ask 4)).planned root0 = false ∧
    ((upLit.atRequest (ask 4)).port root0).mayTrain = true ∧
    upLit.decides (ask 8) ⟨0x0504, 8, false, .tray, some 0, false⟩ noEarly ∧
    upLit.decides (ask 4) ⟨0x0505, 4, false, .tray, some 0, false⟩ noEarly ∧
    upLit.decides (ask 12) ⟨0x0506, 12, false, .tray, some 0, false⟩ noEarly ∧
    upLit.decides (ask 44) ⟨0x0507, 44, false, .tray, some 0, false⟩ noEarly ∧
    (expertOf upLit).decides { ask 28 with flags := 1 } ⟨0x0508, 28, true, .tray, some 0, false⟩ noEarly ∧
    (upLit.atRequest (ask 44)).pondRange root0 0x1000000 [0x200000, 0x180000, 0, 0, 0, 0, 0, 0, 0] = true ∧
    ((upLit.atRequest (ask 44)).port root0).pondBusy = false ∧
    upLit.decides (ask 4) ⟨0x050A, 4, false, .tray, some 0, false⟩ noEarly := by
  and_intros <;> decide +kernel

/-- O17: a shape whose trays are not there, one that fits; a dissolution; a record that is found again. -/
theorem test_spans : (lit.setPeers []).decides (ask 4) ⟨0x050B, 4, false, .everyTray, some 0, false⟩
      (fun _ => if (2 : Nat) < 1 ∨ 5 < (2 : Nat) then some 0x0104 else none) ∧
    ((lit.setPeers []).atRequest (ask 4)).formable 2 [] = .inl 0x0502 ∧ (lit.atRequest (ask 4)).formable 1 [] = .inr {} ∧
    (recordLit.clock 0).span.record = some (1, [1]) ∧ (recordLit.clock 0).isReady = true ∧
    sortSerials ((recordLit.clock 0).serial :: ([] : List TrayInfo).map (·.serial)) = [1] ∧
    lit.decides (ask 0) ⟨0x050C, 0, false, .everyTray, some 0, false⟩ noEarly ∧ (∀ f, ((lit.atRequest (ask 0)).field f).loaded = false) ∧
    ((planLit (some {}) none).field 0).loaded = true := by
  and_intros <;> decide +kernel

/-- O18: caps at the ends of their ranges, a rung ceiling, the reads. -/
theorem test_power_commands : lit.decides (ask 20) ⟨0x0602, 20, false, .tray, some 0, false⟩ noEarly ∧
    lit.decides { ask 4 with token := 6 } ⟨0x0603, 4, false, .scope (some (fscope 0)), some (fscope 0), false⟩ noEarly ∧
    expertLit.decides { ask 4 with flags := 1 } ⟨0x0604, 4, true, .either (some (fscope 0)), some (fscope 0), false⟩ noEarly ∧
    lit.decides (ask 0) ⟨0x0601, 0, false, .anyone, none, false⟩ noEarly ∧
    lit.decides (ask 4) ⟨0x0801, 4, false, .either (some (fscope 0)), some (fscope 0), false⟩ noEarly ∧
    lit.decides (ask 0) ⟨0x0901, 0, false, .anyone, none, true⟩ noEarly := by
  and_intros <;> decide +kernel

/-- O19: package 0 on, package 1 off beside it, one that powers down, one faulted. -/
theorem test_package_commands : lit.decides (ask 4) ⟨0x0605, 4, false, .tray, some 0, true⟩ noEarly ∧
    expertLit.decides { ask 4 with flags := 1 } ⟨0x0606, 4, true, .tray, some 0, true⟩ noEarly ∧
    ((lit.atRequest (ask 4)).pkg 1).st.mayUp = true ∧ ((lit.atRequest (ask 4)).pkg 0).st = .on ∧
    ((lit.atRequest (ask 4)).pkg 1).latch = 0 ∧ (lit.atRequest (ask 4)).pkgFields 0 ≠ [] ∧
    ((pkgLit .poweringDown).atRequest (ask 4)).pkgFields 1 = [] ∧ (((pkgLit .poweringDown).atRequest (ask 4)).pkg 1).st = .poweringDown ∧
    (((pkgLit .faulted).atRequest (ask 4)).pkg 1).st = .faulted := by
  and_intros <;> decide +kernel

/-- O20: a read of a die's log, and a clear of a die's and of the tray's record. -/
theorem test_trouble_commands : lit.decides (ask 4) ⟨0x0701, 4, false, .anyone, none, false⟩ noEarly ∧
    (lit.atRequest (ask 4)).dieRef 0 0x11 = some C0 ∧ (7 : Half).getLsbD 3 = false ∧
    lit.decides (ask 4) ⟨0x0702, 4, false, .tray, some 0, (7 : Half).getLsbD 4⟩
      (fun v => if 32 ≤ (7 : Half).toNat then some 0x0103 else match v.dieRef 0 0x11 with
        | none => some 0x0104
        | some d => if (7 : Half).getLsbD 4 ∧ (d.slot ≠ 0 ∨ d.tray ≠ v.span.num) then some 0x0104 else none) ∧
    lit.decides (ask 4) ⟨0x0702, 4, false, .tray, some 0, false⟩
      (fun v => if v.trays.length ≤ v.span.num.val then some 0x0104 else none) := by
  and_intros <;> decide +kernel

/-- O21: the tray owner on an instance and a recorder free, busy and its own; a debug read of KP0-C0 and a write into its tile 0. -/
theorem test_observation : (lit.atRequest (ask 8)).portRef ⟨0, 0x11, 4⟩ = some root0 ∧
    lit.decides (ask 8) ⟨0x0802, 8, false, .either (lit.refScope ⟨0, 0x11, 4⟩), some 0, false⟩ noEarly ∧
    ((lit.atRequest (ask 8)).scope 0).ownedBy (ask 8) = true ∧
    traceLit.decides { ask 8 with flags := 1 } ⟨0x0803, 8, true, .either (traceLit.traceScope { ask 8 with flags := 1 }), some 0, false⟩
      noEarly ∧
    (((traceLit.atRequest (ask 8)).port root0).trace).startedBy (ask 8) = false ∧
    (traceLit.atRequest (ask 8)).starterOwns ((traceLit.atRequest (ask 8)).port root0).trace = true ∧
    expertLit.decides { ask 12 with flags := 1 } ⟨0x0804, 12, true, .tray, some 0, false⟩ noEarly ∧
    debugShape 0 64 = true ∧ debugShape 0 3 = false ∧ debugMax C0 = 64 ∧ lit.fieldOf C0 = some 0 ∧
    expertLit.decides { ask 16 with flags := 1 } ⟨0x0805, 16, true, .tray, some 0, false⟩ noEarly ∧
    debugShape (0x10000000 + 0x3FFFC) 4 = true ∧ Memory.wf ((lit.die C0).tile 0).sram = true := by
  and_intros <;> decide +kernel

/-- O22, O23: a staging runs; a bank is STAGED, PENDING, neither. -/
theorem test_banks : lit.decides (ask 16) (fwCmd 0x0902 16 false) noEarly ∧ lit.wm.stagingBusy true = false ∧
    stageLit.wm.stagingBusy true = true ∧ (bankLit .staged).decides (ask 0) (fwCmd 0x0903 0 false) noEarly ∧
    (bankLit .staged).wm.other.st = .staged ∧ (expertOf (bankLit .staged)).decides { ask 0 with flags := 1 } (fwCmd 0x0904 0 true) noEarly ∧
    (bankLit .staged).wm.other.valid = true ∧ (bankLit .empty).wm.other.valid = false ∧
    stageLit.decides (ask 0) (fwCmd 0x0905 0 false) noEarly ∧ (bankLit .pending).wm.other.st = .pending := by
  and_intros <;> decide +kernel

/-- O24: a test on an unplanned port, a run with and without a limit, a read of the first and past the last lane. -/
theorem test_test_runs : lit.decides (ask 20) ⟨0x0A01, 20, false, .tray, some 0, false⟩ noEarly ∧
    (lit.atRequest (ask 20)).planned root0 = false ∧ (0x3FFD : Nat) / 8 % 16 = 15 ∧ (0x19 : Nat) % 8 = 1 ∧
    lit.decides (ask 4) ⟨0x0A02, 4, false, .tray, some 0, false⟩ noEarly ∧
    lit.decides (ask 8) ⟨0x0A03, 8, false, .anyone, none, false⟩ noEarly ∧ 0 < (lit.atRequest (ask 8)).testLanes root0 ∧
    expertLit.decides { ask 4 with flags := 1 } ⟨0x0A04, 4, true, .tray, some 0, true⟩ noEarly ∧
    ((testLit 9).port root0).tst.running = true ∧ ((testLit 0).port root0).tst.uiLimit = 0 ∧
    ((testLit 9).port root0).tst.mode ≠ 0 ∧ (lit.port root0).tst.running = false ∧ lit.dieUp root0.die = true := by
  and_intros <;> decide +kernel

/-! ### The field sequencer -/

/-- O25: the boundary of a running step reached and not, its last step, a sluice there; an entry to take, to cancel, to reject. -/
theorem test_launches : ((runLit.clock 0).field 0).run = some (runOf 990000 1000000) ∧ (runOf 990000 1000000).boundary ≤ (runLit.clock 0).leadTally 0 ∧
    (runLit.clock 0).leadTally 0 < (runOf 990000 1000001).boundary ∧ (runOf 0 0).step ≠ (runOf 0 0).entry.last ∧
    ((fieldLit fun x => { x with sluices := [(C0, 1000000)] }).field 0).sluiceAt = some 1000000 ∧
    (takeLit.field 0).mayTake = true ∧ (lit.field 0).mayTake = false ∧ (takeLit.field 0).active = some { id := 7, entries := [⟨0, 0, 0⟩], steps := [{}] } ∧
    (takeLit.field 0).accept { id := 8 } 0 = none ∧ fieldAt ((takeLit.field 0).entryBytes 0) 8 8 = 7 ∧
    ((takeLit.onField 0 fun x => { x with cancels := [0] }).field 0).cancels.contains 0 = true := by
  and_intros <;> decide +kernel

/-- O26: a switch in its last report, one past its deadline, a drain that is over, one of 100 us, a flush of a disable. -/
theorem test_switches : ((switchLit .still).field 0).incoming = some { id := 8 } ∧ (switchLit .still).blockSwitched { id := 8 } C0 = true ∧
    (switchLit .still).cfgSpoiled C0 = false ∧ (∀ e ∈ ((switchLit .still).field 0).dies, e ≠ C0 → False) ∧
    (({ form := .reload, since := 15000000 } : Switch).since + 5000000 ≤ (lit.clock 20000000).now) ∧
    (fieldLit fun x => { x with drain := some (.disable, 19900000) }).fieldDrained 0 = true ∧
    ((tileLit tile0).onField 0 fun x => { x with drain := some (.disable, 19900000) }).fieldDrained 0 = false ∧
    ((fieldLit fun x => { x with flush := some (.disable, 0) }).field 0).flush = some (.disable, 0) ∧
    ((switchLit .tailwater).field 0).run ≠ none := by
  and_intros <;> decide +kernel

/-- O27: a limit that moves; a change noticed, confirmed, due for its commit and past it; committed and applied everywhere. -/
theorem test_changes : (fieldLit fun x => { x with ceiling := 3, rung := 7 }).wantedRung 0 ≠ 7 ∧ lit.wantedRung 0 ≠ (lit.field 0).rung ∧
    ((changeLit false 1020000).field 0).change = some { kind := .rung 0, boundary := 1020000, noticed := [C0], confirmed := [C0] } ∧
    (changeLit false 1020000).leadTally 0 + 20000 = 1020000 ∧ (changeLit false 1020000).canConfirm 0 C0 (.rung 0) = true ∧
    (∀ e ∈ ((changeLit false 1020000).field 0).dies, [C0].contains e = true) ∧
    (changeLit false 1000000).leadTally 0 = 1000000 ∧ ((changeLit true 1000000).field 0).run = none := by
  and_intros <;> decide +kernel

/-! ### Tiles, mesh, endpoints -/

/-- O28: a tile whose entry is ready, one with none; a credit on its way; an end rule's tag at T0 and past it. -/
theorem test_tiles : X.isCompute = false ∧ C0.isCompute = true ∧ tile0.pick = some { rule := 0, tag := 0, present := [1] } ∧
    tile0.rules[0]? = some { operands := [1], outputs := [], isEnd := true } ∧ ({} : Tile).pick = none ∧
    ({ tile0 with ending := [0, 3] } : Tile).ending.contains 3 = true ∧ tile0.done = [] ∧ tile0.owed = [] := by
  and_intros <;> decide +kernel

/-- O29: a packet that may leave and one that may not, at its destination, on its way out; a packet of tag 0 with room and without. -/
theorem test_mesh : (flyLit ⟨packet, 1, 2 ^ 8, false⟩).mayLeave C0 0 ⟨packet, 1, 2 ^ 8, false⟩ 8 = true ∧
    (flyLit ⟨packet, 1, 2 ^ 8, false⟩).mayLeave C0 0 ⟨packet, 1, 2 ^ 8, false⟩ 9 = false ∧
    lit.outputOf C0 ⟨packet, 1, 2 ^ 8, false⟩ < 4 ∧ lit.outputOf C0 ⟨packet, 0, 2 ^ 8, false⟩ = 4 ∧
    lit.outputOf C0 ⟨{ packet with dest := 1, egress := 1 }, 1, 2 ^ 8, false⟩ = 5 ∧ (lit.fieldOf C0).isSome = true ∧
    tile0.dist 0 = 0 ∧ tile0.dist 127 < 128 ∧ 128 ≤ tile0.dist 128 ∧ tile0.used 1 < tile0.entries 1 ∧
    ({ tile0 with queue := [packet, packet] } : Tile).entries 1 ≤ ({ tile0 with queue := [packet, packet] } : Tile).used 1 := by
  and_intros <;> decide +kernel

/-- O30: the home of address 0 is endpoint 0; one that took a packet in this tick; a reply with a credit, and none; an ingress. -/
theorem test_endpoints : homeEndpoint 0 = (0 : Fin 32).val ∧ homeEndpoint 0 ≠ (1 : Fin 32).val ∧
    (((epLit { last := some 20000000 }).die C0).ep 0).last = some (lit.clock 0).now ∧ ((lit.die C0).ep 0).last ≠ some (lit.clock 0).now ∧
    Memory.wf (lit.die C0).mem = true ∧
    ([{ dst := 1, channel := 2, credits := 1 }] : List OutChan).find? (fun c => c.dst = (⟨0, 0, 1, 2, 0⟩ : RdReq).src && c.channel = (⟨0, 0, 1, 2, 0⟩ : RdReq).reply) ≠ none ∧
    ((lit.port root0).planned.rxq = []) := by
  and_intros <;> decide +kernel

/-- O31: a marker of an input channel, of none; a wave with a tile marked and empty; a buffer full and with room. -/
theorem test_markers : (waveLit.field 0).waving = true ∧ waveTile.marked = true ∧ waveTile.empty = true ∧ tile0.empty = false ∧
    waveTile.ins.any (fun c => c.channel = 1 && !c.back) = true ∧ ({} : Tile).cfg.length < 64 ∧
    ({ tile0 with cfg := List.replicate 64 packet } : Tile).empty = false := by
  and_intros <;> decide +kernel

/-! ### The clock of account -/

/-- O32: a mark of the parent at the ends of its limits; a slew due in either direction; silence of 8,192 ticks and one less. -/
theorem test_marks : ((markLit 2).clock 0).dieUp root0.die = true ∧ (((markLit 2).clock 0).port root0).link.st = .up ∧
    (((markLit 2).clock 0).die C0).tally.parent = some root0.port ∧ (markLit 2).isRoot C0 = false ∧
    (((markLit 2).clock 0).die C0).tally.st = .agreed ∧ mark0.state = 1 ∧ mark0.depth < 20 ∧
    ((1000000 : Int) * 128 + (0 : Fin 128).val - ((mark0.tally.toNat : Int) + 0) * 128).natAbs ≤ 256 ∧
    1 < ((markLit 2).die C0).tally.err.natAbs ∧ 1 < ((markLit (-2)).die C0).tally.err.natAbs ∧
    ((markLit 2).die C0).tally.lastSlew + 512 ≤ (markLit 2).now ∧ ((markLit 2).die C0).tally.lastMark + 8192 ≤ (markLit 2).now := by
  and_intros <;> decide +kernel

/-- A holdover of KP0-C0's tally since an instant, its leadership treated as vacant since another. -/
def holdLit (since : Nat) (vacant : Option Nat) : State :=
  lit.onDie C0 fun y => { y with tally := { y.tally with st := .holdover, parent := none, holdSince := since, vacantSince := vacant } }

/-- O33: holdover at 163,840 and 172,032 ticks and one less; vacant for 12 ms; a claim window with the lowest of two; no root yet. -/
theorem test_holdover : ((holdLit (20000000 - 163840) none).die C0).tally.deeperOk = false ∧
    ((holdLit 0 (some 8000000)).die C0).tally.vacantSince = some 8000000 ∧ 8000000 + 12000000 ≤ ((holdLit 0 none).clock 20000000).now ∧
    lit.leader.lead = true ∧ ({ lead := false, windowFrom := some 9000000, claims := [2, 7] } : Leader).windowFrom = some 9000000 ∧
    (∀ c ∈ [(2 : Dword), 7].map BitVec.toNat, (2 : Dword).toNat ≤ c) ∧ { lit with leader := {} }.pickRoot = some X ∧
    ({ standby := [3] } : Cleaner).standby = 3 :: [] ∧ lit.cleaner.standby = [] ∧ lit.cleaner.input = 0 := by
  and_intros <;> decide +kernel

/-! ### Links -/

/-- KP0-C0's Bridge port in a training state, its timer running since an instant. -/
def trainLit (x : TrSt) (since : Nat) : State :=
  lit.setPort root0 { resetPort root0 with
    link := { st := x, enabled := true, peer := some ⟨X, 0⟩, timer := some 1000000, timerFrom := since, leader := x = .equalise,
              fetching := x = .equalise } }
def peer0 : PeerIdent := { id := ⟨X, 0⟩, uid := (resetIdent X).uid, serial := 1, gen := 1 }

/-- O34: a timer that expires now and one that does not; each state on a running die; a back-off over; a latency at both ends. -/
theorem test_training : ((trainLit .clock 19000000).port root0).link.timer = some 1000000 ∧ 19000000 + 1000000 ≤ ((trainLit .clock 0).clock 0).now ∧
    (trainLit .clock 19000001).now < 19000001 + 1000000 ∧ (trainLit .detect 19500000).dieUp root0.die = true ∧
    (trainLit .detect 19500000).adapter root0 = profileOf root0 ∧ cageOf root0 = none ∧
    (trainLit .config 19500000).peerWrong root0 peer0 = false ∧ (trainLit .config 19500000).bothKl2 root0 peer0 = false ∧
    ((resetPort root0).mayTrain = false) ∧ (((trainLit .down 0).port root0).mayTrain) = true ∧ lit.inCarrier root0.die = false ∧
    ((trainLit .repair 19500000).formMap root0 0 0x03FF []).isSome = true := by
  and_intros <;> decide +kernel

/-- KP0-C0's port in UP at an error level with the failed flits of the window. -/
def errLit (x : ErrLevel) (fails : Nat) : State :=
  upLit.onPort root0 fun y => { y with err := { y.err with level := x, winFail := fails, below := 999 } }

/-- O35: an EQUALISE that fetches, a record owed, a cage's port; the figures of the error levels; a sluice ahead and behind. -/
theorem test_levels : ((trainLit .equalise 19950000).port root0).link.fetching = true ∧
    (trainLit .equalise 19950000).now ≤ 19950000 + 100000000 ∧ profileOf root0 = 0 ∧ wired (cagePort 0 0) = none ∧ profileOf (cagePort 0 0) ≠ 0 ∧
    (((errLit .normal 1000000).port root0).err.overQuarantine 0) = true ∧ (((errLit .normal 0).port root0).err.overWatch 0) = false ∧
    ((errLit .quarantine 0).port root0).err.below = 999 ∧ lit.wmUp = true ∧ lit.actedOn C0 { die := 0, code := 0x51, tally := 1 } = false ∧
    (lit.field 0).live = true ∧ (lit.field 0).dies.contains C0 = true ∧ lit.leadTally 0 ≤ 1000000 ∧ 999999 < lit.leadTally 0 := by
  and_intros <;> decide +kernel

/-- O36: the last receive lane of KP0-C0's port and one past it; a switch at its boundary; with no spare left. -/
theorem test_lanes : 0 < bundlesOf root0 ∧ 17 < dataLanes root0 + spareLanes root0 ∧ mapLanes (upLit.laneMap root0 1) = [] ∧
    (mapLanes (upLit.laneMap root0 1)).length < spareLanes root0 ∧ (upLit.port root0).lanes.rx = none ∧
    0 < upLit.standby root0 1 ∧ wheelStart root0 false 0 ≤ upLit.tallyOf C0 ∧ upLit.tallyOf C0 < wheelStart root0 false 10000000 ∧
    (∀ q, (upLit.port root0).link.mate = some q → q.die.tray ≠ upLit.span.num → False) ∧ profileOf root0 ≠ 2 := by
  and_intros <;> first | decide +kernel | (intro q h; simp_all)

/-- A plan of F1 with a channel from KP0-C0 in slot 1 of its Bridge port, its step 0 running. -/
def slotPlan : Plan :=
  { id := 7, entries := [⟨0, 0, 0⟩], steps := [{ slotSet := some 0 }], sets := [{ set := 0, ports := [⟨0, 2⟩] }],
    ledger := [{ tray := 0, die := 0x11, port := 4, profile := 0, pinned := 0, peerTray := 0, peerDie := 0x10, peerPort := 0 }],
    blocks := [{ tray := 0, die := 0x11, tiles := [], packets := 0, packetOfs := 0,
                 chans := [{ kind := 1, order := true, back := false, src := 0, dst := 1, channel := 1, port := 4, attach := 0, bound := 2,
                             cycles := 0 }],
                 poss := [{ set := 0, port := 4, bundle := 0, slot := 1, chan := 0 }] }] }
def slotLit : State :=
  (upLit.onField 0 fun x => { x with active := some slotPlan, run := some (runOf 990000 1000001) }).onPort root0 fun y =>
    { y with link := { y.link with kl2 := true } }

/-- KP0-C0's port in a phase of Dry. -/
def dryLit (x : TrSt) (p : DryPhase) : State :=
  upLit.onPort root0 fun y => { y with link := { y.link with st := x }, dry := { y.dry with phase := p } }

/-- O37: a port that may enter Dry and one that may not, in each phase, in Dry. -/
theorem test_dry : upLit.dryOk root0 = true ∧ slotLit.dryOk root0 = false ∧
    ((dryLit .up .requested).port root0).dry.phase = .requested ∧ ((dryLit .up .sequences).port root0).dry.phase = .sequences ∧
    ((dryLit .up .committed).port root0).dry.phase = .committed ∧ ((dryLit .dry .dry).port root0).dry.phase = .dry ∧
    ((dryLit .dry .exiting).port root0).link.st = .dry := by
  and_intros <;> decide +kernel

/-! ### Flits and messages -/

/-- O38, O39: slots held and not, a position of a channel, none; a side position open, with an alarm, a new flit, nothing to send. -/
theorem test_positions : slotLit.slotField root0 1 = some 0 ∧ lit.slotField root0 1 = none ∧ slotLit.slotHeld root0 1 = true ∧
    slotLit.slotHeld root0 0 = false ∧ (slotLit.field 0).setNow = some 0 ∧ (slotLit.field 0).positionChan root0 0 0 2 1 = none ∧
    ((slotLit.field 0).positionChan root0 0 0 1 1).isSome = true ∧ (upLit.port root0).sideOpen = true ∧
    (upLit.port root0).nextAlarm = none ∧ (upLit.port root0).nextNew = none ∧
    ((upLit.onPort root0 fun y => { y with side := { y.side with hold := [{ cls := 1 }] } }).port root0).nextNew = some { cls := 1 } ∧
    ((upLit.onPort root0 fun y => { y with side := { y.side with hold := [{ cls := 5 }] } }).port root0).nextAlarm = some { cls := 5 } := by
  and_intros <;> decide +kernel

/-- O40: an unacknowledged flit with its timer at and before its end; a request repeated 16 times; the ends of a CFG_RD. -/
theorem test_replay : let y := (upLit.onPort root0 fun y => { y with side := { y.side with unacked := [⟨0, { cls := 1 }, 1⟩], next := 1 } }).port root0
    y.side.unacked ≠ [] ∧ y.side.replaying = false ∧ y.side.timerFrom + ackTimer (profileOf root0) ≤ upLit.now ∧ y.side.next ≠ 0 ∧
    (0xF0 : Nat) % 4 = 0 ∧ 0xF0 + 4 * 4 ≤ 0x100 ∧ 0x100 < 0xF4 + 4 * 4 ∧ upLit.dieUp C0 = true := by
  and_intros <;> decide +kernel

/-- A MEM_RD of 64 bytes of KP0-C0's window by the host window of X, in F1. -/
def rd0 : Hdr := { opcode := 0x10, field := 1, space := 0, dst := C0, src := X, dstUnit := 0x10, srcUnit := 0x08, tag := 0, cstatus := 0, len := 64, addr := 0 }
def rootX : PortId := ⟨X, 0⟩
def sideLit : State :=
  upLit.setPort rootX { resetPort rootX with link := { st := .up, enabled := true, peer := some root0 } }
def reqLit : State :=
  lit.onDie X fun y => { y with side := { y.side with reqs := [{ unit := 0x08, tag := 0, dst := C0, field := 1, opcode := 0x10, sentAt := 0 }] } }

/-- O41, O42: a message that may leave; accounts open, with a unit that is there; an outstanding request; requests the levee passes. -/
theorem test_messages : sideLit.dieUp X = true ∧ sideLit.addressed X ⟨rd0, []⟩ = ⟨rd0, []⟩ ∧ barred X rd0 = false ∧
    sideLit.outOfTurn X ⟨rd0, []⟩ = false ∧ rd0.acct = some ⟨X, C0, 1, 0⟩ ∧ sideLit.acctOpen ⟨X, C0, 1, 0⟩ = true ∧
    rd0.cells ≤ modSub (acctMod ⟨X, C0, 1, 0⟩) (sideLit.acctSrc ⟨X, C0, 1, 0⟩).grantSeen (sideLit.acctSrc ⟨X, C0, 1, 0⟩).sent ∧
    (sideLit.nextPort X X C0).isSome = true ∧ knownOp 0x10 = true ∧ knownOp 0x7F = false ∧ unitPresent C0 0x10 = true ∧ unitPresent C0 0x7F = false ∧
    ((reqLit.die X).req 0x08 0).isSome = true ∧ (lit.die X).req 0x08 0 = none ∧ memUnit rd0 = true ∧ within256 0 256 = true ∧
    within256 1 256 = false ∧ lit.memPlace rd0 64 false = .die ∧ lit.memPlace { rd0 with addr := 0x4000000 } 64 false = .levee ∧
    atomicShape 1 = some (4, 1) ∧ debugOk { rd0 with opcode := 0x40, field := 0, dstUnit := 0x18 } = true := by
  and_intros <;> decide +kernel

/-- O43: a line at home and owned; a cached one; a vector of a field; a record new to the sink. -/
theorem test_coherence : (lit.die C0).dirLine 0 = none ∧
    ((lit.onDie C0 fun y => { y with side := { y.side with dir := [{ line := 0, owner := some X }] } }).die C0).dirLine 0 = some { line := 0, owner := some X } ∧
    ((lit.onDie X fun y => { y with side := { y.side with cache := [⟨C0, 0, List.replicate 64 0, true, false⟩] } }).die X).cached C0 0 ≠ none ∧
    vectorOk 1 32 = true ∧ vectorOk 1 27 = false ∧ fieldOfNum 1 = some 0 ∧ (0 : Nat) + 64 ≤ (lit.field 0).h ∧ lit.sink = X ∧
    lit.actedOn X (recOf (List.replicate 32 0)).key = false := by
  and_intros <;> decide +kernel

/-! ### Power and service -/

/-- KP0-C0's samples at and below the edge of the orderly shutdown. -/
def hot (tj : Int) : Telemetry := { tj := tj, hbm0 := 60, hbm1 := 60, railMv := 700, railMa := 0, firings := [], packets := [], rung := 0, windows := 0 }

/-- O44: a managed die and one that is not, a sample that shuts down and one that does not, the Steward up. -/
theorem test_steward : lit.managed C0 = true ∧ State.reset.managed C0 = false ∧ hotter (hot 200) true 3 0 = true ∧ hotter (hot 40) true 3 0 = false ∧
    lit.stewardUp 0 = true ∧ (lit.die C0).pow.lost = false ∧ (lit.die C0).pow.level = 0 ∧ (lit.die C0).pow.lastTelemetry + 3000000 ≤ lit.now ∧
    (lit.pkg 0).st ≠ .unreachable := by
  and_intros <;> decide +kernel

/-- Package 0 in a state with its gate on; the tray before 54 V, and with it in a fault. -/
def gateLit (x : PkgSt) (seq : Nat) : State :=
  { lit with pkgs := [(0, { livePkg with st := x, seq := seq, seqAt := 0, enumDone := true, rails := [(2, 17000000)], inWin := [2] })] }
def faultLit : State := { lit with input := { present := true, fault := true } }

/-- O45, O46: a gate on and off; a ramp in time and late; the input faulted and not; each event of a power-up; a rail 3 ms late. -/
theorem test_power : ((gateLit .on 0).powerClock 0).wmUp = true ∧ (((gateLit .poweringUp 0).powerClock 0).pkg 0).gate = true ∧
    ((lit.powerClock 0).pkg 1).gate = false ∧ ((gateLit .poweringUp 0).powerClock 60000000).now ≤ (livePkg).gateAt + 60000000 ∧
    ((lit.powerClock 0).input.fault = false) ∧ ((faultLit.powerClock 0).input.fault = true) ∧
    (((gateLit .poweringUp 1).powerClock 0).pkg 0).seqAt + 5000000 ≤ ((gateLit .poweringUp 1).powerClock 0).now ∧
    (∀ r ∈ (((gateLit .poweringUp 5).powerClock 0).pkg 0).rails, ∃ e ∈ (((gateLit .poweringUp 5).powerClock 0).pkg 0).inWin, e.val = r.1) ∧
    17000000 + 3000000 ≤ ((gateLit .poweringUp 5).powerClock 0).now ∧ livePkg.held = none ∧ livePkg.latch = 0 ∧
    (((gateLit .poweringDown 0).powerClock 0).pkg 0).downSeq < 8 ∧ lit.notEnabled C0 = false := by
  and_intros <;> decide +kernel

/-- O47, O48: a supply at and past 3 %; a protective cap that is over; hiccups one in 1 s and three; a die whose reset may end. -/
theorem test_scans : ¬ (3 * 12000 < 100 * ((12360 : Int) - ((12000 : Nat) : Int)).natAbs) ∧ 3 * 12000 < 100 * ((12361 : Int) - ((12000 : Nat) : Int)).natAbs ∧
    ({ lit with wm := { running := true, protTray := some 0 } } : State).wm.protTray = some 0 ∧
    0 + 60000000000 ≤ (lit.powerClock 60000000000).now ∧ lit.upNow ∧
    ¬ ({ lit with pkgs := [], wm := { running := true, bankB := { st := .pending } } } : State).upNow ∧
    ((lit.powerClock 0).pkg 0).hiccups = [] ∧ 2 ≤ (({ livePkg with hiccups := [19000000, 19500000] }).hiccups.filter fun a => lit.now < a + 1000000000).length ∧
    (((lit.onDie C0 fun y => { y with boot := { y.boot with st := .inReset } }).die C0).boot.st = .inReset) ∧
    (lit.die C0).boot.resetAt + 100000 ≤ lit.now := by
  and_intros <;> decide +kernel

/-- O49, O50: packages in state 0, 2, 4 and 3 beside one that is on; caps at both ends of their ranges; a package no field holds. -/
theorem test_rack : ((lit.powerClock 0).pkg 1).st.mayUp = true ∧ ((lit.powerClock 0).pkg 0).st = .on ∧ (pkgLit .faulted |>.powerClock 0 |>.pkg 1).st = .faulted ∧
    ((pkgLit .poweringDown).powerClock 0).wmUp = true ∧ (5880 : Nat) ≤ 5880 ∧ ¬ (10801 : Nat) ≤ 10800 ∧ (freeLit.powerClock 0).pkgFields 0 = [] ∧
    (lit.powerClock 0).pkgFields 0 ≠ [] ∧ ({ lit with wm := { running := true, cycleFrom := some 0 } } : State).wm.cycleFrom = some 0 ∧
    0 + 1000000000 ≤ (lit.powerClock 1000000000).now ∧ lit.wmUp = true ∧ State.reset.wmUp = false := by
  and_intros <;> decide +kernel

/-- O51, O52: the Watermaster alive and away, restarting, within 60 s of its boot; a press at the ends of its range; a staging with its bytes. -/
theorem test_watermaster : lit.wmAlive = true ∧ State.reset.wmAlive = false ∧ lit.wm.restarting = none ∧
    ({ lit with wm := { running := true, restarting := some .watchdog } } : State).wm.restarting ≠ none ∧
    (lit.powerClock 0).now < lit.wm.bootedAt + 60000000000 ∧ ¬ (100 < 100 ∨ 2000 < 100) ∧ ¬ (2000 < 100 ∨ 2000 < 2000) ∧ stageLit.wm.staging = some none ∧
    bundleOk [] = false ∧ ({ lit with wm := { running := true, locTray := some 0 } } : State).wm.located .tray = some 0 := by
  and_intros <;> decide +kernel

/-- O53: the reset tray takes a power-up; a bring-up deadline at 180 s; a tray ready and one not. -/
theorem test_bringup : State.reset.input.present = false ∧ State.reset.wm.other.st ≠ .pending ∧
    (∀ n : Fin 4, (State.reset.pkg n).st = .off ∧ (State.reset.pkg n).latch = 0) ∧ State.reset.readyNow = false ∧
    ({ lit with wm := { running := true, firstGate := some 0 } } : State).wm.firstGate = some 0 ∧
    0 + 180000000000 ≤ (lit.powerClock 180000000000).now ∧ lit.wm.retryFrom = none ∧ lit.serving.isSome = true := by
  and_intros <;> decide +kernel

/-- O54: an unassigned agent that is selected; an answering one; frames that end at and past the 16 MiB; a line stuck and one that recovers. -/
theorem test_chain : lit.agentUp X = true ∧ lit.answers X = true ∧ State.reset.answers X = false ∧
    (let s := lit.onDie X fun y => { y with boot := { y.boot with addr := 0 } }; s.selIn X = true ∧ (s.die X).boot.addr = 0) ∧
    0xFFFFF0 + 16 ≤ 0x1000000 ∧ ¬ 0xFFFFF1 + 16 ≤ 0x1000000 ∧ (alarmLit.die X).trb.fifo = [{}] ∧ (({} : AlarmCopy).record.isFC = false) ∧
    ({ livePkg with st := .unreachable, beforeIsolation := .on }).beforeIsolation ≠ .poweringUp := by
  and_intros <;> decide +kernel

/-- KP0's dies in their boot ROM, the first components there. -/
def bootLit : State := upLit.onDie C0 fun y => { y with boot := { st := .bootRom, addr := BitVec.ofNat 8 C0.addr } }

/-- O55: a die that loads, one that does not; HBM trained and not. -/
theorem test_boot : bootLit.canLoad C0 = true ∧ lit.canLoad C0 = false ∧ (bootLit.die C0).boot.loads < 2 ∧
    ((lit.onDie C0 fun y => { y with boot := { y.boot with hbmTrained := false, hbmScrubbed := false } }).runs C0 = true) ∧
    (bootLit.die C0).boot.hbmTrained = false ∧ (lit.die C0).boot.hbmTrained = true := by
  and_intros <;> decide +kernel

/-- O56, O57: a die with an empty log and no capture; a handling bit set for 100 ms; a tally at a sample and not. -/
theorem test_errors : (lit.die C0).trb.log = [] ∧ (lit.die C0).trb.fec = none ∧ lit.dieUp C0 = true ∧ State.reset.dieUp C0 = false ∧
    (((lit.onDie C0 fun y => { y with trb := { y.trb with handling := [(1, 0)] } }).die C0).trb.handling.find? fun e => e.1 = (0 : Fin 9).val + 1) = some (1, 0) ∧
    0 + 100000000 ≤ (lit.clock 100000000).now ∧ lit.tallyOf C0 % 1024 ≠ 0 ∧ (lit.clock (20000000 + 448)).tallyOf C0 % 1024 = 0 ∧
    codeSev 0xE904 ≠ 0 ∧ (lit.die C0).trb.handles (codeClass 0xE904) = false := by
  and_intros <;> decide +kernel

/-- O58, O59, O60: a command that leads on; the tray in its room, with the timer in range. -/
theorem test_room : (∃ t, exec (.redfishResetUnsupported) lit = .next t) ∧ State.reset.sfTimerMs = 50 ∧
    (∃ t, step State.reset = .next t) := by
  exact ⟨⟨_, rfl⟩, rfl, ⟨_, rfl⟩⟩

/-! ### Well-formed commands -/

/-- Every check of WellFormed.lean refuses a term; its good sibling passes. -/
theorem test_well_formed : (Instr.idTray (ask 0)).wf = true ∧ (Instr.idTray { ask 0 with version := 256 }).wf = false ∧
    (Instr.idTray (ask 65536)).wf = false ∧ (Instr.fieldCreate (ask 72) { body 1 1 with masks := [] }).wf = false ∧
    (Instr.linkPond (ask 0) ⟨0, 0x11, 4⟩ 0 []).wf = false ∧ (Instr.linkThresh (ask 0) ⟨0, 0x11, 4⟩ []).wf = false ∧
    (Instr.powerCap (ask 0) 0 []).wf = false ∧ (Instr.dbgWrite (ask 0) 0 0x11 0 (List.replicate 4001 0)).wf = false ∧
    (Instr.launchRingWrite 0 0 0 0 (List.replicate 65 0)).wf = false ∧ (Instr.trainingTimeout ⟨X, 4⟩ 0).wf = false ∧
    (Instr.trainingTimeout ⟨C0, 4⟩ 0).wf = true ∧ (Instr.tileDrained X 0).wf = false ∧
    (Instr.meshPacketArrival C0 0 { packet with channel := 64 }).wf = false ∧ (Instr.meshPacketArrival C0 0 { packet with dest := 1056 }).wf = false ∧
    (Instr.meshPacketArrival C0 0 { packet with src := 1056 }).wf = false ∧ (Instr.meshPacketArrival C0 0 { packet with kind := 6 }).wf = false ∧
    (Instr.meshPacketArrival C0 0 { packet with egress := 5 }).wf = false ∧ (Instr.creditReturn C0 1056 0 0).wf = false ∧
    (Instr.creditReturn C0 0 1056 0).wf = false ∧ (Instr.creditReturn C0 0 0 64).wf = false ∧
    (Instr.memoryReadRequest C0 0 0xC00000000 packet 0 0).wf = false ∧ (Instr.memoryReadRequest C0 0 0 packet 64 0).wf = false ∧
    (Instr.memoryWrite C0 0 0xC00000000 packet 0).wf = false ∧ (Instr.drainMarkerArrival C0 0 64).wf = false := by
  and_intros <;> decide +kernel

/-- The same of marks, lanes, positions, messages, scans and frames. -/
theorem test_well_formed_links : (Instr.tallyMark root0 { mark0 with pinned := 65536 } 0 0).wf = false ∧
    (Instr.tallyMark root0 { mark0 with rootOfs := 32768 } 0 0).wf = false ∧ (Instr.tallyMark root0 { mark0 with rootOfs := -32769 } 0 0).wf = false ∧
    (Instr.tallyMark root0 { mark0 with depth := 256 } 0 0).wf = false ∧ (Instr.tallyMark root0 { mark0 with state := 256 } 0 0).wf = false ∧
    (Instr.tallyMark root0 { mark0 with rootOfs := -32768 } 0 0).wf = true ∧ (Instr.laneSilent root0 ⟨64, 0, 0⟩ 0).wf = false ∧
    (Instr.laneSilent root0 ⟨0, 2, 0⟩ 0).wf = false ∧ (Instr.laneSilent root0 ⟨0, 0, 31⟩ 0).wf = false ∧ (Instr.repairDone root0 [] [] 0).wf = false ∧
    (Instr.repairDone root0 (List.replicate (2 * bundlesOf root0) 0) [⟨64, 0, 0⟩] 0).wf = false ∧ (Instr.dryExitDone root0 [⟨64, 0, 0⟩] true 0).wf = false ∧
    (Instr.plannedPositionSend root0 64 0).wf = false ∧ (Instr.sidePositionSend root0 64 0 0).wf = false ∧ (Instr.memRd rd0 0).wf = true ∧
    (Instr.memRd { rd0 with opcode := 256 } 0).wf = false ∧ (Instr.memRd { rd0 with field := 16 } 0).wf = false ∧
    (Instr.memRd { rd0 with space := 8 } 0).wf = false ∧ (Instr.memRd { rd0 with dstUnit := 256 } 0).wf = false ∧
    (Instr.memRd { rd0 with srcUnit := 256 } 0).wf = false ∧ (Instr.memRd { rd0 with tag := 4096 } 0).wf = false ∧
    (Instr.memRd { rd0 with cstatus := 16 } 0).wf = false ∧ (Instr.memRd { rd0 with len := 257 } 0).wf = false ∧
    (Instr.memRd { rd0 with addr := 0x1000000000000 } 0).wf = false ∧ (Instr.memWr rd0 [] 0).wf = false ∧ (Instr.messageForward C0 ⟨rd0, []⟩ none 0).wf = false ∧
    (Instr.monitorScan [] 0).wf = false ∧ (Instr.chainRead X 0 65536).wf = false ∧ (Instr.telemetryLost X 0).wf = false ∧
    (∀ n w, decodeTableWord n w = none) := by
  and_intros <;> first | decide +kernel | (intro n w; rfl)

/-! ### Figures the spec states, worked by hand from its tables -/

/-- Pinned latencies of Table 4.4, an external cable of 3.0 m and of 0.1 m among them (R88, R89); cells of 64 and of 256 bytes (R192);
attachment routers of the four edges (R67); the place of bit 17 of a flit (R143); PAM4 levels and the lane of a symbol (R144). -/
theorem test_figures : pinnedOf root0 false none = 30 ∧ pinnedOf root0 true none = 18 ∧
    pinnedOf (cagePort 0 0) true (some ⟨true, true, 0, 0, some 30, false⟩) = 112 ∧
    pinnedOf (cagePort 0 0) true (some ⟨true, true, 0, 0, some 1, false⟩) = 104 ∧
    pinnedOf (cagePort 0 0) true (some ⟨true, true, 0, 0, some 0, false⟩) = 112 ∧ rd0.cells = 2 ∧ { rd0 with len := 256 }.cells = 5 ∧
    attachTile 0 7 = 29 ∧ attachTile 1 0 = 63 ∧ attachTile 2 0 = 993 ∧ attachTile 3 7 = 928 ∧ flitPlace 17 = (1, 1) ∧
    levels [true, false, true, true] = [3, 2] ∧ symbolLane 1 0 = 5 := by
  and_intros <;> decide +kernel

/-- The check of the nine ASCII bytes "123456789" is 0x29B1 (R443). -/
theorem test_crc16 : crc16 ((List.range 9).map fun i => BitVec.ofNat 8 (0x31 + i)) = 0x29B1 := by decide +kernel

/-- A KL1 flit passes its own CRC and fails with one bit wrong; a KL2 flit is corrected with two bytes wrong (R141, R142). -/
theorem test_crc : let f := wireFlit 0 false (flitHeader 1 false true 0xF8 3 1) []
    (checkFlit 0 false ⟨f, false, 0, false, []⟩).ok = true ∧ f.length = 32 ∧
    (checkFlit 0 false ⟨f.set 5 1, false, 0, false, []⟩).ok = false := by
  decide +kernel

/-- The same of a KL2 flit. -/
theorem test_rs : let f := wireFlit 0 true (flitHeader 1 false true 0xF8 3 1) []
    f.length = 68 ∧ (checkFlit 0 true ⟨(f.set 5 1).set 60 7, false, 0, false, []⟩).corrected = 2 ∧
    (checkFlit 0 true ⟨(f.set 5 1).set 60 7, false, 0, false, []⟩).ok = true := by
  decide +kernel


/-! ### The worked cases of the spec, with their results -/

/-- Worked cases 0.1, 11.1 and 18.1: addresses: T1.KP2-C1; F2's window offsets, its mask and its levee-view sums; KP3-C1's ports. -/
theorem test_case_addresses : DieId.addr ⟨1, 2, 2⟩ = 0x1C ∧ DieId.addr ⟨0, 3, 2⟩ = 0x21 ∧
    (let x : Field := { h := 0x400000000, dies := [⟨0, 1, 1⟩, ⟨0, 1, 2⟩, ⟨0, 1, 3⟩, ⟨0, 1, 4⟩, ⟨0, 3, 1⟩, ⟨0, 3, 2⟩, ⟨0, 3, 3⟩, ⟨0, 3, 4⟩] }
     barSlot + 4 * x.h + 0x1000 = 0x3000001000 ∧ x.barDie (4 * x.h + 0x1000) = some (⟨0, 3, 1⟩, 0x1000) ∧
     barSlot + 7 * x.h + 0x2000 = 0x3C00002000 ∧ x.barDie (7 * x.h + 0x2000) = some (⟨0, 3, 4⟩, 0x2000)) ∧
    maskReserved 0x000303C0 = false ∧ (⟨⟨0, 2, 4⟩, 2⟩ : PortId) = cagePort 0 8 ∧ (⟨⟨0, 0, 2⟩, 0⟩ : PortId) = cagePort 0 1 ∧
    (⟨⟨0, 2, 3⟩, 2⟩ : PortId) = cagePort 0 9 ∧ trayXY ⟨0, 3, 2⟩ = (3, 2) ∧ wired ⟨⟨0, 3, 2⟩, 3⟩ = some ⟨⟨0, 3, 1⟩, 1⟩ := by
  decide +kernel

/-- Worked cases 2.1 and 2.2: a footprint that asks 8 bytes and 1 slot too much, in order; a trailing run that is too long. -/
def caseLit : State := { lit with fields := [(2, { st := .enabled, dies := computeDies 0 2, w := 0x4000000, h := 0x4000000 })] }
def casePlan : Plan :=
  { flags := 2, foot := [⟨0x0004, 0, 0x1E, 2, 241⟩, ⟨0x0002, 0, 0x1C, 517, 262152⟩] }
def runStep : Step := { lens := List.replicate 8 100000 }
def calStep : Step := { calibration := true, lens := List.replicate 8 16000 }
def calPlan (last : Step) : Plan :=
  { entries := [⟨0, 29, 0⟩], steps := List.replicate 10 { runStep with lens := List.replicate 8 10000000 } ++ [calStep]
      ++ List.replicate 18 { runStep with lens := List.replicate 8 11100000 } ++ [last] }
theorem test_case_deficits :
    sortDeficits (caseLit.fitDeficits 2 casePlan) = [⟨0x0002, 0, 0x1C, 517, 262152, 262144⟩, ⟨0x0004, 0, 0x1E, 2, 241, 240⟩] ∧
    caseLit.fitDeficits 2 (calPlan calStep) = [] ∧
    caseLit.fitDeficits 2 (calPlan { runStep with lens := List.replicate 8 100000 }) = [⟨0x0007, 0, 0, 0, 199900000, 125000000⟩] := by
  decide +kernel

/-- Whether a command answers a next state with a property. -/
def after (o : Host.Outcome State Fault Refusal) (g : State → Bool) : Bool := match o with | .next t => g t | _ => false

/-- Worked case 3.1: the CREDIT requirement of tile 160: its input channels 64, 64 and 32, the attached ones 48, 32 and 24. -/
def attachPlan : Plan :=
  let c : ChanRec := { kind := 0, order := true, back := false, src := 0, dst := 160, channel := 0, port := 0, attach := 0, bound := 64, cycles := 0 }
  let b : Block := { tray := 0, die := 0x11, tiles := [], poss := [], packets := 0, packetOfs := 0,
                     chans := [c, { c with channel := 1 }, { c with channel := 2, bound := 32 },
                               { c with kind := 1, dst := 500, channel := 3, port := 3, attach := 160, bound := 48 },
                               { c with kind := 1, dst := 501, channel := 4, port := 3, attach := 160, bound := 32 },
                               { c with kind := 2, src := 7, dst := 9, channel := 5, port := 3, attach := 160, bound := 24 }] }
  { blocks := [b], bounds := b.chans.map fun c =>
      { tray := 0, die := if c.kind = 1 then 0 else 0x11, tile := c.dst, channel := c.channel, bound := c.bound } }

/-- Worked case 3.2: T0 after tags 0x00 and 0xFE complete, and the distances of two tags. -/
def agedTile : Tile := { tile0 with t0 := 0xFE, pairs := [], queue := [], ending := [0, 0xFE] }

theorem test_case_tiles : attachPlan.creditAt 0 0x11 160 = 264 ∧ attachPlan.creditAt 0 0x11 161 = 0 ∧
    (let x := Tile.advanceT0 8 { agedTile with done := [0] }; x.t0 = 0xFE) ∧
    (let x := Tile.advanceT0 8 { agedTile with done := [0, 0xFE] }; x.t0 = 0xFF ∧ x.dist 0x06 = 7 ∧ x.dist 0xF0 = 241 ∧ x.done = [0]) := by
  decide +kernel

/-- Worked case 4.1: a mark of a parent over a 2.0 m cable: pinned 112 ticks, e 52/128 tick, root offset 36/128 tick, AGREED. -/
def cablePort : PortId := cagePort 1 13
def cableLit : State :=
  let s := lit.setPort cablePort { resetPort cablePort with link := { st := .up, enabled := true, pinned := 112, peer := some (cagePort 0 5) } }
  { s with span := { num := 1, shape := 2, members := [2, 1], pos := [(0, 0), (1, 0)] }
           dies := [((cablePort.die).key, { liveDie cablePort.die with tally := { (liveDie cablePort.die).tally with
             value := 1000000112, parent := some cablePort.port, depth := 1 } })]
           pkgs := [(0, livePkg)], leader := {} }

theorem test_case_mark : pinnedOf cablePort true (some ⟨true, true, 0, 0, some 20, false⟩) = 112 ∧ cablePort.die = ⟨1, 0, 4⟩ ∧
    ((cageOf ⟨⟨0, 1, 3⟩, 1⟩).map Fin.val = some 5) ∧
    (after (exec (.tallyMark cablePort ⟨1000000000, 0, 0, 112, -16, 0, 1⟩ 52 0) cableLit) fun t =>
      let y := (t.die cablePort.die).tally; y.err = 52 && y.rootOfs = 36 && y.st = .agreed) = true := by
  decide +kernel

/-- Worked cases 5.1, 5.2 and 8.1: the wheel a substitution switches at; the entries of a fuse record and the maps they make; the
orientation of a slot; what the wiring joins. -/
def furrowLit (t : Nat) : State :=
  let s := lit.setPort ⟨C0, 1⟩ { resetPort ⟨C0, 1⟩ with link := { st := .up, enabled := true, kl2 := true, pinned := 24 } }
  s.onDie C0 fun y => { y with tally := { y.tally with value := BitVec.ofNat 64 t } }
def fusedLit : State :=
  (lit.onDie ⟨0, 3, 1⟩ fun y => { y with boot := { y.boot with plcCtrl := 0x1A62, fuse := [(58, 0x03EC)] } }).onDie ⟨0, 3, 2⟩ fun y =>
    { y with boot := { y.boot with plcCtrl := 0x1A63, fuse := [(11, 0x03EC)] } }

theorem test_case_lanes : (furrowLit 71).switchWheel ⟨C0, 1⟩ = 1 ∧ wheelStart ⟨C0, 1⟩ true 1 = 272 ∧ orientOf ⟨0, 3, 2⟩ = 3 ∧ orientOf ⟨0, 3, 1⟩ = 2 ∧
    0x1F * 32 + 12 = 0x03EC ∧ wired ⟨⟨0, 3, 2⟩, 3⟩ = some ⟨⟨0, 3, 1⟩, 1⟩ ∧ profileOf ⟨⟨0, 3, 2⟩, 3⟩ = 1 ∧ profileOf ⟨⟨0, 3, 2⟩, 0⟩ = 2 ∧
    wired ⟨⟨0, 3, 2⟩, 0⟩ = some ⟨⟨0, 1, 3⟩, 2⟩ ∧ wired ⟨⟨0, 3, 2⟩, 2⟩ = some ⟨⟨0, 3, 3⟩, 0⟩ ∧ (cageOf ⟨⟨0, 3, 2⟩, 1⟩).map Fin.val = some 6 := by
  decide +kernel

/-- Worked case 7.1: a write of 256 bytes takes 5 cells, 13 flits on KL1 and 6 on KL2, and the route of the spec there and back. -/
def longMsg : Msg := { h := { rd0 with opcode := 0x12, dst := ⟨0, 3, 3⟩, len := 256 }, data := List.replicate 256 0 }
theorem test_case_route : longMsg.h.cells = 5 ∧ (segment 22 longMsg).length = 13 ∧ (segment 54 longMsg).length = 6 ∧
    lit.entryDie X ⟨0, 3, 3⟩ = ⟨0, 0, 3⟩ ∧ lit.nextPort ⟨0, 0, 3⟩ X ⟨0, 3, 3⟩ = some 1 ∧ lit.nextPort ⟨0, 1, 4⟩ X ⟨0, 3, 3⟩ = some 1 ∧
    lit.nextPort ⟨0, 1, 3⟩ X ⟨0, 3, 3⟩ = some 2 ∧ lit.nextPort ⟨0, 3, 2⟩ X ⟨0, 3, 3⟩ = some 2 ∧
    lit.nextPort ⟨0, 3, 3⟩ ⟨0, 3, 3⟩ X = some 3 ∧ lit.exitDie ⟨0, 3, 3⟩ X = ⟨0, 0, 3⟩ ∧ lit.nextPort ⟨0, 0, 3⟩ ⟨0, 3, 3⟩ X = some 4 := by
  decide +kernel

/-- Worked cases 12.1, 13.1 and 17.1: a package cap of 1,800 W and a share of 1,470 W; a ramp cut at 60 ms latches SHORT and
RAMP_TIMEOUT; the bin of 338 unacknowledged flits. -/
def capLit : State :=
  { lit with fields := [(3, { st := .enabled, dies := computeDies 0 1 })], pkgs := [(1, { livePkg with trayCaps := [(0, 8680)] })] }
theorem test_case_power : packageCap [8680] [] = some 1800000 ∧ capLit.share 3 1 = ⟨1470000, 1⟩ ∧
    (after (exec (.rampTimeout 0 60000000) (gateLit .poweringUp 0)) fun t => (t.pkg 0).latch = 3 && !(t.pkg 0).gate) = true ∧ 32 + depthBin 338 = 48 - 8 := by
  decide +kernel

/-- Worked case 16.1: STALE_TAG, then MESH_HDR_UE while its class is handled: severities 0x12 and 0x2F, the capture holds the first. -/
def nested : State :=
  let d : DieId := C0
  (lit.report d { code := 0xE103, field := 1, locKind := 1, location := 301 }).report d { code := 0xE102, field := 1, locKind := 1, location := 302 }
theorem test_case_nested : (nested.die C0).trb.log.map (·.severity) = [0x12, 0x2F] ∧
    (nested.die C0).trb.fec.map (fun r => (r.code, r.location)) = some (0xE103, 301) ∧ ((nested.die C0).trb.handlingBits).testBit 1 = true := by
  decide +kernel

/-- Worked case 18.1: the lane map of bundle 5 at 0x3000_3096 and the lock word of lane 102 at 0x0013_034C. -/
theorem test_case_registers : (fusedLit.debugRead ⟨0, 3, 2⟩ 0x30003094 4 0).map (fun b => fieldAt b 2 2) = some 0x03EC ∧
    fusedLit.laneMap ⟨⟨0, 3, 2⟩, 3⟩ 11 = 0x03EC ∧ fusedLit.laneMap ⟨⟨0, 3, 1⟩, 1⟩ 10 = 0x03EC := by
  decide +kernel

end Sys2Proof.Tests
end

section
/-! PROOF. A span formed, dissolved and formed again (O17): what `respan`, `startForm`, `followLeader` and `makeRoot` leave of the parts
the statement names, then one lemma for each clause. -/

namespace Sys2Proof.Machine

/-! ### A part that another part's update leaves -/

@[simp] theorem State.setLedgerEpoch_span (s : State) (n : Nat) : (s.setLedgerEpoch n).span = s.span := rfl
@[simp] theorem State.setLeader_span (s : State) (x : Leader) : (s.setLeader x).span = s.span := rfl
@[simp] theorem State.setLeader_ports (s : State) (x : Leader) : (s.setLeader x).ports = s.ports := rfl

/-! ### A tray takes its place in a span -/

/-- A tray takes part in the span it is given: publishing its ports and those of the other trays moves no name. -/
@[simp] theorem State.respan_span (s : State) (sp : Span) : (s.respan sp).span = sp := by
  unfold State.respan
  extract_lets g keep own dies links fields root before leader renamed published others completed moved counted
  have hp : published.span = sp := State.forEach_keeps renamed _ _ State.span fun u p _ => by
    split
    · exact (State.publishPort_only u p).agrees .span (by decide)
    · rfl
  have hc : completed.span = published.span := State.forEach_keeps published _ _ State.span fun u p _ =>
    (State.otherPort_only u p).agrees .span (by decide)
  have hn : counted.span = sp := (State.setLedgerEpoch_span completed _).trans (hc.trans hp)
  refine (State.forEach_keeps counted _ _ State.span ?_).trans hn
  intro u f _
  refine State.forEach_keeps u _ _ State.span ?_
  intros
  rfl

/-- A formation that begins puts the tray into the span, with its record written and the request that waits for it (R385). -/
theorem State.startForm_span (s : State) (sp : Span) (w : Waiting) :
    (s.startForm sp w).span = { sp with record := some (sp.shape, sp.members), forming := some w } := by
  unfold State.startForm
  extract_lets formed may leader vacant
  have h : vacant.span = { sp with record := some (sp.shape, sp.members), forming := some w } :=
    (State.setLeader_span formed _).trans (State.respan_span s _)
  split
  · exact (State.emit_span vacant _).trans h
  · exact h

/-- While a span forms, leadership is vacant and this tray does not lead (R98). -/
theorem State.startForm_vacant (s : State) (sp : Span) (w : Waiting) :
    (s.startForm sp w).leader.vacant = true ∧ (s.startForm sp w).leader.lead = false := by
  simp only [State.startForm]
  split <;> exact ⟨rfl, rfl⟩

/-! ### The span's server moves (R258) -/

/-- Whether a channel awaits a request is not its decision's to change. -/
theorem State.decide_awaits {s : State} {q : MReq} (h : s.awaits q) (n : Fin 4) (k : Fin 9) (x : Option Resp) :
    (s.setChan n k { s.chan n k with decided := x }).awaits q := by
  intro hq
  by_cases hc : n = ⟨q.port.val, hq⟩ ∧ k = q.chan
  · obtain ⟨rfl, rfl⟩ := hc
    rw [State.setChan_chan_same]
    exact h hq
  · rw [State.setChan_chan_other _ _ _ _ _ _ (Decidable.not_and_iff_not_or_not.mp hc)]
    exact h hq

/-- States with the same host ports have the same channels, so the same requests are awaited. -/
theorem State.awaits_of_ports (s t : State) {q : MReq} (h : t.ports = s.ports) (w : s.awaits q) : t.awaits q :=
  State.awaits_of_chan q (fun n k => by simp only [State.chan, State.host, h]) w

/-- E_SERVER_MOVED decides requests; their channels still await them. -/
theorem State.moveServing_awaits {s : State} {q : MReq} (h : s.awaits q) (inst : Option (Fin 4)) : (s.moveServing inst).awaits q := by
  simp only [State.moveServing]
  refine State.forEach_inv _ _ _ (·.awaits q) ?_ fun u pk _ hu => ?_
  · refine State.forEach_inv _ _ _ (·.awaits q) ?_ fun u n _ hu => ?_
    · exact State.forEach_inv _ _ _ (·.awaits q) h fun u w _ hu => State.reply_awaits u _ q _ _ _ hu
    · exact State.forEach_inv _ _ _ (·.awaits q) hu fun u c _ hv => State.reply_awaits u _ q _ _ _ hv
  · split
    · split
      · exact State.decide_awaits hu _ _ _
      · exact hu
    · exact hu

/-- A claim window that closes changes no ownership: every scope is owned as before. -/
theorem State.moveServing_owned (s : State) (inst : Option (Fin 4)) (k : Fin 9) :
    ((s.moveServing inst).scope k).owned = (s.scope k).owned := by
  simp only [State.moveServing]
  refine (State.forEach_keeps _ _ _ (fun u => (u.scope k).owned) fun u pk _ => ?_).trans ?_
  · split
    · split <;> simp
    · rfl
  refine (State.forEach_keeps _ _ _ (fun u => (u.scope k).owned) fun u n _ => ?_).trans ?_
  · by_cases hn : n = k
    · subst hn; simp
    · rw [State.setScope_scope_other _ _ _ _ hn]
      exact State.forEach_keeps _ _ _ (fun u => (u.scope k).owned) fun _ _ _ => by simp
  · exact State.forEach_keeps _ _ _ (fun u => (u.scope k).owned) fun _ _ _ => by simp

/-! ### Following a leader, and becoming the root -/

theorem State.followLeader_leader (s : State) (x : Dword) : (s.followLeader x).leader = { s.leader with serial := x } := by
  simp only [State.followLeader]
  split
  · exact (State.moveServing_only _ _).agrees .leader (by decide)
  · rfl

theorem State.followLeader_owned (s : State) (x : Dword) (k : Fin 9) : ((s.followLeader x).scope k).owned = (s.scope k).owned := by
  simp only [State.followLeader]
  split
  · exact State.moveServing_owned _ _ k
  · rfl

theorem State.followLeader_awaits {s : State} {q : MReq} (h : s.awaits q) (x : Dword) : (s.followLeader x).awaits q := by
  simp only [State.followLeader]
  split
  · exact State.moveServing_awaits (State.awaits_of_ports s _ (State.setLeader_ports s _) h) _
  · exact State.awaits_of_ports s _ (State.setLeader_ports s _) h

theorem State.makeRoot_leader (s : State) (d : DieId) (epoch : Half) :
    (s.makeRoot d epoch).leader = { s.leader with root := some d, epoch := epoch, lead := true, vacant := false } := by
  unfold State.makeRoot
  extract_lets rooted leader leading reported
  have h : reported.leader = leading.leader := (State.report_only leading d _).agrees .leader (by decide)
  split
  · exact h
  · exact ((State.moveServing_only reported _).agrees .leader (by decide)).trans h

theorem State.makeRoot_owned (s : State) (d : DieId) (epoch : Half) (k : Fin 9) :
    ((s.makeRoot d epoch).scope k).owned = (s.scope k).owned := by
  unfold State.makeRoot
  extract_lets rooted leader leading reported
  have h : reported.scopes = s.scopes := (State.report_only leading d _).agrees .scopes (by decide)
  have hk : (reported.scope k).owned = (s.scope k).owned := by simp only [State.scope, h]
  split
  · exact hk
  · exact (State.moveServing_owned reported _ k).trans hk

/-! ### The outcome of a span command -/

/-- The end of a span command: what the other trays' servers answered stays known only where the span is another than before. -/
def State.keepPeers (s t : State) : State := if t.span = s.span then t.setPeers s.peers else t

theorem State.keepPeers_only (s t : State) : t.onlyChanges (s.keepPeers t) [.peers] :=
  only_ite (State.setPeers_only t _) (only_refl t _)

theorem State.keepPeers_answered {s t : State} {r : MReq} {o st : Nat} {b : List Byte} (h : t.answered r o st b) :
    (s.keepPeers t).answered r o st b := by
  unfold State.keepPeers
  split
  · exact h
  · exact h

/-- What deciding a request leaves: no part of the span, of the leadership or of the packages. -/
theorem State.atRequest_only (s : State) (r : MReq) : s.onlyChanges (s.atRequest r)
    [.resumed, .wmReply, .now, .free, .effects, .scopes, .targets, .ports, .dies, .trouble, .wm] :=
  only_step (State.tokenBeat_only _ _) (by decide) <| only_step (State.settleOwn_only _) (by decide) <|
    only_step (State.clock_only _ _) (by decide) <| only_step (State.setResumed_only _ _) (by decide) (only_refl s _)

/-- A request that only answers leaves the span, so the other trays' answers are forgotten. -/
theorem State.keepPeers_reply (s : State) (info : List TrayInfo) (r : MReq) (o st : Nat) (b : List Byte) :
    s.keepPeers (((s.setPeers info).atRequest r).reply r o st b) =
      (((s.setPeers info).atRequest r).reply r o st b).setPeers s.peers :=
  if_pos ((State.reply_span ..).trans ((State.atRequest_only (s.setPeers info) r).agrees .span (by decide)))

/-! ### SPAN_FORM -/

section
variable {s : State} {info : List TrayInfo} {r : MReq} {shape : Nat}
  (h : (s.setPeers info).decides r { opcode := 0x050B, len := 4, need := .everyTray, acts := some 0 }
    (fun _ => if shape < 1 ∨ 5 < shape then some eArgRange else none))
include h

theorem exec_spanForm_refused {e : Nat} (he : ((s.setPeers info).atRequest r).formable shape info = .inl e) :
    exec (.spanForm r shape info) s = .next ((((s.setPeers info).atRequest r).reply r 0x050B e []).setPeers s.peers) := by
  rw [← State.keepPeers_reply]
  show execSpanForm r shape info s = _
  simp only [execSpanForm, State.serve_decides h, he, State.keepPeers]

theorem exec_spanForm_formed {sp : Span} (he : ((s.setPeers info).atRequest r).formable shape info = .inr sp) :
    exec (.spanForm r shape info) s = .next (s.keepPeers
      ((((s.setPeers info).atRequest r).setTrayHolder (some ⟨r, 0x050B⟩)).startForm sp ⟨r, 0x050B⟩)) := by
  show execSpanForm r shape info s = _
  simp only [execSpanForm, State.serve_decides h, he, State.keepPeers]

end

/-- A formation the tray's request begins: the span with its record and the request unanswered, leadership vacant; host ports, scopes and
packages stay. -/
theorem State.keepPeers_startForm (s u : State) (sp : Span) (w : Waiting) :
    let t := s.keepPeers ((u.setTrayHolder (some w)).startForm sp w)
    t.span = { sp with record := some (sp.shape, sp.members), forming := some w } ∧ t.trayHolder = some w ∧
      t.leader.vacant = true ∧ t.leader.lead = false ∧ t.ports = u.ports ∧ t.scopes = u.scopes ∧ t.pkgs = u.pkgs := by
  intro t
  have hk := State.keepPeers_only s ((u.setTrayHolder (some w)).startForm sp w)
  have hf := State.startForm_only (u.setTrayHolder (some w)) sp w
  obtain ⟨hv, hl⟩ := State.startForm_vacant (u.setTrayHolder (some w)) sp w
  have hleader : t.leader = _ := hk.agrees .leader (by decide)
  exact ⟨(hk.agrees .span (by decide)).trans (State.startForm_span _ sp w),
    (hk.agrees .trayHolder (by decide)).trans (hf.agrees .trayHolder (by decide)), (congrArg Leader.vacant hleader).trans hv,
    (congrArg Leader.lead hleader).trans hl,
    (hk.agrees .ports (by decide)).trans (hf.agrees .ports (by decide)),
    (hk.agrees .scopes (by decide)).trans (hf.agrees .scopes (by decide)),
    (hk.agrees .pkgs (by decide)).trans (hf.agrees .pkgs (by decide))⟩

/-! ### SPAN_DISSOLVE -/

/-- The check over the eight fields finds any field with a loaded plan (R23). -/
theorem State.any_loaded_iff (s : State) : (allFields.any fun f => (s.field f).loaded) = true ↔ ∃ f, (s.field f).loaded = true := by
  have hm : ∀ f, f ∈ allFields := by decide
  simp [List.any_eq_true, hm]

/-- A tray without peers follows itself: it leads, and no claim stands (R98). -/
def State.leadAlone (s : State) : State :=
  let t := (s.setPeers []).followLeader s.serial
  t.setLeader { t.leader with lead := true, vacant := false, windowFrom := none, claims := [] }

/-- The tray alone: T0 of its own span, and leader of itself, before it has a root (R22, R98). -/
def State.alone (s : State) : State := (s.respan { members := [s.serial] }).leadAlone

/-- The tray alone with its own root, where it did not lead and has a die for one (R98, R374). -/
def State.dissolved (s : State) : State :=
  if s.leader.lead then s.alone
  else s.alone.pickRoot.elim s.alone fun d => s.alone.makeRoot d (s.alone.leader.epoch + 1)

theorem State.dissolved_cases (s : State) :
    s.dissolved = s.alone ∨ ∃ d epoch, s.dissolved = s.alone.makeRoot d epoch := by
  unfold State.dissolved
  split
  · exact .inl rfl
  · cases s.alone.pickRoot with
    | some d =>
      rw [Option.elim_some]
      exact .inr ⟨d, _, rfl⟩
    | none => exact .inl rfl

theorem State.dissolved_of_lead {s : State} (h : s.leader.lead = true) : s.dissolved = s.alone := if_pos h

theorem State.leadAlone_only (s : State) : s.onlyChanges s.leadAlone [.waiting, .wmReply, .peers, .serving, .scopes, .ports, .leader] :=
  only_step (State.setLeader_only _ _) (by decide) <| only_step (State.followLeader_only _ _) (by decide) <|
    only_step (State.setPeers_only s _) (by decide) (only_refl s _)

theorem State.leadAlone_leader (s : State) :
    s.leadAlone.leader.lead = true ∧ s.leadAlone.leader.vacant = false ∧ s.leadAlone.leader.serial = s.serial :=
  ⟨rfl, rfl, congrArg Leader.serial (State.followLeader_leader (s.setPeers []) s.serial)⟩

theorem State.leadAlone_owned (s : State) (k : Fin 9) : (s.leadAlone.scope k).owned = (s.scope k).owned :=
  State.followLeader_owned (s.setPeers []) s.serial k

theorem State.leadAlone_awaits {s : State} {q : MReq} (h : s.awaits q) : s.leadAlone.awaits q :=
  State.awaits_of_ports ((s.setPeers []).followLeader s.serial) s.leadAlone rfl
    (State.followLeader_awaits (State.awaits_of_ports s (s.setPeers []) rfl h) s.serial)

theorem State.alone_span (s : State) : s.alone.span = { members := [s.serial] } :=
  ((State.leadAlone_only _).agrees .span (by decide)).trans (State.respan_span s _)

theorem State.alone_leader (s : State) :
    s.alone.leader.lead = true ∧ s.alone.leader.vacant = false ∧ s.alone.leader.serial = s.serial := by
  have hs : (s.respan { members := [s.serial] }).serial = s.serial := (State.respan_only s _).agrees .serial (by decide)
  obtain ⟨hl, hv, hn⟩ := State.leadAlone_leader (s.respan { members := [s.serial] })
  unfold State.alone
  exact ⟨hl, hv, by rw [hn, hs]⟩

theorem State.alone_owned (s : State) (k : Fin 9) : (s.alone.scope k).owned = (s.scope k).owned := by
  have h : (s.respan { members := [s.serial] }).scopes = s.scopes := (State.respan_only s _).agrees .scopes (by decide)
  rw [State.alone, State.leadAlone_owned, State.scope, h, State.scope]

theorem State.alone_awaits {s : State} {q : MReq} (h : s.awaits q) : s.alone.awaits q :=
  State.leadAlone_awaits (State.awaits_of_ports s _ ((State.respan_only s _).agrees .ports (by decide)) h)

theorem State.dissolved_span (s : State) : s.dissolved.span = { members := [s.serial] } := by
  rcases State.dissolved_cases s with h | ⟨d, epoch, h⟩
  · rw [h, State.alone_span]
  · rw [h]
    exact ((State.makeRoot_only _ d epoch).agrees .span (by decide)).trans (State.alone_span s)

theorem State.dissolved_leader (s : State) :
    s.dissolved.leader.lead = true ∧ s.dissolved.leader.vacant = false ∧ s.dissolved.leader.serial = s.serial := by
  rcases State.dissolved_cases s with h | ⟨d, epoch, h⟩
  · rw [h]
    exact State.alone_leader s
  · obtain ⟨-, -, hs⟩ := State.alone_leader s
    rw [h, State.makeRoot_leader]
    dsimp only
    exact ⟨rfl, rfl, hs⟩

theorem State.dissolved_owned (s : State) (k : Fin 9) : (s.dissolved.scope k).owned = (s.scope k).owned := by
  rcases State.dissolved_cases s with h | ⟨d, epoch, h⟩
  · rw [h, State.alone_owned]
  · rw [h, State.makeRoot_owned, State.alone_owned]

section
variable {s : State} {info : List TrayInfo} {r : MReq}
  (h : (s.setPeers info).decides r { opcode := 0x050C, len := 0, need := .everyTray, acts := some 0 } noEarly)
include h

theorem exec_spanDissolve_busy
    (hb : (∃ f, (((s.setPeers info).atRequest r).field f).loaded = true) ∨ ∃ x ∈ info, x.planLoaded = true) :
    exec (.spanDissolve r info) s = .next ((((s.setPeers info).atRequest r).reply r 0x050C eSpanBusy []).setPeers s.peers) := by
  rw [← State.any_loaded_iff, ← List.any_eq_true] at hb
  rw [← State.keepPeers_reply]
  show execSpanDissolve r info s = _
  simp only [execSpanDissolve, State.serve_decides h, if_pos hb, State.keepPeers]

theorem exec_spanDissolve_dissolved (hf : ∀ f, (((s.setPeers info).atRequest r).field f).loaded = false)
    (hi : ∀ x ∈ info, x.planLoaded = false) :
    exec (.spanDissolve r info) s =
      .next (s.keepPeers (((s.setPeers info).atRequest r).dissolved.setCleaner.reply r 0x050C 0 [])) := by
  have hb : ¬ ((∃ f, (((s.setPeers info).atRequest r).field f).loaded = true) ∨ ∃ x ∈ info, x.planLoaded = true) := by
    simpa using ⟨hf, hi⟩
  rw [← State.any_loaded_iff, ← List.any_eq_true] at hb
  show execSpanDissolve r info s = _
  unfold execSpanDissolve
  rw [State.serve_decides h]
  generalize (s.setPeers info).atRequest r = u at hb ⊢
  rw [if_neg hb]
  extract_lets lead named followed leader led rooted
  have hl : led = u.alone := by rw [State.alone, State.leadAlone]
  clear_value led
  subst hl
  have hr : rooted = u.dissolved := by
    cases hp : u.alone.pickRoot <;> simp only [rooted, lead, State.dissolved, hp, Option.elim]
  rw [← hr, State.keepPeers]

end

/-- A dissolution the tray's request begins: the tray alone in its own span and its own leader, every scope owned as before; a tray that
led answers at once. -/
theorem State.keepPeers_dissolved (s u : State) (r : MReq) :
    let t := s.keepPeers (u.dissolved.setCleaner.reply r 0x050C 0 [])
    t.span = { members := [u.serial] } ∧ t.leader.lead = true ∧ t.leader.vacant = false ∧ t.leader.serial = u.serial ∧
      (∀ n, (t.scope n).owned = (u.scope n).owned) ∧
      (u.awaits r → u.leader.lead = true → t.answered r 0x050C 0 []) := by
  intro t
  have hk : u.dissolved.onlyChanges t [.peers, .cleaner, .wmReply, .ports] :=
    only_step (State.keepPeers_only s _) (by decide) <| only_step (State.reply_only ..) (by decide) <|
      only_step (State.setCleaner_only _) (by decide) (only_refl _ _)
  have hleader : t.leader = u.dissolved.leader := hk.agrees .leader (by decide)
  have hscopes : t.scopes = u.dissolved.scopes := hk.agrees .scopes (by decide)
  obtain ⟨hl, hv, hs⟩ := State.dissolved_leader u
  rw [← hleader] at hl hv hs
  refine ⟨(hk.agrees .span (by decide)).trans (State.dissolved_span u), hl, hv, hs, fun n => ?_, fun hw hlead => ?_⟩
  · rw [State.scope, hscopes]
    exact State.dissolved_owned u n
  · have ha : u.dissolved.awaits r := State.dissolved_of_lead hlead ▸ State.alone_awaits hw
    have hc : u.dissolved.setCleaner.ports = u.dissolved.ports := (State.setCleaner_only _).agrees .ports (by decide)
    exact State.keepPeers_answered (State.reply_answered (State.awaits_of_ports _ _ hc ha) 0x050C 0 [])

/-! ### SPAN_REFORM -/

/-- What a re-formation waits as: no requester sent it, so nobody is answered (R386). -/
def reforming (t : Nat) : Waiting :=
  { req := { port := 4, rid := 0xFFFE, chan := 0, version := 2, flags := 0, seq := 0, length := 0, token := 0, rsvd := 0, t := t },
    opcode := 0 }

section
variable {s : State} {info : List TrayInfo} {t shape : Nat} {members : List Dword}
  (hrec : (s.clock t).span.record = some (shape, members))
include hrec

/-- The recorded span forms again where every member is there and ready (R386). -/
theorem exec_spanReform_formed {sp : Span} (hready : (s.clock t).isReady = true) (htrays : (s.clock t).trays.length ≤ 1)
    (hforming : (s.clock t).span.forming = none) (hinfo : ∀ x ∈ info, x.ready = true)
    (hsame : sortSerials ((s.clock t).serial :: info.map (·.serial)) = members)
    (hsp : (s.clock t).formable shape info = .inr sp) :
    exec (.spanReform info t) s = .next (((s.clock t).setPeers info).startForm sp (reforming t)) := by
  have hall : info.all (·.ready) = true := List.all_eq_true.mpr hinfo
  show execSpanReform info t s = _
  simp only [execSpanReform, hrec, hsp, reforming]
  generalize s.clock t = u at hready htrays hforming hsame ⊢
  rw [if_neg (by simp [hready, htrays, hforming, hall, hsame])]

/-- A member that is not there or not ready keeps the recorded span from forming (R386). -/
theorem exec_spanReform_waits (h : (s.clock t).isReady = false ∨ (∃ x ∈ info, x.ready = false) ∨
      sortSerials ((s.clock t).serial :: info.map (·.serial)) ≠ members) :
    exec (.spanReform info t) s = .next (s.clock t) := by
  show execSpanReform info t s = _
  simp only [execSpanReform, hrec]
  rw [if_pos]
  rcases h with hready | ⟨x, hx, hr⟩ | hother
  · exact .inl (by simp [hready])
  · exact .inr (.inr (.inr (.inl (by simpa using ⟨x, hx, hr⟩))))
  · exact .inr (.inr (.inr (.inr hother)))

end

end Sys2Proof.Machine

open Sys2Proof Sys2Proof.Machine

/-- Settles O17: each command's outcome is written out once (`exec_spanForm_formed`, `exec_spanDissolve_dissolved`,
`exec_spanReform_formed`), and what it leaves of the named parts follows from the frames of `respan`, `followLeader` and `makeRoot`. -/
theorem spansFormAndDissolve : Obligations.SpansFormAndDissolve := by
  unfold Obligations.SpansFormAndDissolve
  intro s info
  refine ⟨?_, ?_, ?_⟩
  · intro r shape u h
    refine ⟨fun e he => exec_spanForm_refused h he, fun sp he => ?_⟩
    refine ⟨_, exec_spanForm_formed h he, ?_⟩
    exact State.keepPeers_startForm s _ sp ⟨r, 0x050B⟩
  · intro r u h
    refine ⟨fun hb => exec_spanDissolve_busy h hb, fun hf hi => ?_⟩
    have hu := State.atRequest_only (s.setPeers info) r
    have hserial : u.serial = s.serial := hu.agrees .serial (by decide)
    have he := exec_spanDissolve_dissolved h hf hi
    have hpkgs := ((execSpanDissolve_only r info s).keeps _ he).agrees .pkgs (by decide)
    obtain ⟨hspan, hlead, hvacant, hleader, howned, hanswer⟩ := State.keepPeers_dissolved s u r
    rw [hserial] at hspan hleader
    obtain ⟨-, -, -, hawaits, -, -⟩ := h
    exact ⟨_, he, hspan, hlead, hvacant, hleader, howned, hpkgs.trans (hu.agrees .pkgs (by decide)).symm, hanswer hawaits⟩
  · intro t shape members u hrec
    refine ⟨fun hready htrays hforming hinfo hsame sp hsp => ?_, exec_spanReform_waits hrec⟩
    have hpeers : ((u.setPeers info).startForm sp (reforming t)).peers = info :=
      (State.startForm_only _ _ _).agrees .peers (by decide)
    exact ⟨_, reforming t, exec_spanReform_formed hrec hready htrays hforming hinfo hsame hsp,
      State.startForm_span _ sp _, (State.startForm_vacant _ sp _).1, hpeers⟩
end

section
/-! PROOF. The rules of tiles and mesh (O29, O30, O31): what a step at one die leaves of the others, what an error report leaves of a
die, and what each queue operation leaves of its tile. -/

namespace Sys2Proof.Machine

/-! ### One die after another -/

/-- The later of two writes to a key stands. -/
@[simp] theorem NMap.set_set {ν : Type} (m : NMap ν) (k : Nat) (v w : ν) : NMap.set (NMap.set m k v) k w = NMap.set m k w := by
  induction m with
  | nil => simp [NMap.set]
  | cons e r ih =>
    obtain ⟨j, u⟩ := e
    by_cases hlt : k < j
    · simp [NMap.set, hlt]
    · by_cases heq : k = j
      · simp [NMap.set, heq]
      · simp [NMap.set, hlt, heq, ih]

@[simp] theorem State.setDie_setDie (s : State) (d : DieId) (x y : Die) : (s.setDie d x).setDie d y = s.setDie d y := by
  simp [State.setDie]

@[simp] theorem State.setDie_fieldOf (s : State) (d e : DieId) (x : Die) : (s.setDie d x).fieldOf e = s.fieldOf e := rfl

theorem State.die_of_dies {s t : State} (h : t.dies = s.dies) (k : DieId) : t.die k = s.die k := by simp only [State.die, h]

/-- What a new die has as the old one had it, every die has as before. -/
theorem State.setDie_die_keeps {β : Type} (v : Die → β) {s : State} {d : DieId} {x : Die} (h : v x = v (s.die d)) (k : DieId) :
    v ((s.setDie d x).die k) = v (s.die k) := by
  by_cases hk : d = k
  · subst hk; rw [State.setDie_die_same, h]
  · rw [State.setDie_die_other _ _ _ _ hk]

theorem State.setDie_otherDies (s : State) (d : DieId) (x : Die) : s.otherDies (s.setDie d x) d :=
  fun e he => State.setDie_die_other s d e x he.symm

theorem State.memoryKept_of_mem {s t : State} (h : ∀ k, (t.die k).mem = (s.die k).mem) : s.memoryKept t :=
  fun k a => by rw [h k]

theorem State.memoryKept_trans {s t u : State} (h : s.memoryKept t) (g : t.memoryKept u) : s.memoryKept u :=
  fun k a => (g k a).trans (h k a)

/-- A step at one die that leaves its memory. -/
theorem State.setDie_local {s : State} {d : DieId} {x : Die} (h : x.mem = (s.die d).mem) :
    s.otherDies (s.setDie d x) d ∧ s.memoryKept (s.setDie d x) ∧ s.onlyChanges (s.setDie d x) [.dies] :=
  ⟨State.setDie_otherDies s d x, State.memoryKept_of_mem (State.setDie_die_keeps Die.mem h), State.setDie_only s d x⟩

theorem State.spend_setDie_local {s : State} {d : DieId} {x : Die} (h : x.mem = (s.die d).mem) :
    s.otherDies (s.spend.setDie d x) d ∧ s.memoryKept (s.spend.setDie d x) ∧ s.onlyChanges (s.spend.setDie d x) [.dies, .free] := by
  obtain ⟨hdies, hmem, honly⟩ := State.setDie_local (s := s.spend) h
  exact ⟨hdies, hmem, only_step honly (by decide) (only_step (State.spend_only s) (by decide) (only_refl s _))⟩

/-- A step at one die and at one port. -/
theorem State.setDie_setPort_local (s : State) (d : DieId) (x : Die) (p : PortId) (y : Port) :
    s.otherDies ((s.setDie d x).setPort p y) d ∧ s.otherPorts ((s.setDie d x).setPort p y) p ∧
      s.onlyChanges ((s.setDie d x).setPort p y) [.dies, .links] :=
  ⟨State.setDie_otherDies s d x, fun q hq => State.setPort_port_other _ _ _ _ hq.symm,
    only_step (State.setPort_only _ p y) (by decide) <| only_step (State.setDie_only s d x) (by decide) (only_refl s _)⟩

/-! ### What an error report leaves of a die (R387-R400) -/

section
variable {β : Type} (v : Die → β) (hv : ∀ x trb cnt side, v { x with trb := trb, cnt := cnt, side := side } = v x)
include hv

theorem Die.queueAlarm_keeps (x : Die) (d : DieId) (m : Msg) : v (x.queueAlarm d m) = v x := by
  unfold Die.queueAlarm
  extract_lets e
  split
  · exact hv x x.trb x.cnt _
  · split <;> exact hv x _ x.cnt x.side

/-- A report changes a die's trouble record, its counters and its alarms, and nothing else of any die. -/
theorem State.report_die_keeps (s : State) (d : DieId) (e : Err) (k : DieId) : v ((s.report d e).die k) = v (s.die k) := by
  have hcontain : ∀ u f, v ((State.containField u f).die k) = v (u.die k) := fun u f =>
    congrArg v (State.die_of_dies ((State.containField_only u f).agrees .dies (by decide)) k)
  have hnote : ∀ (u : State) w a, v ((u.noteActed w a).die k) = v (u.die k) := fun u w a =>
    State.setDie_die_keeps v (hv (u.die w) _ (u.die w).cnt (u.die w).side) k
  unfold State.report
  extract_lets x trb0 nested r fc trb cnt0 cnt made msg told others rest stored contained
  split
  · exact State.setDie_die_keeps v (hv x _ x.cnt x.side) k
  have htold : v told = v x := (Die.queueAlarm_keeps v hv made d _).trans (hv x trb cnt x.side)
  have hrest : v rest = v x :=
    List.foldlRecOn others _ (motive := fun y => v y = v x) htold fun y hy w _ => (Die.queueAlarm_keeps v hv y d _).trans hy
  have hstored : v (stored.die k) = v (s.die k) := State.setDie_die_keeps v hrest k
  have hcontained : v (contained.die k) = v (s.die k) := by
    refine Eq.trans ?_ hstored
    simp only [contained]
    split
    · split
      · exact (State.forEach_keeps _ _ _ (fun u => v (u.die k)) fun u w _ => hnote u w _).trans (hcontain stored _)
      · rfl
    · rfl
  split
  · split
    · exact (State.forEach_keeps _ _ _ (fun u => v (u.die k)) fun u f _ => hcontain u f).trans hcontained
    · split
      · exact (hcontain contained _).trans hcontained
      · exact hcontained
  · exact hcontained

end

@[simp] theorem State.meshError_die_mem (s : State) (d : DieId) (c l n : Nat) (k : DieId) :
    ((s.meshError d c l n).die k).mem = (s.die k).mem := State.report_die_keeps Die.mem (fun _ _ _ _ => rfl) s d _ k
@[simp] theorem State.meshError_die_tiles (s : State) (d : DieId) (c l n : Nat) (k : DieId) :
    ((s.meshError d c l n).die k).tiles = (s.die k).tiles := State.report_die_keeps Die.tiles (fun _ _ _ _ => rfl) s d _ k
@[simp] theorem State.meshError_die_mesh (s : State) (d : DieId) (c l n : Nat) (k : DieId) :
    ((s.meshError d c l n).die k).mesh = (s.die k).mesh := State.report_die_keeps Die.mesh (fun _ _ _ _ => rfl) s d _ k
@[simp] theorem State.meshError_die_eps (s : State) (d : DieId) (c l n : Nat) (k : DieId) :
    ((s.meshError d c l n).die k).eps = (s.die k).eps := State.report_die_keeps Die.eps (fun _ _ _ _ => rfl) s d _ k
@[simp] theorem State.meshError_die_poison (s : State) (d : DieId) (c l n : Nat) (k : DieId) :
    ((s.meshError d c l n).die k).poison = (s.die k).poison := State.report_die_keeps Die.poison (fun _ _ _ _ => rfl) s d _ k
theorem State.meshError_memoryKept (s : State) (d : DieId) (c l n : Nat) : s.memoryKept (s.meshError d c l n) :=
  State.memoryKept_of_mem (State.meshError_die_mem s d c l n)
@[simp] theorem State.meshError_free (s : State) (d : DieId) (c l n : Nat) : (s.meshError d c l n).free = s.free :=
  (State.meshError_only s d c l n).agrees .free (by decide)

/-! ### Tiles and endpoints of a die -/

@[simp] theorem Die.setTile_tile_same (x : Die) (n : Nat) (t : Tile) : (x.setTile n t).tile n = t := NMap.get_set_same ..
theorem Die.setTile_tile_other (x : Die) {n m : Nat} (t : Tile) (h : m ≠ n) : (x.setTile n t).tile m = x.tile m :=
  NMap.get_set_other _ _ _ _ _ h.symm
@[simp] theorem Die.setTile_mem (x : Die) (n : Nat) (t : Tile) : (x.setTile n t).mem = x.mem := rfl
@[simp] theorem Die.setTile_mesh (x : Die) (n : Nat) (t : Tile) : (x.setTile n t).mesh = x.mesh := rfl
@[simp] theorem State.onTile_eq (s : State) (d : DieId) (n : Nat) (g : Tile → Tile) :
    s.onTile d n g = s.setDie d ((s.die d).setTile n (g ((s.die d).tile n))) := rfl
theorem Die.tile_of_tiles {x y : Die} (h : y.tiles = x.tiles) (n : Nat) : y.tile n = x.tile n := by simp only [Die.tile, h]

@[simp] theorem Die.setEp_ep_same (x : Die) (k : Nat) (e : Endpoint) : (x.setEp k e).ep k = e := NMap.get_set_same ..
@[simp] theorem Die.setEp_mem (x : Die) (k : Nat) (e : Endpoint) : (x.setEp k e).mem = x.mem := rfl
theorem Die.ep_of_eps {x y : Die} (h : y.eps = x.eps) (k : Nat) : y.ep k = x.ep k := by simp only [Die.ep, h]

/-! ### The mesh of a die -/

/-- A die whose first packet that waits at a local port and is meant has left the mesh. -/
def Die.takeArrived (x : Die) (g : Packet → Bool) : Die :=
  match x.mesh.findIdx? fun fl => fl.arrived && g fl.packet with
  | some i => { x with mesh := x.mesh.eraseIdx i }
  | none => x

@[simp] theorem State.takeArrived_eq (s : State) (d : DieId) (g : Packet → Bool) :
    s.takeArrived d g = s.setDie d ((s.die d).takeArrived g) := rfl

/-- Taking a packet out of the mesh leaves all of the die that is not the mesh. -/
theorem Die.takeArrived_keeps {β : Type} (v : Die → β) (hv : ∀ x mesh, v { x with mesh := mesh } = v x) (x : Die)
    (g : Packet → Bool) : v (x.takeArrived g) = v x := by
  unfold Die.takeArrived
  split
  · exact hv x _
  · rfl

@[simp] theorem Die.takeArrived_mem (x : Die) (g : Packet → Bool) : (x.takeArrived g).mem = x.mem :=
  Die.takeArrived_keeps Die.mem (fun _ _ => rfl) x g
@[simp] theorem Die.takeArrived_tiles (x : Die) (g : Packet → Bool) : (x.takeArrived g).tiles = x.tiles :=
  Die.takeArrived_keeps Die.tiles (fun _ _ => rfl) x g
@[simp] theorem Die.takeArrived_tile (x : Die) (g : Packet → Bool) (n : Nat) : (x.takeArrived g).tile n = x.tile n :=
  Die.takeArrived_keeps (Die.tile · n) (fun _ _ => rfl) x g
@[simp] theorem Die.takeArrived_ep (x : Die) (g : Packet → Bool) (k : Nat) : (x.takeArrived g).ep k = x.ep k :=
  Die.takeArrived_keeps (Die.ep · k) (fun _ _ => rfl) x g

theorem State.takeArrived_memoryKept (s : State) (d : DieId) (g : Packet → Bool) : s.memoryKept (s.takeArrived d g) :=
  (State.setDie_local (Die.takeArrived_mem (s.die d) g)).2.1

/-- The packets put into the mesh stand behind those that were in it. -/
theorem State.inject_setDie (s : State) (d : DieId) (x : Die) (l : List Packet) :
    ∃ new, (s.setDie d x).inject d l = s.setDie d { x with mesh := x.mesh ++ new } ∧ new.map (·.packet) = l :=
  ⟨_, by rw [State.inject, State.onDie_eq, State.setDie_setDie, State.setDie_die_same], by simp [Function.comp_def]⟩

/-- Noting a drain marker's router touches the die's notes alone (R234). -/
@[simp] theorem State.notePassed_mesh (s : State) (d : DieId) (r : Nat) (k : Packet) :
    ((s.notePassed d r k).die d).mesh = (s.die d).mesh := by
  unfold State.notePassed
  split <;> simp

@[simp] theorem State.notePassed_setDie (s : State) (d : DieId) (r : Nat) (k : Packet) (x : Die) :
    (s.notePassed d r k).setDie d x = s.setDie d x := by
  unfold State.notePassed
  split <;> simp

@[simp] theorem State.notePassed_port (s : State) (d : DieId) (r : Nat) (k : Packet) (p : PortId) :
    (s.notePassed d r k).port p = s.port p := by
  unfold State.notePassed
  split <;> simp

/-! ### The input queue of a tile (R60-R62, R69, R74) -/

/-- Pairing changes the pairing table and the iterations in flight, and nothing else of the tile (R62). -/
theorem Tile.offerAll_keeps {β : Type} (v : Tile → β)
    (hv : ∀ x pairs iterations, v { x with pairs := pairs, iterations := iterations } = v x) (x : Tile) :
    v x.offerAll = v x := by
  have hmark : ∀ x r t c, v (Tile.mark x r t c) = v x := fun x _ _ _ => hv x _ x.iterations
  have hallocate : ∀ x r t, v (Tile.allocate x r t) = v x := by
    intro x r t
    unfold Tile.allocate
    split
    · exact hv x _ _
    · split
      · exact hv x _ _
      · rfl
  have hoffer : ∀ x p, v (Tile.offer x p) = v x := by
    intro x p
    unfold Tile.offer
    split
    · rfl
    next r _ =>
      extract_lets y
      have hy : v y = v x := by
        simp only [y]
        split
        · rfl
        · exact hallocate x r p.tag
      split
      · exact (hmark y _ _ _).trans hy
      · exact hy
  exact List.foldlRecOn _ _ (motive := fun y => v y = v x) rfl fun y hy _ _ =>
    List.foldlRecOn _ _ (motive := fun z => v z = v x) hy fun z hz p _ => (hoffer z p).trans hz

@[simp] theorem Tile.enqueue_queue (x : Tile) (p : Packet) : (x.enqueue p).queue = x.queue ++ [p] :=
  Tile.offerAll_keeps Tile.queue (fun _ _ _ => rfl) _
@[simp] theorem Tile.enqueue_owed (x : Tile) (p : Packet) : (x.enqueue p).owed = x.owed :=
  Tile.offerAll_keeps Tile.owed (fun _ _ _ => rfl) _

@[simp] theorem Tile.took_queue (x : Tile) (p : Packet) : (x.took p).queue = x.queue := by
  unfold Tile.took
  split <;> rfl
@[simp] theorem Tile.took_owed (x : Tile) (p : Packet) : (x.took p).owed = x.owed := by
  unfold Tile.took
  split <;> rfl

/-- With no packet before it, a packet's turn is the next expected tag. -/
@[simp] theorem Tile.tagAfter_zero (x : Tile) (channel : Nat) : x.tagAfter channel 0 = x.nextTag channel := by
  unfold Tile.tagAfter Tile.nextTag
  split <;> simp

/-- The substitute for a lost packet whose turn is next (R74). -/
def Tile.poisonFor (x : Tile) (lost : Packet) (payload : Line) : Packet :=
  { lost with tag := x.nextTag lost.channel, poison := true, payload := payload }

/-- Without a free entry of its channel a substitute is owed (R69, R74). -/
theorem Tile.substitute_full {x : Tile} {lost : Packet} (h : x.entries lost.channel ≤ x.used lost.channel) (payload : Line) :
    x.substitute lost 0 payload =
      ({ x with owed := x.owed ++ [x.poisonFor lost payload] } : Tile).took (x.poisonFor lost payload) := by
  simp only [Tile.substitute, Tile.tagAfter_zero, Tile.poisonFor]
  rw [if_neg (by omega)]

/-! ### Bytes of a number (R2) -/

@[simp] theorem length_le (n v : Nat) : (le n v).length = n := by
  induction n generalizing v with
  | zero => rfl
  | succ n ih => simp [le, ih]

theorem getElem_le (n v i : Nat) (h : i < (le n v).length) : (le n v)[i] = BitVec.ofNat 8 (v / 256 ^ i) := by
  induction n generalizing v i with
  | zero => simp at h
  | succ n ih =>
    cases i with
    | zero => simp [le]
    | succ i => simp [le, ih, Nat.div_div_eq_div_mul, Nat.pow_succ']

/-- Byte `i` of a word in memory order is its bits from `8 * i` on. -/
theorem getElem_le_toNat {w : Nat} (x : BitVec w) (n i : Nat) (h : i < (le n x.toNat).length) :
    (le n x.toNat)[i] = x.extractLsb' (8 * i) 8 := by
  rw [getElem_le, BitVec.extractLsb', Nat.shiftRight_eq_div_pow, Nat.pow_mul]

end Sys2Proof.Machine
end

section
/-! PROOF. A packet of the mesh moves on and joins the queue of its tile (O29): one lemma for each thing ROUTER_FORWARD and
MESH_PACKET_ARRIVAL can do. -/

namespace Sys2Proof.Machine

/-! ### ROUTER_FORWARD (R53-R56, R68) -/

section
variable {s : State} {d : DieId} {idx : Nat} {fl : InFlight} {c : Fin 64} (hd : d.isCompute = true)
  (hfl : (s.die d).mesh[idx]? = some fl)
include hd hfl

theorem exec_routerForward_waits (h : s.mayLeave d idx fl c.val = false) (e : HdrErr) :
    exec (.routerForward d idx c e) s = .next s := by
  show execRouterForward d idx c e s = _
  simp [execRouterForward, hd, hfl, h]

variable (ha : fl.arrived = false) (h : s.mayLeave d idx fl c.val = true)
include ha h

/-- A packet on its way moves to the next router and may then use the next cycle (R55). -/
theorem exec_routerForward_moves (ho : s.outputOf d fl < 4) :
    exec (.routerForward d idx c .clean) s = .next ((s.notePassed d fl.router fl.packet).onDie d fun x =>
      { x with mesh := x.mesh.set idx { fl with router := meshNext fl.router (s.outputOf d fl), cycles := 2 ^ ((c.val + 1) % 64) } }) := by
  show execRouterForward d idx c .clean s = _
  have h4 : s.outputOf d fl ≠ 4 := by omega
  have h5 : s.outputOf d fl ≠ 5 := by omega
  simp [execRouterForward, hd, hfl, ha, h, h4, h5]

/-- At its destination's router a packet stands at the local port (R55). -/
theorem exec_routerForward_arrives (ho : s.outputOf d fl = 4) :
    exec (.routerForward d idx c .clean) s = .next ((s.notePassed d fl.router fl.packet).onDie d fun x =>
      { x with mesh := x.mesh.set idx { fl with arrived := true } }) := by
  show execRouterForward d idx c .clean s = _
  simp [execRouterForward, hd, hfl, ha, h, ho]

/-- At its attachment router a packet leaves the mesh for the egress entries of its port (R68). -/
theorem exec_routerForward_leaves (ho : s.outputOf d fl = 5) (hp : fl.packet.egress - 1 < 5) :
    exec (.routerForward d idx c .clean) s =
      .next ((s.setDie d { (s.notePassed d fl.router fl.packet).die d with mesh := (s.die d).mesh.eraseIdx idx }).onPort
        ⟨d, ⟨_, hp⟩⟩ fun y =>
          { y with planned := { y.planned with egress := y.planned.egress ++ [{ chan := fl.packet.channel, packet := fl.packet }] } }) := by
  show execRouterForward d idx c .clean s = _
  simp [execRouterForward, hd, hfl, ha, h, ho, hp]

/-- A packet whose header cannot be corrected leaves the mesh, reported, and on a planned channel poison is owed for it (R54). -/
theorem exec_routerForward_discards :
    exec (.routerForward d idx c .uncorrectable) s =
      .next (let u := (s.onDie d fun x => { x with mesh := x.mesh.eraseIdx idx }).meshError d 0xE102 1 fl.router
        if fl.packet.kind = 0 then u.substituteFrom d fl.packet (((s.die d).mesh.take idx).map (·.packet)) else u) := by
  show execRouterForward d idx c .uncorrectable s = _
  simp [execRouterForward, hd, hfl, ha, h]

end

/-- A substitute changes the tiles of one die. -/
theorem State.substitute_die_keeps {β : Type} (v : Die → β) (hv : ∀ x tiles, v { x with tiles := tiles } = v x) (s : State)
    (d : DieId) (lost : Packet) (ahead : Nat) (k : DieId) : v ((s.substitute d lost ahead).die k) = v (s.die k) :=
  State.setDie_die_keeps v (hv (s.die d) _) k

theorem State.substituteFrom_die_keeps {β : Type} (v : Die → β) (hv : ∀ x tiles, v { x with tiles := tiles } = v x) (s : State)
    (d : DieId) (lost : Packet) (before : List Packet) (k : DieId) :
    v ((s.substituteFrom d lost before).die k) = v (s.die k) := by
  unfold State.substituteFrom
  split
  · exact State.substitute_die_keeps v hv ..
  · split
    · split
      · exact State.substitute_die_keeps v hv ..
      · rfl
    · rfl

/-- A discarded packet is out of the mesh; memory stays, whether poison is owed for it or not. -/
theorem State.discard_leaves (s : State) (d : DieId) (idx : Nat) (fl : InFlight) (before : List Packet) :
    let u := (s.onDie d fun x => { x with mesh := x.mesh.eraseIdx idx }).meshError d 0xE102 1 fl.router
    let v := if fl.packet.kind = 0 then u.substituteFrom d fl.packet before else u
    (v.die d).mesh = (s.die d).mesh.eraseIdx idx ∧ s.memoryKept v := by
  intro u v
  have hout : s.memoryKept (s.setDie d { s.die d with mesh := (s.die d).mesh.eraseIdx idx }) :=
    (State.setDie_local (by rfl)).2.1
  have hu : (u.die d).mesh = (s.die d).mesh.eraseIdx idx ∧ s.memoryKept u :=
    ⟨by simp [u], State.memoryKept_trans hout (State.meshError_memoryKept _ d _ _ _)⟩
  simp only [v]
  split
  · exact ⟨(State.substituteFrom_die_keeps Die.mesh (fun _ _ => rfl) ..).trans hu.1, State.memoryKept_trans hu.2
      (State.memoryKept_of_mem (State.substituteFrom_die_keeps Die.mem (fun _ _ => rfl) u d fl.packet before))⟩
  · exact hu

/-! ### MESH_PACKET_ARRIVAL (R61, R69, R74) -/

section
variable {s : State} {d : DieId} {tile : Fin 1024} {p : Packet} (hd : d.isCompute = true)
include hd

/-- The levee or the tag check turns a packet away: it leaves the mesh, and the error is reported. -/
theorem exec_meshPacketArrival_refused
    (h : s.fieldOf d = none ∨ p.kind ≠ 0 ∨ p.dest ≠ tile.val ∨ 128 ≤ ((s.die d).tile tile.val).dist p.tag) :
    ∃ code, exec (.meshPacketArrival d tile p) s = .next ((s.takeArrived d (· == p)).meshError d code 1 tile.val) := by
  show ∃ code, execMeshPacketArrival d tile p s = _
  by_cases hlevee : s.fieldOf d = none ∨ p.kind ≠ 0 ∨ p.dest ≠ tile.val
  · exact ⟨0xE107, by simp [execMeshPacketArrival, hd, hlevee]⟩
  · obtain ⟨hf, hk, hdest⟩ := not_or.1 hlevee |>.imp_right not_or.1
    have hdist : 128 ≤ ((s.die d).tile tile.val).dist p.tag := by simpa [hf, hk, hdest] using h
    exact ⟨0xE103, by simp [execMeshPacketArrival, hd, hlevee, hdist]⟩

variable (hf : (s.fieldOf d).isSome = true) (hk : p.kind = 0) (hdest : p.dest = tile.val)
  (hdist : ((s.die d).tile tile.val).dist p.tag < 128)
include hf hk hdest hdist

theorem exec_meshPacketArrival_queued (h : ((s.die d).tile tile.val).used p.channel < ((s.die d).tile tile.val).entries p.channel) :
    exec (.meshPacketArrival d tile p) s = .next ((s.takeArrived d (· == p)).onTile d tile.val (·.enqueue p)) := by
  show execMeshPacketArrival d tile p s = _
  have hn : s.fieldOf d ≠ none := Option.isSome_iff_ne_none.1 hf
  simp [execMeshPacketArrival, hd, hn, hk, hdest, Nat.not_le.2 hdist, Nat.not_le.2 h]

theorem exec_meshPacketArrival_full (h : ((s.die d).tile tile.val).entries p.channel ≤ ((s.die d).tile tile.val).used p.channel) :
    exec (.meshPacketArrival d tile p) s =
      .next (((s.takeArrived d (· == p)).meshError d 0xE104 1 tile.val).substitute d p 0) := by
  show execMeshPacketArrival d tile p s = _
  have hn : s.fieldOf d ≠ none := Option.isSome_iff_ne_none.1 hf
  simp [execMeshPacketArrival, hd, hn, hk, hdest, Nat.not_le.2 hdist, h]

end

/-- A packet turned away leaves every tile and every memory. -/
theorem State.turnAway_leaves (s : State) (d : DieId) (g : Packet → Bool) (code n : Nat) :
    let v := (s.takeArrived d g).meshError d code 1 n
    (v.die d).tiles = (s.die d).tiles ∧ s.memoryKept v :=
  ⟨by simp, State.memoryKept_trans (State.takeArrived_memoryKept s d g) (State.meshError_memoryKept _ d _ _ _)⟩

/-- A packet in order is the last of its tile's queue, and no other tile changes. -/
theorem State.enqueue_leaves (s : State) (d : DieId) (n : Nat) (g : Packet → Bool) (p : Packet) :
    let v := (s.takeArrived d g).onTile d n (·.enqueue p)
    let x := (s.die d).tile n
    ((v.die d).tile n).queue = x.queue ++ [p] ∧ ((v.die d).tile n).owed = x.owed ∧
      (∀ m, m ≠ n → (v.die d).tile m = (s.die d).tile m) ∧ s.otherDies v d ∧ s.memoryKept v ∧ s.onlyChanges v [.dies] := by
  simp only [State.takeArrived_eq, State.onTile_eq, State.setDie_setDie, State.setDie_die_same]
  exact ⟨by simp, by simp, fun m hm => by simp [Die.setTile_tile_other _ _ hm], State.setDie_local (by simp)⟩

/-- For a packet beyond its channel's bound its tile owes a substitute, with poison and the next expected tag (R69, R74). -/
theorem State.overflow_owes {s : State} {d : DieId} {p : Packet} (g : Packet → Bool) (code : Nat)
    (h : ((s.die d).tile p.dest).entries p.channel ≤ ((s.die d).tile p.dest).used p.channel) :
    let v := ((s.takeArrived d g).meshError d code 1 p.dest).substitute d p 0
    let x := (s.die d).tile p.dest
    ((v.die d).tile p.dest).queue = x.queue ∧
      ((v.die d).tile p.dest).owed = x.owed ++ [x.poisonFor p (Config.substitute s.free)] ∧ v.free = s.free + 1 ∧
      s.memoryKept v := by
  intro v x
  obtain ⟨htiles, hmem⟩ := State.turnAway_leaves s d g code p.dest
  have hx := Die.tile_of_tiles htiles p.dest
  have hfree : ((s.takeArrived d g).meshError d code 1 p.dest).free = s.free := by simp
  simp only [v, State.substitute, hfree]
  generalize (s.takeArrived d g).meshError d code 1 p.dest = u at hx hmem hfree ⊢
  refine ⟨by simp [hx, Tile.substitute_full h, x], by simp [hx, Tile.substitute_full h, x], congrArg (· + 1) hfree, ?_⟩
  exact State.memoryKept_trans hmem (State.memoryKept_of_mem (State.setDie_die_keeps Die.mem rfl))

end Sys2Proof.Machine

open Sys2Proof Sys2Proof.Machine

/-- Settles O29: each branch of ROUTER_FORWARD and MESH_PACKET_ARRIVAL has its lemma above; a report leaves meshes, tiles and memories
(`State.report_die_keeps`), a substitute everything but tiles. -/
theorem meshPacketsMove : Obligations.MeshPacketsMove := by
  unfold Obligations.MeshPacketsMove
  intro s d hd
  refine ⟨?_, ?_⟩
  · intro idx fl c hfl ha
    refine ⟨exec_routerForward_waits hd hfl, fun h => ⟨exec_routerForward_moves hd hfl ha h,
      exec_routerForward_arrives hd hfl ha h, fun ho hp => ?_, ?_⟩⟩
    · exact ⟨_, exec_routerForward_leaves hd hfl ha h ho hp, by simp, by simp, State.setDie_setPort_local ..⟩
    · exact ⟨_, exec_routerForward_discards hd hfl ha h, State.discard_leaves ..⟩
  · intro tile p x
    refine ⟨fun h => ?_, fun hf hk hdest hdist => ⟨fun h => ?_, fun h => ?_⟩⟩
    · obtain ⟨code, he⟩ := exec_meshPacketArrival_refused hd h
      exact ⟨_, he, State.turnAway_leaves ..⟩
    · exact ⟨_, exec_meshPacketArrival_queued hd hf hk hdest hdist h, State.enqueue_leaves ..⟩
    · have he := exec_meshPacketArrival_full hd hf hk hdest hdist h
      simp only [x, ← hdest] at he h ⊢
      obtain ⟨hqueue, howed, hfree, hmem⟩ := State.overflow_owes (· == p) 0xE104 h
      exact ⟨_, _, he, hqueue, howed, rfl, rfl, rfl, hfree, hmem⟩
end

section
/-! PROOF. Memory endpoints and ingress (O30): one lemma for each thing the endpoints' commands and INGRESS_INJECT can do. -/

namespace Sys2Proof.Machine

/-! ### A packet at its endpoint (R65, R66) -/

/-- Die `x` after a write of 64 bytes at a line through endpoint `k` at an instant (R46, R66). -/
def Die.storeLine (x : Die) (k now line : Nat) (p : Packet) : Die :=
  { x.setEp k { x.ep k with last := some now } with
      mem := Memory.write x.mem (64 * line) (le 64 p.payload.toNat), poison := putMark x.poison line p.poison }

@[simp] theorem Die.storeLine_ep (x : Die) (k now line : Nat) (p : Packet) :
    (x.storeLine k now line p).ep k = { x.ep k with last := some now } := NMap.get_set_same ..

/-- The state after a line is stored: a poisoned one is counted and reported (R46). -/
def State.storeLine (s : State) (d : DieId) (k line : Nat) (p : Packet) : State :=
  let t := s.setDie d ((s.die d).storeLine k s.now line p)
  if p.poison then (t.countPoison d).meshError d 0xE601 3 k else t

section
variable {s : State} {d : DieId} {k : Fin 32} {addr t : Nat} {p : Packet} (hd : d.isCompute = true)
include hd

/-- An endpoint that has taken a packet in this tick takes no other (R66). -/
theorem exec_endpoint_taken (h : (((s.clock t).die d).ep k.val).last = some (s.clock t).now) (n : Nat) :
    exec (.memoryReadRequest d k addr p n t) s = .next (s.clock t) ∧ exec (.memoryWrite d k addr p t) s = .next (s.clock t) := by
  show execMemoryReadRequest d k addr p n t s = _ ∧ execMemoryWrite d k addr p t s = _
  simp only [execMemoryReadRequest, execMemoryWrite]
  generalize s.clock t = u at h ⊢
  simp [hd, h]

variable (hlast : (((s.clock t).die d).ep k.val).last ≠ some (s.clock t).now)
include hlast

/-- A packet for another home leaves the mesh and is reported (R65). -/
theorem exec_endpoint_misplaced (hhome : homeEndpoint addr ≠ k.val) (n : Nat) :
    let v := ((s.clock t).takeArrived d (· == p)).meshError d 0xE106 3 k.val
    exec (.memoryReadRequest d k addr p n t) s = .next v ∧ exec (.memoryWrite d k addr p t) s = .next v := by
  show execMemoryReadRequest d k addr p n t s = _ ∧ execMemoryWrite d k addr p t s = _
  simp only [execMemoryReadRequest, execMemoryWrite]
  generalize s.clock t = u at hlast ⊢
  simp [hd, hlast, hhome]

variable (hhome : homeEndpoint addr = k.val)
include hhome

theorem exec_memoryReadRequest_waits (n : Nat) :
    let u := s.clock t
    let e := (u.die d).ep k.val
    exec (.memoryReadRequest d k addr p n t) s =
      .next (u.setDie d (((u.die d).takeArrived (· == p)).setEp k.val
        { e with last := some u.now, reqs := e.reqs ++
          [{ addr := addr / 64 * 64, tag := p.tag, src := p.src, reply := n, since := u.now }] })) := by
  show execMemoryReadRequest d k addr p n t s = _
  simp only [execMemoryReadRequest]
  generalize s.clock t = u at hlast ⊢
  simp [hd, hlast, hhome]

theorem exec_memoryWrite_stores :
    exec (.memoryWrite d k addr p t) s = .next (((s.clock t).takeArrived d (· == p)).storeLine d k.val (addr / 64) p) := by
  show execMemoryWrite d k addr p t s = _
  simp only [execMemoryWrite]
  generalize s.clock t = u at hlast ⊢
  simp [hd, hlast, hhome, State.storeLine, Die.storeLine]

end

theorem State.countPoison_die (s : State) (d k : DieId) : (s.countPoison d).die k = s.die k := by
  unfold State.countPoison
  split <;> simp

/-- A marked line is listed, an unmarked one is not. -/
theorem contains_putMark (l : List Nat) (n : Nat) (on : Bool) : (putMark l n on).contains n = on := by
  cases on
  · simp [putMark]
  · by_cases h : n ∈ l <;> simp [putMark, h]

/-- The count and the report of a poisoned line change nothing of the dies but their trouble. -/
theorem State.storeLine_die_keeps {β : Type} (v : Die → β)
    (hv : ∀ x trb cnt side, v { x with trb := trb, cnt := cnt, side := side } = v x) (s : State) (d : DieId) (k line : Nat)
    (p : Packet) (q : DieId) :
    v ((s.storeLine d k line p).die q) = v ((s.setDie d ((s.die d).storeLine k s.now line p)).die q) := by
  unfold State.storeLine
  extract_lets t
  split
  · exact (State.report_die_keeps v hv _ d _ q).trans (congrArg v (State.countPoison_die t d q))
  · rfl

/-- A stored line reads as the packet's payload, poisoned as the packet is; no other byte and no waiting request changes (R46, R66). -/
theorem State.storeLine_leaves {s : State} {d : DieId} (hm : Memory.wf (s.die d).mem = true) (g : Packet → Bool) (k line : Nat)
    (p : Packet) :
    let v := (s.takeArrived d g).storeLine d k line p
    (∀ i, i < 64 → Memory.get (v.die d).mem (64 * line + i) = p.payload.extractLsb' (8 * i) 8) ∧
      (∀ a, a / 64 ≠ line → Memory.get (v.die d).mem a = Memory.get (s.die d).mem a) ∧
      (∀ q, q ≠ d → (v.die q).mem = (s.die q).mem) ∧ (v.die d).poison.contains line = p.poison ∧
      ((v.die d).ep k).reqs = ((s.die d).ep k).reqs := by
  intro v
  have hkeeps : ∀ {β : Type} (w : Die → β), (∀ x trb cnt side, w { x with trb := trb, cnt := cnt, side := side } = w x) → ∀ q,
      w (v.die q) = w ((s.setDie d (((s.die d).takeArrived g).storeLine k s.now line p)).die q) := fun w hw q =>
    (State.storeLine_die_keeps w hw (s.takeArrived d g) d k line p q).trans (by simp)
  have hmem := hkeeps Die.mem fun _ _ _ _ => rfl
  have hd : (v.die d).mem = Memory.write (s.die d).mem (64 * line) (le 64 p.payload.toNat) := by
    rw [hmem, State.setDie_die_same, Die.storeLine, Die.takeArrived_mem]
  refine ⟨fun i hi => ?_, fun a ha => ?_, fun q hq => ?_, ?_, ?_⟩
  · rw [hd, Memory.get_write_inside _ i _ hm (by simpa using hi), getElem_le_toNat]
  · rw [hd, Memory.get_write_outside _ _ _ _ (by simp only [length_le]; omega)]
  · rw [hmem, State.setDie_die_other _ _ _ _ hq.symm]
  · rw [hkeeps Die.poison fun _ _ _ _ => rfl, State.setDie_die_same]
    exact contains_putMark _ _ _
  · rw [hkeeps (Die.ep · k) fun _ _ _ _ => rfl, State.setDie_die_same, Die.storeLine_ep, Die.takeArrived_ep]

/-! ### MEMORY_READ_RESPONSE (R59, R66) -/

/-- The answer endpoint `k` of die `x` gives to a request, on its reply channel: the line's bytes and mark (R46, R66). -/
def Die.answer (x : Die) (k : Nat) (q : RdReq) (order : Bool) : Packet :=
  { tag := q.tag, channel := q.reply, half := false, pair := false, dest := q.src, src := 1024 + k, kind := 0,
    poison := x.poison.contains (q.addr / 64), egress := 0, order := order,
    payload := BitVec.ofNat 512 (ofLe (Memory.read x.mem q.addr 64)) }

/-- An endpoint that has answered its oldest request: the reply channel has a credit less (R59). -/
def Endpoint.answered (e : Endpoint) (q : RdReq) (rest : List RdReq) : Endpoint :=
  { e with reqs := rest, outs := e.outs.map fun c =>
      if c.dst = q.src ∧ c.channel = q.reply then { c with credits := c.credits - 1 } else c }

section
variable {s : State} {d : DieId} {k : Fin 32} {t : Nat} (hd : d.isCompute = true)
include hd

theorem exec_memoryReadResponse_none (h : (((s.clock t).die d).ep k.val).reqs = []) :
    exec (.memoryReadResponse d k t) s = .next (s.clock t) := by
  show execMemoryReadResponse d k t s = _
  simp [execMemoryReadResponse, hd, h]

variable {q : RdReq} {rest : List RdReq} {c : OutChan} (hq : (((s.clock t).die d).ep k.val).reqs = q :: rest)
  (hc : (((s.clock t).die d).ep k.val).outs.find? (fun c => c.dst = q.src && c.channel = q.reply) = some c)
include hq hc

theorem exec_memoryReadResponse_blocked (h : c.credits = 0) : exec (.memoryReadResponse d k t) s = .next (s.clock t) := by
  show execMemoryReadResponse d k t s = _
  simp [execMemoryReadResponse, hd, hq, hc, h]

theorem exec_memoryReadResponse_answers (h : 0 < c.credits) :
    let u := s.clock t
    let w := u.hbmRead d (q.addr / 64)
    exec (.memoryReadResponse d k t) s =
      .next ((w.onDie d (·.setEp k.val (((u.die d).ep k.val).answered q rest))).inject d [(w.die d).answer k.val q c.order]) := by
  show execMemoryReadResponse d k t s = _
  simp only [execMemoryReadResponse, hq, hc]
  generalize s.clock t = u
  simp [hd, Nat.pos_iff_ne_zero.1 h, Die.answer, Endpoint.answered]

end

/-- A read whose error check finds nothing consumes the check's value and changes nothing else (R52). -/
theorem State.hbmRead_clean {s : State} {d : DieId} (hd : d.isCompute = true) {line : Nat}
    (h : Config.hbmCheck s.free line = .clean) : s.hbmRead d line = s.spend := by
  simp [State.hbmRead, hd, h, State.memError]

/-- An answer enters the mesh behind what is there, and its request waits no longer. -/
theorem State.answer_leaves (s : State) (d : DieId) (k : Nat) (e : Endpoint) (p : Packet) :
    let v := (s.spend.onDie d (·.setEp k e)).inject d [p]
    ∃ fl : InFlight, fl.packet = p ∧ (v.die d).ep k = e ∧ (v.die d).mesh = (s.die d).mesh ++ [fl] ∧
      s.otherDies v d ∧ s.memoryKept v ∧ s.onlyChanges v [.dies, .free] := by
  intro v
  obtain ⟨new, hv, hnew⟩ := State.inject_setDie s.spend d ((s.die d).setEp k e) [p]
  obtain ⟨fl, rfl, hfl⟩ := List.map_eq_singleton_iff.1 hnew
  rw [show v = _ from hv, State.setDie_die_same]
  exact ⟨fl, hfl, Die.setEp_ep_same _ _ _, rfl, State.spend_setDie_local (by simp)⟩

/-! ### INGRESS_INJECT (R68) -/

/-- A received packet at its channel's attachment router, in the channel's reserved cycles. -/
def ChanRec.entering (c : ChanRec) (k : Packet) : InFlight :=
  { packet := { k with egress := 0, order := c.order }, router := c.attach, cycles := c.cycles }

theorem exec_ingressInject_none {s : State} {p : PortId} (hp : p.die.isCompute = true) (h : (s.port p).planned.rxq = []) :
    exec (.ingressInject p) s = .next s := by
  show execIngressInject p s = _
  simp [execIngressInject, hp, h]

theorem exec_ingressInject_enters {s : State} {p : PortId} (hp : p.die.isCompute = true) {e : Ingress} {rest : List Ingress}
    {pl : Plan} {c : ChanRec} (h : (s.port p).planned.rxq = e :: rest) (hpl : s.planOn p.die = some pl)
    (hc : pl.ingressRec p e.packet = some c) :
    exec (.ingressInject p) s =
      .next ((s.onDie p.die fun x => { x with mesh := x.mesh ++ [c.entering e.packet] }).onPort p fun y =>
        { y with planned := { y.planned with rxq := rest } }) := by
  show execIngressInject p s = _
  simp only [execIngressInject, hp, h, hpl, Option.bind_some, hc]
  rfl

end Sys2Proof.Machine

open Sys2Proof Sys2Proof.Machine

/-- Settles O30: each outcome of the endpoints' commands and of INGRESS_INJECT has its lemma above, and `State.storeLine_leaves` and
`State.answer_leaves` say what a write and an answer leave. -/
theorem endpointsAndIngress : Obligations.EndpointsAndIngress := by
  unfold Obligations.EndpointsAndIngress
  refine ⟨?_, ?_⟩
  · intro s d k addr n t p hd u e
    refine ⟨fun hlast => exec_endpoint_taken hd hlast n, fun hlast hhome => ?_, fun hlast hhome => ⟨?_, fun hwf => ?_⟩,
      fun hreqs => exec_memoryReadResponse_none hd hreqs, fun q rest c hq hc => ⟨fun h => ?_, fun h => ?_⟩⟩
    · obtain ⟨hread, hwrite⟩ := exec_endpoint_misplaced hd hlast hhome (p := p) n
      have hleft : (((u.takeArrived d (· == p)).meshError d 0xE106 3 k.val).die d).ep k.val = e ∧
          u.memoryKept ((u.takeArrived d (· == p)).meshError d 0xE106 3 k.val) :=
        ⟨by rw [Die.ep_of_eps (State.meshError_die_eps ..)]; simp [e],
          State.memoryKept_trans (State.takeArrived_memoryKept u d _) (State.meshError_memoryKept _ d _ _ _)⟩
      exact ⟨⟨_, hread, hleft⟩, ⟨_, hwrite, hleft⟩⟩
    · exact ⟨_, exec_memoryReadRequest_waits hd hlast hhome n, by rw [State.setDie_die_same, Die.setEp_ep_same],
        by rw [State.setDie_die_same, Die.setEp_ep_same], State.setDie_local (Die.takeArrived_mem _ _)⟩
    · exact ⟨_, exec_memoryWrite_stores hd hlast hhome, State.storeLine_leaves hwf ..⟩
    · exact exec_memoryReadResponse_blocked hd hq hc h
    · refine ⟨_, exec_memoryReadResponse_answers hd hq hc h, fun hclean => ?_⟩
      have hread : (s.clock t).hbmRead d (q.addr / 64) = (s.clock t).spend := State.hbmRead_clean hd hclean
      simp only [hread, State.spend_die]
      obtain ⟨fl, hfl, hep, hmesh, hlocal⟩ := State.answer_leaves u d k.val (e.answered q rest) ((u.die d).answer k.val q c.order)
      refine ⟨fl, congrArg Endpoint.reqs hep, hmesh, ?_⟩
      rw [hfl]
      exact ⟨rfl, rfl, rfl, rfl, rfl, rfl, hlocal⟩
  · intro s p hp
    refine ⟨exec_ingressInject_none hp, fun e rest pl c h hpl hc => ⟨_, c.entering e.packet, exec_ingressInject_enters hp h hpl hc, ?_⟩⟩
    obtain ⟨hdies, hports, honly⟩ := State.setDie_setPort_local s p.die _ p _
    exact ⟨by simp, by simp, rfl, rfl, rfl, rfl, hdies, hports,
      State.memoryKept_of_mem (State.setDie_die_keeps Die.mem rfl), honly⟩
end

section
/-! PROOF. Markers, configuration and the change of a tile (O31): one lemma for each thing the four commands can do. -/

namespace Sys2Proof.Machine

/-! ### A packet for a tile's drain or configuration (R75, R233-R236) -/

/-- A tile that has counted a marker, once, on an input channel that is no back channel (R75, R233). -/
def Tile.countMarker (x : Tile) (channel : Nat) : Tile :=
  if x.ins.any (fun c => c.channel = channel && !c.back) && !x.markers.contains channel then
    { x with markers := x.markers ++ [channel] } else x

/-- A tile that has got a configuration packet: a poisoned one spoils the switch, one without room waits (R235, R236). -/
def Tile.configure (x : Tile) (p : Packet) : Tile :=
  let x := if p.poison then { x with cfgPoisoned := true } else x
  if x.cfg.length < 64 ∨ x.empty then { x with cfg := x.cfg ++ [p] } else { x with cfgWaiting := x.cfgWaiting ++ [p] }

theorem Tile.countMarker_markers (x : Tile) (channel : Nat) :
    (x.countMarker channel).markers =
      if x.ins.any (fun c => c.channel = channel && !c.back) && !x.markers.contains channel then x.markers ++ [channel]
      else x.markers := by
  unfold Tile.countMarker
  split <;> rfl

theorem Tile.countMarker_queue (x : Tile) (channel : Nat) : (x.countMarker channel).queue = x.queue := by
  unfold Tile.countMarker
  split <;> rfl

/-- Poison in the configuration changes nothing of what the buffer's room depends on. -/
theorem Tile.configure_eq (x : Tile) (p : Packet) :
    x.configure p = if x.cfg.length < 64 ∨ x.empty = true then
        { x with cfgPoisoned := x.cfgPoisoned || p.poison, cfg := x.cfg ++ [p] }
      else { x with cfgPoisoned := x.cfgPoisoned || p.poison, cfgWaiting := x.cfgWaiting ++ [p] } := by
  cases hp : p.poison <;> simp [Tile.configure, hp, Tile.empty]

/-- A packet that has come to a tile changes that tile, and takes itself out of the mesh. -/
theorem State.takeArrived_onTile_leaves (s : State) (d : DieId) (n : Nat) (g : Packet → Bool) (f : Tile → Tile) :
    let v := (s.takeArrived d g).onTile d n f
    (v.die d).tile n = f ((s.die d).tile n) ∧ s.otherDies v d ∧ s.memoryKept v ∧ s.onlyChanges v [.dies] := by
  simp only [State.takeArrived_eq, State.onTile_eq, State.setDie_setDie, State.setDie_die_same]
  exact ⟨by simp, State.setDie_local (by simp)⟩

section
variable {s : State} {d : DieId} {tile : Fin 1024} (hd : d.isCompute = true) (hf : (s.fieldOf d).isSome = true)
include hd hf

theorem exec_drainMarkerArrival_counts (ch : Nat) :
    exec (.drainMarkerArrival d tile ch) s =
      .next ((s.takeArrived d fun p => p.kind = 2 && p.dest = tile.val && p.channel = ch).onTile d tile.val (·.countMarker ch)) := by
  show execDrainMarkerArrival d tile ch s = _
  have hn : s.fieldOf d ≠ none := Option.isSome_iff_ne_none.1 hf
  simp [execDrainMarkerArrival, hd, State.localLevee, hn, Tile.countMarker]

theorem exec_configPacketArrival_configures (p : Packet) :
    exec (.configPacketArrival d tile p) s = .next ((s.takeArrived d (· == p)).onTile d tile.val (·.configure p)) := by
  show execConfigPacketArrival d tile p s = _
  have hn : s.fieldOf d ≠ none := Option.isSome_iff_ne_none.1 hf
  simp [execConfigPacketArrival, hd, State.localLevee, hn, Tile.configure]

end

/-! ### TILE_DRAINED (R75, R233) -/

section
variable {s : State} {d : DieId} {tile : Fin 1024} (hd : d.isCompute = true)
include hd

theorem exec_tileDrained_forwards {f : Fin 8} (hf : s.fieldOf d = some f) (hw : (s.field f).waving = true)
    (hm : ((s.die d).tile tile.val).marked = true) (he : ((s.die d).tile tile.val).empty = true)
    (hs : ((s.die d).tile tile.val).markersSent = false) :
    exec (.tileDrained d tile) s =
      .next ((s.onTile d tile.val fun x => { x with drained := true, markersSent := true }).inject d
        (((s.die d).tile tile.val).outs.map fun c => c.marker tile.val)) := by
  show execTileDrained d tile s = _
  simp [execTileDrained, hd, hf, hw, hm, he, hs]

theorem exec_tileDrained_waits (h : ((s.die d).tile tile.val).markersSent = true ∨ ((s.die d).tile tile.val).marked = false ∨
    ((s.die d).tile tile.val).empty = false) : exec (.tileDrained d tile) s = .next s := by
  show execTileDrained d tile s = _
  rcases h with h | h | h <;> simp [execTileDrained, hd, h]

end

/-- A tile that forwards its markers, one for each output channel, KIND 2, notes it, and nothing else of it changes. -/
theorem State.forwardMarkers_leaves (s : State) (d : DieId) (n : Nat) :
    let x := (s.die d).tile n
    let v := (s.onTile d n fun x => { x with drained := true, markersSent := true }).inject d (x.outs.map (·.marker n))
    ∃ new, ((v.die d).tile n) = { x with drained := true, markersSent := true } ∧ (v.die d).mesh = (s.die d).mesh ++ new ∧
      new.length = x.outs.length ∧ (∀ m ∈ new, m.packet.kind = 2 ∧ m.packet.src = n) ∧
      s.otherDies v d ∧ s.memoryKept v ∧ s.onlyChanges v [.dies] := by
  intro x v
  obtain ⟨new, hv, hnew⟩ := State.inject_setDie s d
    ((s.die d).setTile n { x with drained := true, markersSent := true }) (x.outs.map (·.marker n))
  rw [show v = _ from hv, State.setDie_die_same]
  refine ⟨new, Die.setTile_tile_same .., rfl, by simpa using congrArg List.length hnew, fun m hm => ?_, State.setDie_local (by simp)⟩
  have hmarker : m.packet ∈ x.outs.map (·.marker n) := hnew ▸ List.mem_map_of_mem hm
  obtain ⟨c, -, hc⟩ := List.mem_map.1 hmarker
  rw [← hc]
  exact ⟨rfl, rfl⟩

/-! ### TILE_SWITCH (R235) -/

theorem exec_tileSwitch_switches {s : State} {d : DieId} {tile : Fin 1024} (hd : d.isCompute = true) {f : Fin 8} {w : Switch}
    {p : Plan} {b : Block} (hf : s.fieldOf d = some f) (hw : (s.field f).switch = some w) (hi : (s.field f).incoming = some p)
    (hb : p.blockOf d = some b) (ht : b.tiles.any (·.tile = tile.val) = true)
    (hwhole : s.cfgCount (s.field f) p b tile.val ≤
      ((s.die d).tile tile.val).cfg.length + ((s.die d).tile tile.val).cfgWaiting.length)
    (he : ((s.die d).tile tile.val).empty = true)
    (hdr : w.form = .tailwater → ((s.die d).tile tile.val).configured = true → ((s.die d).tile tile.val).drained = true)
    (hs : ((s.die d).tile tile.val).switched = false) :
    exec (.tileSwitch d tile) s = .next (s.onTile d tile.val fun y => y.switchTo p d tile.val) := by
  show execTileSwitch d tile s = _
  have hdone : (((s.die d).tile tile.val).empty && (w.form ≠ .tailwater || ((s.die d).tile tile.val).drained ||
      !((s.die d).tile tile.val).configured)) = true := by
    by_cases hform : w.form = .tailwater
    · cases hc : ((s.die d).tile tile.val).configured
      · simp [he]
      · simp [he, hdr hform hc]
    · simp [he, hform]
  simp only [execTileSwitch, hd, hf, hw, hi, hb, Option.bind_some, Option.map_some, hdone, ht, hs]
  simp [hwhole]

/-- Under a new plan every output channel has its bound as credit (R59). -/
theorem Plan.outsOf_credits (p : Plan) (d : DieId) (src : Nat) : ∀ c ∈ p.outsOf d src, c.credits = c.bound := by
  unfold Plan.outsOf
  split
  · intro c hc
    obtain ⟨r, -, rfl⟩ := List.mem_map.1 hc
    rfl
  · simp

end Sys2Proof.Machine

open Sys2Proof Sys2Proof.Machine

/-- Settles O31: each outcome of the four commands has its lemma above; `State.takeArrived_onTile_leaves` and
`State.forwardMarkers_leaves` say what they leave. -/
theorem drainMarkersAndConfiguration : Obligations.DrainMarkersAndConfiguration := by
  unfold Obligations.DrainMarkersAndConfiguration
  intro s d tile hd x
  refine ⟨fun ch hf => ?_, fun f hf hw hm he hs => ?_, exec_tileDrained_waits hd, fun p hf => ?_,
    fun f w p b hf hw hi hb ht hwhole he hdr hs => ?_⟩
  · obtain ⟨htile, hlocal⟩ := State.takeArrived_onTile_leaves s d tile.val
      (fun p => p.kind = 2 && p.dest = tile.val && p.channel = ch) (·.countMarker ch)
    exact ⟨_, exec_drainMarkerArrival_counts hd hf ch, by rw [htile]; exact x.countMarker_markers ch,
      by rw [htile]; exact x.countMarker_queue ch, hlocal⟩
  · obtain ⟨new, htile, hrest⟩ := State.forwardMarkers_leaves s d tile.val
    exact ⟨_, new, exec_tileDrained_forwards hd hf hw hm he hs, congrArg Tile.drained htile, congrArg Tile.markersSent htile, hrest⟩
  · obtain ⟨htile, hdies, hmem, honly⟩ := State.takeArrived_onTile_leaves s d tile.val (· == p) (·.configure p)
    refine ⟨_, exec_configPacketArrival_configures hd hf p, hdies, hmem, honly, ?_⟩
    rw [htile, Tile.configure_eq]
    by_cases h : x.cfg.length < 64 ∨ x.empty = true
    · rw [if_pos h]
      exact ⟨rfl, fun _ => ⟨rfl, rfl⟩, fun hfull he => absurd h (by simp [he, hfull])⟩
    · rw [if_neg h]
      exact ⟨rfl, fun hroom => absurd hroom h, fun _ _ => ⟨rfl, rfl⟩⟩
  · refine ⟨_, exec_tileSwitch_switches hd hf hw hi hb ht hwhole he hdr hs, ?_⟩
    have htile : ((s.onTile d tile.val fun y => y.switchTo p d tile.val).die d).tile tile.val = x.switchTo p d tile.val := by simp [x]
    rw [htile]
    exact ⟨rfl, rfl, rfl, rfl, rfl, Plan.outsOf_credits p d tile.val, rfl, rfl, rfl, rfl, rfl, rfl, rfl,
      State.setDie_local (by rfl)⟩
end

section
/-! PROOF. Marks, slew steps and silence (O32): what a change of one tally leaves, what the checks of a good mark leave of the tray, then
one lemma for each thing the four commands can do. -/

namespace Sys2Proof.Machine

/-! ### What a change of one tally leaves (R80) -/

@[simp] theorem State.onTally_eq (s : State) (d : DieId) (g : Tally → Tally) :
    s.onTally d g = s.setDie d { s.die d with tally := g (s.die d).tally } := rfl

@[simp] theorem State.putCleaner_die (s : State) (x : Cleaner) (k : DieId) : (s.putCleaner x).die k = s.die k := rfl
@[simp] theorem State.setCleaner_die (s : State) (k : DieId) : s.setCleaner.die k = s.die k :=
  State.die_of_dies ((State.setCleaner_only s).agrees .dies (by decide)) k

theorem State.onTally_leaves (s : State) (d : DieId) (g : Tally → Tally) :
    ((s.onTally d g).die d).tally = g (s.die d).tally ∧ s.otherDies (s.onTally d g) d ∧ s.memoryKept (s.onTally d g) ∧
      s.onlyChanges (s.onTally d g) [.dies] :=
  ⟨by simp, State.setDie_local (by rfl)⟩

/-! ### TALLY_MARK_SEND (R81) -/

section
variable {s u : State} {p : PortId} {t : Nat} (hu : s.clock t = u)
include hu

theorem exec_tallyMark_ignored (h : (u.port p).link.st ≠ .up ∨ u.dieUp p.die = false) (m : Mark) (frac : Fin 128) :
    exec (.tallyMark p m frac t) s = .next u := by
  show execTallyMark p m frac t s = _
  subst hu
  exact if_pos (by simpa using h)

theorem exec_tallyMarkSend_ignored (h : (u.port p).link.st ≠ .up ∨ u.dieUp p.die = false) :
    exec (.tallyMarkSend p t) s = .next u := by
  show execTallyMarkSend p t s = _
  subst hu
  exact if_pos (by simpa using h)

theorem exec_tallyMarkSend_sends (hup : (u.port p).link.st = .up) (hd : u.dieUp p.die = true) :
    exec (.tallyMarkSend p t) s = .next ((u.sendLc p { type := 0x01, body := markBytes (u.markOf p) }).onPort p fun y =>
        { y with pin := { y.pin with lastSent := u.now } }) := by
  show execTallyMarkSend p t s = _
  simp only [execTallyMarkSend, hu]
  rw [if_neg (by simp [hd, hup])]

end

/-- A sent mark stands behind what the port had to send. -/
theorem State.sendMark_leaves (s : State) (p : PortId) (body : List Byte) :
    let v := (s.sendLc p { type := 0x01, body := body }).onPort p fun y => { y with pin := { y.pin with lastSent := s.now } }
    (v.port p).pin.lastSent = s.now ∧ (v.port p).side.lc = (s.port p).side.lc ++ [{ type := 0x01, body := body }] ∧
      s.otherPorts v p ∧ s.onlyChanges v [.links] := by
  refine ⟨by simp, by simp [State.sendLc], fun q hq => ?_, ?_⟩
  · simp [State.sendLc, State.setPort_port_other _ _ _ _ hq.symm]
  · exact only_step (State.onPort_only ..) (by decide) (State.sendLc_only ..)

/-! ### A mark's error, and what its checks leave (R82, R86, R90, R102) -/

/-- The mark error: the delivery on the receiver's tally less the mark's arrival as its sender pinned it (R82). -/
def State.markErr (s : State) (p : PortId) (m : Mark) (frac : Fin 128) : Int :=
  (((s.die p.die).tally.value.toNat : Int) * 128 + frac.val) - ((m.tally.toNat : Int) + (s.port p).link.pinned) * 128

/-- A tally that has seen a mark: it notes the newest EPOCH (R83). -/
def Tally.hear (y : Tally) (q : Fin 5) (x : Seen) : Tally :=
  { y with seen := NMap.set y.seen q.val x, epoch := if y.epoch.toNat < x.mark.epoch.toNat then x.mark.epoch else y.epoch }

/-- Two states that differ in what their ports know of pinning alone, and where no further link is PIN_LOST. -/
def State.samePins (s t : State) : Prop :=
  s.onlyChanges t [.links] ∧ (∀ q, (t.port q).link = (s.port q).link) ∧
    ∀ q, (s.port q).pin.lost = false → (t.port q).pin.lost = false

/-- A change of one port's pinning that does not mark it. -/
theorem State.samePins_setPort {s u : State} (h : s.samePins u) (q : PortId) {pin : Pin}
    (hl : (u.port q).pin.lost = false → pin.lost = false) : s.samePins (u.setPort q { u.port q with pin := pin }) := by
  obtain ⟨honly, hlink, hlost⟩ := h
  refine ⟨only_step (State.setPort_only u q _) (by decide) honly, fun k => ?_, fun k hk => ?_⟩
  · by_cases hq : q = k
    · subst hq; rw [State.setPort_port_same, hlink]
    · rw [State.setPort_port_other _ _ _ _ hq, hlink]
  · by_cases hq : q = k
    · subst hq; rw [State.setPort_port_same]; exact hl (hlost q hk)
    · rw [State.setPort_port_other _ _ _ _ hq]; exact hlost k hk

/-- A mark with the link's own PINNED and an error of at most 2 ticks marks nothing PIN_LOST (R86, R90). -/
theorem State.checkPin_good {s : State} {p : PortId} {m : Mark} {e : Int} (hp : m.pinned = (s.port p).link.pinned)
    (he : e.natAbs ≤ 256) : s.samePins (s.checkPin p m e) := by
  have h0 : s.samePins s := ⟨only_refl s _, fun _ => rfl, fun _ h => h⟩
  unfold State.checkPin
  extract_lets y isParent unequal far pinStrikes errStrikes good pin noted ends mine
  have hnoted : s.samePins noted := State.samePins_setPort h0 p id
  have hpin : pinStrikes = 0 := if_neg (not_not_intro hp)
  have hfar : far = false := by
    simp only [far, decide_eq_false (Nat.not_lt.2 he), Bool.false_and]
  have herr : errStrikes = 0 := if_neg (by simp [hfar])
  rw [if_neg (by omega)]
  split
  · refine State.forEach_inv _ _ _ s.samePins hnoted fun u q _ hu => State.samePins_setPort hu q ?_
    exact fun _ => rfl
  · exact hnoted

/-! ### The parent stays (R83-R85) -/

theorem NMap.mem_of_get_some {ν : Type} {l : NMap ν} {k : Nat} {x : ν} (h : NMap.get (l.map fun e => (e.1, some e.2)) k none = some x) :
    (k, x) ∈ l := by
  rcases NMap.get_cases (l.map fun e => (e.1, some e.2)) k none with h0 | hm
  · rw [h0] at h; cases h
  · rw [h] at hm
    obtain ⟨⟨k', y⟩, hy, he⟩ := List.mem_map.1 hm
    simp only [Prod.mk.injEq, Option.some.injEq] at he
    obtain ⟨rfl, rfl⟩ := he
    exact hy

/-- The best neighbour is one whose mark has been seen and passes the test (R83). -/
theorem State.bestParent_spec {s : State} {d : DieId} {limit : Nat} {b : Fin 5 × Seen} (h : s.bestParent d limit = some b) :
    (b.1.val, b.2) ∈ (s.die d).tally.seen ∧ s.markGood d b.1 b.2 = true := by
  refine List.foldlRecOn (parentOrder d) _ (motive := fun best : Option (Fin 5 × Seen) => ∀ b, best = some b →
    (b.1.val, b.2) ∈ (s.die d).tally.seen ∧ s.markGood d b.1 b.2 = true) (fun b hb => by cases hb) ?_ b h
  intro best ih q _ b hb
  split at hb
  next x hx =>
    have hnew : (q.val, x) ∈ (s.die d).tally.seen := NMap.mem_of_get_some hx
    split at hb
    next hgood =>
      split at hb
      · split at hb
        · cases hb; exact ⟨hnew, hgood.1⟩
        · exact ih b hb
      · cases hb; exact ⟨hnew, hgood.1⟩
    · exact ih b hb
  · exact ih b hb

/-- A tally that follows a parent by a mark within the limits of R85. -/
def Tally.follow (y : Tally) (q : Fin 5) (x : Seen) : Tally :=
  { y with parent := some q, depth := x.mark.depth + 1, err := x.err, rootOfs := x.err + x.mark.rootOfs, lastMark := x.when_,
           strikes := 0, epoch := x.mark.epoch, leader := x.mark.leader, st := .agreed, wasAgreed := true, deeperOk := false,
           vacantSince := none }

/-- A parent within the limits keeps an AGREED die AGREED, without a step of its tally (R84, R85). -/
theorem State.takeParent_within {s : State} {d : DieId} {q : Fin 5} {x : Seen} (hst : (s.die d).tally.st = .agreed)
    (hdepth : x.mark.depth < 20) (he : x.err.natAbs ≤ 256) (ho : (x.err + x.mark.rootOfs).natAbs ≤ 96) :
    s.takeParent d q x = s.onTally d fun y => y.follow q x := by
  have h1 : ¬ 20 < x.mark.depth + 1 := by omega
  have h2 : ¬ (256 < x.err.natAbs ∨ 108 < (x.err + x.mark.rootOfs).natAbs) := by omega
  have h3 : ¬ 96 < (x.err + x.mark.rootOfs).natAbs := by omega
  simp [State.takeParent, hst, h1, h2, h3, ho, Tally.agree, Tally.follow]

/-- The Watermaster follows the tally path on a tray that does not lead (R77). -/
def State.followPath (s : State) : State := if s.leader.lead then s else s.setCleaner

theorem State.followPath_only (s : State) : s.onlyChanges s.followPath [.cleaner] :=
  only_ite (only_refl s _) (State.setCleaner_only s)

/-! ### TALLY_MARK from the parent (R82-R85) -/

section
variable {u w : State} {p : PortId} {x : Seen} (h : (u.onTally p.die fun y => y.hear p.port x).samePins w)
include h

theorem State.samePins_tally : (w.die p.die).tally = (u.die p.die).tally.hear p.port x := by
  obtain ⟨honly, -, -⟩ := h
  rw [State.die_of_dies (honly.agrees .dies (by decide))]
  simp

/-- A mark just heard on a link of the span in UP, AGREED and no older than the die's EPOCH, passes the test of R83. -/
theorem State.samePins_markGood (hup : (u.port p).link.st = .up) (hforeign : (u.port p).link.foreign = false)
    (hlost : (u.port p).pin.lost = false) (hm : x.mark.state = 1)
    (hepoch : (u.die p.die).tally.epoch.toNat ≤ x.mark.epoch.toNat) (hnow : x.when_ = u.now) :
    w.markGood p.die p.port x = true := by
  have htally := State.samePins_tally h
  obtain ⟨honly, hlink, hstays⟩ := h
  have hw : w.now = u.now := honly.agrees .now (by decide)
  have hheard : ((u.die p.die).tally.hear p.port x).epoch.toNat ≤ x.mark.epoch.toNat := by
    simp only [Tally.hear]
    split
    · exact Nat.le_refl _
    · exact hepoch
  simpa [State.markGood, htally, hlink, hforeign, hup, hstays p hlost, hw, hm, hnow, silence] using hheard

/-- Where no mark seen is two levels shallower than the parent's, no candidate is (R83). -/
theorem State.samePins_bestParent (hseen : ∀ z ∈ (u.die p.die).tally.seen, x.mark.depth < z.2.mark.depth + 2) {limit : Nat}
    {b : Fin 5 × Seen} (hb : w.bestParent p.die limit = some b) : ¬ b.2.mark.depth + 2 ≤ x.mark.depth := by
  obtain ⟨hmem, -⟩ := State.bestParent_spec hb
  rw [State.samePins_tally h] at hmem
  rcases NMap.mem_set hmem with hx | hold
  · obtain ⟨-, rfl⟩ := Prod.mk.inj hx
    omega
  · exact Nat.not_le.2 (hseen _ hold)

end

/-- A mark from the parent that passes every test: its checks, then the die follows it. -/
theorem exec_tallyMark_follows {s u : State} {p : PortId} {t : Nat} {m : Mark} {frac : Fin 128} (hu : s.clock t = u)
    (hup : (u.port p).link.st = .up) (hd : u.dieUp p.die = true) (hst : (u.die p.die).tally.st = .agreed)
    (hparent : (u.die p.die).tally.parent = some p.port) (hroot : u.isRoot p.die = false)
    (hforeign : (u.port p).link.foreign = false) (hlost : (u.port p).pin.lost = false)
    (hpinned : m.pinned = (u.port p).link.pinned) (hm : m.state = 1)
    (hepoch : (u.die p.die).tally.epoch.toNat ≤ m.epoch.toNat) (hdepth : m.depth < 20)
    (hseen : ∀ z ∈ (u.die p.die).tally.seen, m.depth < z.2.mark.depth + 2)
    (he : (u.markErr p m frac).natAbs ≤ 256) (ho : (u.markErr p m frac + m.rootOfs).natAbs ≤ 96) :
    let x : Seen := { mark := m, err := u.markErr p m frac, when_ := u.now }
    exec (.tallyMark p m frac t) s =
      .next ((((u.onTally p.die fun y => y.hear p.port x).checkPin p m x.err).onTally p.die fun y => y.follow p.port x).followPath) := by
  intro x
  show execTallyMark p m frac t s = _
  have hrival : u.rivalMark p m = false := by simp [State.rivalMark, hparent]
  generalize hw : (u.onTally p.die fun y => y.hear p.port x).checkPin p m x.err = w
  have hpins : (u.onTally p.die fun y => y.hear p.port x).samePins w := hw ▸ State.checkPin_good hpinned he
  have htally := State.samePins_tally hpins
  have hgood := State.samePins_markGood hpins hup hforeign hlost hm hepoch rfl
  have hfollow : w.takeParent p.die p.port x = w.onTally p.die fun y => y.follow p.port x :=
    State.takeParent_within (by rw [htally]; exact hst) hdepth he ho
  have hother : ¬ (w.isRoot p.die = true ∨ (u.port p).link.foreign = true) := by
    obtain ⟨honly, -, -⟩ := hpins
    have hl : w.leader = u.leader := honly.agrees .leader (by decide)
    rw [State.isRoot, hl, ← State.isRoot, hroot, hforeign]
    simp
  unfold execTallyMark
  rw [hu]
  extract_lets v d y e seen foreign rival kept heard checked y' claimed followed
  have hrival' : rival = false := by simp only [rival, v, hrival, Bool.and_false]
  have hchecked : checked = w := by
    simp only [checked, heard, kept, hrival', foreign, v, hforeign, Bool.false_eq_true, if_false]
    exact hw
  have hclaimed : claimed = w := by
    simp only [claimed, y', hchecked, d]
    exact if_neg (by simp [htally, Tally.hear, hst])
  have hfollowed : followed = w.onTally p.die fun y => y.follow p.port x := by
    have hx : seen = x := rfl
    simp only [followed, y', d, hclaimed, hchecked, hx]
    rw [if_pos (by rw [htally]; exact hparent), if_pos hgood, ← hfollow]
    split
    next b hb => exact if_neg (State.samePins_bestParent hpins hseen hb)
    next => rfl
  rw [if_neg (by simp [v, d, hd, hup]), if_neg (by simp [hrival']), hchecked, if_neg hother, hfollowed]
  exact (apply_ite Host.Outcome.next _ _ _).symm

/-- A mark that is heard, checked and followed changes one die's tally, and no memory. -/
theorem State.followed_leaves {s w : State} {d : DieId} {f : Tally → Tally} (h : (s.onTally d f).samePins w) (g : Tally → Tally) :
    let v := (w.onTally d g).followPath
    (v.die d).tally = g (f (s.die d).tally) ∧ s.otherDies v d ∧ s.memoryKept v := by
  intro v
  obtain ⟨honly, -, -⟩ := h
  have hw : ∀ k, w.die k = (s.onTally d f).die k := State.die_of_dies (honly.agrees .dies (by decide))
  have hv : ∀ k, v.die k = (w.onTally d g).die k := State.die_of_dies ((State.followPath_only _).agrees .dies (by decide))
  obtain ⟨hheard, hdies, hmem, -⟩ := State.onTally_leaves s d f
  obtain ⟨htally, hdies', hmem', -⟩ := State.onTally_leaves w d g
  exact ⟨by rw [hv, htally, hw, hheard], fun k hk => by rw [hv, hdies' k hk, hw, hdies k hk],
    fun k a => by rw [hv, hmem', hw, hmem]⟩

/-! ### HOLDOVER (R101) -/

/-- A tally that has entered HOLDOVER keeps its count and its DEPTH. -/
def Tally.hold (y : Tally) (now : Nat) : Tally :=
  { y with st := .holdover, parent := none, holdSince := now, deeperOk := false, vacantSince := none, strikes := 0 }

theorem State.enterHoldover_eq (s : State) (d : DieId) : s.enterHoldover d = s.onTally d (·.hold s.now) := rfl

/-! ### SLEW_STEP (R84) -/

/-- One slew step of 1/128 tick against the error. -/
def Tally.slew (y : Tally) (now : Nat) : Tally :=
  let one : Int := if 0 < y.err then 1 else -1
  { y with phase := y.phase - one, err := y.err - one, rootOfs := y.rootOfs - one, lastSlew := now }

theorem Tally.slew_pos {y : Tally} (h : 0 < y.err) (now : Nat) :
    (y.slew now).phase = y.phase - 1 ∧ (y.slew now).err = y.err - 1 := by
  simp [Tally.slew, h]

theorem Tally.slew_neg {y : Tally} (h : y.err < 0) (now : Nat) :
    (y.slew now).phase = y.phase + 1 ∧ (y.slew now).err = y.err + 1 := by
  simp [Tally.slew, Int.not_lt.2 (Int.le_of_lt h)]

section
variable {s u : State} {d : DieId} {t : Nat} (hu : s.clock t = u)
include hu

theorem exec_slewStep_rests (h : (u.die d).tally.err.natAbs ≤ 1 ∨ (u.die d).tally.parent = none ∨
      u.now < (u.die d).tally.lastSlew + 512 ∨ (u.die d).tally.counting = false) :
    exec (.slewStep d t) s = .next u := by
  show execSlewStep d t s = _
  subst hu
  exact if_pos (by simpa using h)

theorem exec_slewStep_slews (he : 1 < (u.die d).tally.err.natAbs) (hp : (u.die d).tally.parent ≠ none)
    (hl : (u.die d).tally.lastSlew + 512 ≤ u.now) (hc : (u.die d).tally.counting = true) :
    exec (.slewStep d t) s = .next (u.onTally d (·.slew u.now)) := by
  show execSlewStep d t s = _
  simp only [execSlewStep, hu]
  rw [if_neg (by simp [hp, hc]; omega)]
  rfl

/-! ### PARENT_SILENCE (R83, R101) -/

theorem exec_parentSilence_waits (h : u.now < (u.die d).tally.lastMark + 8192) : exec (.parentSilence d t) s = .next u := by
  show execParentSilence d t s = _
  subst hu
  exact if_neg fun hs => by
    obtain ⟨-, -, hlast, -⟩ := hs
    exact absurd hlast (Nat.not_le.2 h)

theorem exec_parentSilence_holds (hst : (u.die d).tally.st = .agreed) (hp : (u.die d).tally.parent ≠ none)
    (hroot : u.isRoot d = false) (h : (u.die d).tally.lastMark + 8192 ≤ u.now) :
    exec (.parentSilence d t) s = .next (u.enterHoldover d) := by
  show execParentSilence d t s = _
  subst hu
  exact if_pos ⟨hst, Option.isSome_iff_ne_none.2 hp, h, by simp [hroot]⟩

end

end Sys2Proof.Machine

open Sys2Proof Sys2Proof.Machine

/-- Settles O32: each outcome of the four commands has its lemma above; `State.onTally_leaves` says what a change of one tally leaves, and
`State.checkPin_good` what the checks of a mark leave. -/
theorem marksSlewsAndSilence : Obligations.MarksSlewsAndSilence := by
  unfold Obligations.MarksSlewsAndSilence
  intro s p t u d y
  refine ⟨fun h => ⟨exec_tallyMarkSend_ignored rfl h, exec_tallyMark_ignored rfl h⟩,
    fun hup hd => ⟨?_, fun m frac => ?_⟩,
    exec_slewStep_rests rfl, fun he hp hl hc => ?_, fun hst hp hroot => ⟨exec_parentSilence_waits rfl, fun h => ?_⟩⟩
  · exact ⟨_, exec_tallyMarkSend_sends rfl hup hd, State.sendMark_leaves u p _⟩
  · intro e hst hparent hroot hforeign hlost hpinned hm hepoch hdepth hseen he ho
    refine ⟨_, exec_tallyMark_follows rfl hup hd hst hparent hroot hforeign hlost hpinned hm hepoch hdepth hseen he ho, ?_⟩
    obtain ⟨htally, hdies, hmem⟩ := State.followed_leaves (s := u) (d := d) (f := fun y => y.hear p.port ⟨m, e, u.now⟩)
      (State.checkPin_good hpinned he) fun y => y.follow p.port ⟨m, e, u.now⟩
    intro z
    have hz : z = (y.hear p.port ⟨m, e, u.now⟩).follow p.port ⟨m, e, u.now⟩ := htally
    rw [hz]
    exact ⟨rfl, rfl, rfl, rfl, rfl, rfl, rfl, rfl, rfl, rfl, hdies, hmem⟩
  · obtain ⟨htally, hdies, -, honly⟩ := State.onTally_leaves u d (·.slew u.now)
    refine ⟨_, exec_slewStep_slews rfl he hp hl hc, ?_⟩
    rw [htally]
    exact ⟨fun h => Tally.slew_pos h u.now, fun h => Tally.slew_neg h u.now, rfl, rfl, rfl, hdies, honly⟩
  · obtain ⟨htally, hdies, -, honly⟩ := State.onTally_leaves u d (·.hold u.now)
    refine ⟨_, exec_parentSilence_holds rfl hst hp hroot h, ?_⟩
    rw [State.enterHoldover_eq, htally]
    exact ⟨rfl, rfl, rfl, rfl, rfl, rfl, hdies, honly⟩
end

section
/-! PROOF. Field-wide changes (O27): one lemma for each thing the commands of a change can do, and what a boundary at which a change applies
leaves of the rung and of memory. -/

namespace Sys2Proof.Machine

/-! ### A change is named (R95) -/

/-- The change the lead die names. -/
def State.named (s : State) (f : Fin 8) (k : ChangeKind) : Change :=
  { kind := k, boundary := s.leadTally f + leadTime + Config.leadExtra s.free }

theorem State.named_boundary (s : State) (f : Fin 8) (k : ChangeKind) : s.leadTally f + 100000 ≤ (s.named f k).boundary :=
  Nat.le_add_right _ _

/-- Naming a change changes its field's change alone. -/
theorem State.nameChange_leaves (s : State) (f : Fin 8) (k : ChangeKind) :
    (s.nameChange f k).field f = { s.field f with change := some (s.named f k) } ∧ s.otherFields (s.nameChange f k) f ∧
      s.onlyChanges (s.nameChange f k) [.free, .fields] :=
  ⟨State.setField_field_same .., fun g hg => State.setField_field_other s f g _ hg.symm, State.nameChange_only s f k⟩

/-! ### STEWARD_LIMIT (R296, R300) -/

section
variable {s u : State} {f : Fin 8} {t : Nat} (hu : s.clock t = u)
include hu

theorem exec_stewardLimit_names (hl : (u.field f).live = true) (hf : (u.field f).frozen = false) (hc : (u.field f).change = none)
    (hr : u.wantedRung f ≠ (u.field f).rung) :
    exec (.stewardLimit f t) s = .next (u.nameChange f (.rung (u.wantedRung f))) := by
  show execStewardLimit f t s = _
  simp [execStewardLimit, hu, State.reviewLimits, hl, hf, hc, hr]

theorem exec_stewardLimit_rests (hr : u.wantedRung f = (u.field f).rung) (hd : u.wantedDuty f = (u.field f).duty)
    (hc : (u.field f).change = none) : exec (.stewardLimit f t) s = .next u := by
  show execStewardLimit f t s = _
  simp [execStewardLimit, hu, State.reviewLimits, hr, hd, hc]

/-! ### The dies are told and confirm (R95, R299) -/

variable {c : Change} (hc : (u.field f).change = some c)
include hc

/-- A die is told of a change that asks no higher voltage of it. -/
theorem exec_fieldChangeNotice_tells {d : DieId} (hd : (u.field f).dies.contains d = true) (hn : c.noticed.contains d = false)
    (hk : ∀ r, c.kind = .rung r → r ≤ (u.field f).rung) :
    exec (.fieldChangeNotice f d t) s =
      .next (u.onField f fun x => { x with change := some { c with noticed := c.noticed ++ [d] } }) := by
  show execFieldChangeNotice f d t s = _
  simp only [execFieldChangeNotice, hu, hc]
  rw [if_neg (by simpa using ⟨by simpa using hd, by simpa using hn⟩)]
  split
  next r hr => exact if_neg (Nat.not_lt.2 (hk r hr))
  next => rfl

theorem exec_fieldChangeConfirm_confirms {d : DieId} (hn : c.noticed.contains d = true) (hd : c.confirmed.contains d = false)
    (hcom : c.committed = false) (hb : u.leadTally f + 20000 ≤ c.boundary) (hk : u.canConfirm f d c.kind = true) :
    exec (.fieldChangeConfirm f d t) s =
      .next (u.onField f fun x => { x with change := some { c with confirmed := c.confirmed ++ [d] } }) := by
  show execFieldChangeConfirm f d t s = _
  simp only [execFieldChangeConfirm, hu, hc]
  exact if_pos ⟨hn, by simpa using hd, by simp [hcom], hb, hk⟩

theorem exec_fieldChangeConfirm_ignored {d : DieId}
    (h : c.noticed.contains d = false ∨ u.canConfirm f d c.kind = false ∨ c.boundary < u.leadTally f + 20000) :
    exec (.fieldChangeConfirm f d t) s = .next u := by
  show execFieldChangeConfirm f d t s = _
  simp only [execFieldChangeConfirm, hu, hc]
  refine if_neg fun hall => ?_
  obtain ⟨hn, -, -, hb, hk⟩ := hall
  rcases h with h | h | h
  · exact absurd hn (by rw [h]; decide)
  · exact absurd hk (by rw [h]; decide)
  · exact absurd hb (Nat.not_le.2 h)

/-! ### The lead commits, and every die takes the commit (R95) -/

/-- From 20 us before the boundary the lead die decides on a change: what every die confirmed in time it commits. -/
theorem exec_commitDeadline_due (hcom : c.committed = false) (hb : c.boundary ≤ u.leadTally f + 20000) :
    exec (.commitDeadline f t) s = .next
      (if (u.field f).dies.all c.confirmed.contains = true ∧ u.leadTally f < c.boundary then
        u.onField f fun x => { x with change := some { c with committed := true } }
      else u.nameChange f c.kind) := by
  show execCommitDeadline f t s = _
  simp only [execCommitDeadline, hu, hc]
  rw [if_neg fun hearly => hearly.elim (by rw [hcom]; decide) (Nat.not_lt.2 hb)]
  exact (apply_ite Host.Outcome.next _ _ _).symm

theorem exec_commitDeadline_commits (hcom : c.committed = false) (hb : c.boundary ≤ u.leadTally f + 20000)
    (ht : u.leadTally f < c.boundary) (hall : ∀ e ∈ (u.field f).dies, c.confirmed.contains e = true) :
    exec (.commitDeadline f t) s = .next (u.onField f fun x => { x with change := some { c with committed := true } }) := by
  rw [exec_commitDeadline_due hu hc hcom hb, if_pos ⟨List.all_eq_true.2 hall, ht⟩]

theorem exec_commitDeadline_moves (hcom : c.committed = false) (hb : c.boundary ≤ u.leadTally f + 20000)
    (h : (∃ e ∈ (u.field f).dies, c.confirmed.contains e = false) ∨ c.boundary ≤ u.leadTally f) :
    exec (.commitDeadline f t) s = .next (u.nameChange f c.kind) := by
  rw [exec_commitDeadline_due hu hc hcom hb, if_neg]
  rintro ⟨hall, ht⟩
  rcases h with ⟨e, he, hn⟩ | h
  · exact absurd (List.all_eq_true.1 hall e he) (by rw [hn]; decide)
  · exact absurd ht (Nat.not_lt.2 h)

theorem exec_fieldChangeCommit_takes {d : DieId} (hcom : c.committed = true) (hd : (u.field f).dies.contains d = true)
    (ha : c.applied.contains d = false) :
    exec (.fieldChangeCommit f d t) s =
      .next (u.onField f fun x => { x with change := some { c with applied := c.applied ++ [d] } }) := by
  show execFieldChangeCommit f d t s = _
  simp only [execFieldChangeCommit, hu, hc]
  exact if_pos ⟨hcom, hd, by simpa using ha⟩

end

/-! ### What keeps a field's rung and all memory -/

/-- A field has the same rung, and every die the same memory. -/
structure State.keepsRung (f : Fin 8) (s t : State) : Prop where
  rung : (t.field f).rung = (s.field f).rung
  mem : ∀ k, (t.die k).mem = (s.die k).mem

theorem State.keepsRung_refl (f : Fin 8) (s : State) : s.keepsRung f s := ⟨rfl, fun _ => rfl⟩

section
variable {f : Fin 8} {s u : State} (h : s.keepsRung f u)
include h

theorem State.keepsRung_trans {v : State} (g : u.keepsRung f v) : s.keepsRung f v :=
  ⟨g.rung.trans h.rung, fun k => (g.mem k).trans (h.mem k)⟩

theorem State.keepsRung_setDie {d : DieId} {x : Die} (hx : x.mem = (u.die d).mem) : s.keepsRung f (u.setDie d x) :=
  State.keepsRung_trans h ⟨rfl, State.setDie_die_keeps Die.mem hx⟩

theorem State.keepsRung_setField {g : Fin 8} {x : Field} (hx : x.rung = (u.field g).rung) : s.keepsRung f (u.setField g x) := by
  refine State.keepsRung_trans h ⟨?_, fun _ => rfl⟩
  by_cases hg : g = f
  · subst hg; rw [State.setField_field_same, hx]
  · rw [State.setField_field_other _ _ _ _ hg]

theorem State.keepsRung_onField {g : Fin 8} {w : Field → Field} (hw : ∀ x, (w x).rung = x.rung) : s.keepsRung f (u.onField g w) :=
  State.keepsRung_setField h (hw _)

theorem State.keepsRung_containField (g : Fin 8) : s.keepsRung f (u.containField g) := by
  unfold State.containField
  extract_lets x
  split
  · exact h
  · split
    · exact h
    · exact State.keepsRung_setField h rfl

/-- A report contains fields, which stop at the rung they have (R389-R391). -/
theorem State.keepsRung_report (d : DieId) (e : Err) : s.keepsRung f (u.report d e) := by
  refine State.keepsRung_trans h ⟨?_, State.report_die_keeps Die.mem (fun _ _ _ _ => rfl) u d e⟩
  have hcontain : ∀ v g, ((State.containField v g).field f).rung = (v.field f).rung := fun v g =>
    (State.keepsRung_containField (State.keepsRung_refl f v) g).rung
  have hnote : ∀ (v : State) w a, ((v.noteActed w a).field f).rung = (v.field f).rung := fun _ _ _ => rfl
  unfold State.report
  extract_lets x trb0 nested r fc trb cnt0 cnt made msg told others rest stored contained
  split
  · rfl
  have hcontained : (contained.field f).rung = (u.field f).rung := by
    simp only [contained]
    split
    · split
      · exact (State.forEach_keeps _ _ _ (fun v => (v.field f).rung) fun v w _ => hnote v w _).trans (hcontain stored _)
      · rfl
    · rfl
  split
  · split
    · exact (State.forEach_keeps _ _ _ (fun v => (v.field f).rung) fun v g _ => hcontain v g).trans hcontained
    · split
      · exact (hcontain contained _).trans hcontained
      · exact hcontained
  · exact hcontained

/-- A voltage command changes the die's power state alone (R298, R299). -/
theorem State.keepsRung_commandMv (d : DieId) (mv rung : Nat) : s.keepsRung f (u.commandMv d mv rung) := by
  unfold State.commandMv
  split
  · exact State.keepsRung_setDie h rfl
  · split
    · exact h
    · exact State.keepsRung_setDie h rfl

theorem State.keepsRung_settleMv (d : DieId) (rung : Nat) : s.keepsRung f (u.settleMv d rung) := by
  unfold State.settleMv
  split
  · exact State.keepsRung_commandMv (State.keepsRung_commandMv h _ _ _) _ _ _
  · exact State.keepsRung_commandMv h _ _ _

theorem State.keepsRung_nameChange (g : Fin 8) (k : ChangeKind) : s.keepsRung f (u.nameChange g k) :=
  have named := State.keepsRung_setField (g := g) (x := { u.field g with change := some (u.named g k) }) h rfl
  ⟨named.rung, named.mem⟩

theorem State.keepsRung_abandonChange (g : Fin 8) : s.keepsRung f (u.abandonChange g) := by
  unfold State.abandonChange
  extract_lets x
  split
  · have hset := State.keepsRung_setField (g := g) (x := { u.field g with change := none }) h rfl
    split
    · exact State.forEach_inv _ _ _ (s.keepsRung f) hset fun v d _ hv => State.keepsRung_commandMv hv _ _ _
    · exact hset
  · exact h

theorem State.keepsRung_reviewLimits (g : Fin 8) : s.keepsRung f (u.reviewLimits g) := by
  unfold State.reviewLimits
  extract_lets x rung duty want
  clear_value want
  split
  · exact h
  · split
    · split
      · exact h
      · split
        · exact State.keepsRung_nameChange (State.keepsRung_abandonChange h g) g _
        · exact State.keepsRung_abandonChange h g
    · exact State.keepsRung_nameChange h g _
    · exact h

theorem State.keepsRung_capBoundary (g : Fin 8) : s.keepsRung f (u.capBoundary g) := by
  unfold State.capBoundary
  refine List.foldlRecOn allPkgs _ (motive := s.keepsRung f) h fun v hv n _ => ?_
  extract_lets key c capped
  have hcapped : s.keepsRung f capped := State.keepsRung_onField hv fun _ => rfl
  clear_value capped
  split
  · split
    · exact hv
    · split
      · exact State.keepsRung_report hcapped _ _
      · exact hcapped
  · exact hv

theorem State.keepsRung_finishField (g : Fin 8) (status : Nat) (body : List Byte) : s.keepsRung f (u.finishField g status body) := by
  unfold State.finishField
  split
  · refine State.keepsRung_trans (State.keepsRung_setField (g := g) (x := { u.field g with holder := none }) h rfl) ⟨?_, ?_⟩
    · simp
    · simp
  · exact h

/-- What follows a boundary leaves the rung in force and all memory (R299, R302, R309). -/
theorem State.keepsRung_afterChange (g : Fin 8) (old : Field) : s.keepsRung f (u.afterChange g old) := by
  unfold State.afterChange
  extract_lets x railed capped reviewed limited
  have hrailed : s.keepsRung f railed := by
    simp only [railed]
    split
    · exact h
    · exact State.forEach_inv _ _ _ (s.keepsRung f) h fun v d _ hv => State.keepsRung_settleMv hv d _
  have hreviewed : s.keepsRung f reviewed := by
    simp only [reviewed]
    split
    · exact State.keepsRung_reviewLimits (State.keepsRung_capBoundary hrailed g) g
    · exact State.keepsRung_capBoundary hrailed g
  have hlimited : s.keepsRung f limited :=
    State.forEach_inv _ _ _ (s.keepsRung f) hreviewed fun v d _ hv => State.keepsRung_setDie hv rfl
  split
  · split
    · exact State.keepsRung_finishField hlimited g _ _
    · exact hlimited
  · exact hlimited

end

/-! ### STEP_BOUNDARY applies the change (R95, R97) -/

/-- A field whose change to a rung has applied. -/
def Field.atRung (x : Field) (r : Nat) : Field := { x with rung := r, change := none }

theorem exec_stepBoundary_applies {s u : State} {f : Fin 8} {t r : Nat} {c : Change} (hu : s.clock t = u)
    (hc : (u.field f).change = some c) (hk : c.kind = .rung r) (hcom : c.committed = true) (hb : c.boundary ≤ u.leadTally f)
    (hall : ∀ e ∈ (u.field f).dies, c.applied.contains e = true) (hl : (u.field f).live = true) (hflush : (u.field f).flush = none)
    (hf : (u.field f).frozen = false) (hs : (u.field f).sluiceAt = none) (hstep : (u.field f).stepClosing = false)
    (hrun : (u.field f).run = none) :
    exec (.stepBoundary f t) s = .next (((u.settlePonds f).onField f (·.atRung r)).afterChange f (u.field f)) := by
  show execStepBoundary f t s = _
  have hfield : (u.settlePonds f).field f = u.field f := by
    have hfields : (u.settlePonds f).fields = u.fields := (State.settlePonds_only u f).agrees .fields (by decide)
    simp only [State.field, hfields]
  have happly : (u.settlePonds f).applyChange f (u.leadTally f) = (u.settlePonds f).onField f (·.atRung r) := by
    simp only [State.applyChange, hfield, hc, hk]
    exact if_pos ⟨hcom, hb, List.all_eq_true.2 hall⟩
  simp [execStepBoundary, hu, hl, hflush, hf, hrun, Field.freezes, hs, hstep, happly]

/-- A boundary at which a change to a rung applies leaves the field at that rung, and all memory. -/
theorem State.applied_leaves (s : State) (f : Fin 8) (r : Nat) (old : Field) :
    let v := ((s.settlePonds f).onField f (·.atRung r)).afterChange f old
    (v.field f).rung = r ∧ s.memoryKept v := by
  intro v
  have hafter := State.keepsRung_afterChange (State.keepsRung_refl f ((s.settlePonds f).onField f (·.atRung r))) f old
  have hponds : ∀ k, (s.settlePonds f).die k = s.die k := State.die_of_dies ((State.settlePonds_only s f).agrees .dies (by decide))
  refine ⟨hafter.rung.trans (by simp [Field.atRung]), State.memoryKept_of_mem fun k => (hafter.mem k).trans ?_⟩
  exact congrArg Die.mem (hponds k)

end Sys2Proof.Machine

open Sys2Proof Sys2Proof.Machine

/-- Settles O27: each outcome of the commands of a change has its lemma above; `State.nameChange_leaves` says what naming a change leaves,
and `State.applied_leaves` what the boundary leaves at which it applies. -/
theorem fieldWideChanges : Obligations.FieldWideChanges := by
  unfold Obligations.FieldWideChanges
  intro s f t u x
  refine ⟨fun hl hf hc hr => ?_, fun _ hr hd hc => exec_stewardLimit_rests rfl hr hd hc, fun c d hc =>
    ⟨exec_fieldChangeNotice_tells rfl hc, exec_fieldChangeConfirm_confirms rfl hc, exec_fieldChangeConfirm_ignored rfl hc,
      exec_commitDeadline_commits rfl hc, fun hcom hb h => ?_, exec_fieldChangeCommit_takes rfl hc,
      fun r hk hcom hb hall hl hflush hf hs hstep hrun => ?_⟩⟩
  · obtain ⟨hfield, hothers, honly⟩ := State.nameChange_leaves u f (.rung (u.wantedRung f))
    refine ⟨_, u.named f (.rung (u.wantedRung f)), exec_stewardLimit_names rfl hl hf hc hr, ?_⟩
    rw [hfield]
    exact ⟨rfl, rfl, State.named_boundary u f _, rfl, rfl, hothers, honly⟩
  · obtain ⟨hfield, hothers, honly⟩ := State.nameChange_leaves u f c.kind
    refine ⟨_, u.named f c.kind, exec_commitDeadline_moves rfl hc hcom hb h, ?_⟩
    rw [hfield]
    exact ⟨rfl, rfl, rfl, State.named_boundary u f _, hothers, honly⟩
  · exact ⟨_, exec_stepBoundary_applies rfl hc hk hcom hb hall hl hflush hf hs hstep hrun, State.applied_leaves u f r x⟩
end

section
/-! PROOF. HOLDOVER, leadership and the root (O33): what FAULT, a new root and a move of the server leave, then one lemma for
each thing the commands can do. -/

namespace Sys2Proof.Machine

/-! ### The limits of HOLDOVER (R101) -/

/-- Marks older than 8,192 ticks name no parent (R83). -/
theorem State.bestParent_eq_none {w : State} {d : DieId} (h : ∀ z ∈ (w.die d).tally.seen, z.2.when_ + 8192 ≤ w.now) (limit : Nat) :
    w.bestParent d limit = none := by
  refine Option.eq_none_iff_forall_ne_some.2 fun b hb => ?_
  obtain ⟨hmem, hgood⟩ := State.bestParent_spec hb
  have hold := h _ hmem
  have hnew : w.now < b.2.when_ + silence := by
    simp only [State.markGood, Bool.and_eq_true, decide_eq_true_eq] at hgood
    obtain ⟨⟨⟨⟨⟨-, hnew⟩, -⟩, -⟩, -⟩, -⟩ := hgood
    exact hnew
  exact absurd hold (Nat.not_le.2 hnew)

section
variable {s u : State} {d : DieId} {t : Nat} (hu : s.clock t = u)
include hu

theorem exec_holdoverDescendantEnd_waits (h : u.now < (u.die d).tally.holdSince + 163840) :
    exec (.holdoverDescendantEnd d t) s = .next u := by
  show execHoldoverDescendantEnd d t s = _
  subst hu
  refine if_neg fun hall => ?_
  obtain ⟨-, -, -, hnow⟩ := hall
  exact absurd hnow (Nat.not_le.2 h)

theorem exec_holdoverDescendantEnd_ends (hst : (u.die d).tally.st = .holdover) (hp : (u.die d).tally.parent = none)
    (hdeep : (u.die d).tally.deeperOk = false) (h : (u.die d).tally.holdSince + 163840 ≤ u.now)
    (hseen : ∀ z ∈ (u.die d).tally.seen, z.2.when_ + 8192 ≤ u.now) :
    exec (.holdoverDescendantEnd d t) s = .next (u.onTally d fun y => { y with deeperOk := true }) := by
  show execHoldoverDescendantEnd d t s = _
  have hnone : (u.onTally d fun y => { y with deeperOk := true }).bestParent d 0xFF = none :=
    State.bestParent_eq_none (by simpa using hseen) _
  simp only [execHoldoverDescendantEnd, hu, hnone]
  exact if_pos ⟨hst, by rw [hp]; rfl, by rw [hdeep]; rfl, h⟩

theorem exec_holdoverVacant_waits (h : u.now < (u.die d).tally.holdSince + 172032) : exec (.holdoverVacant d t) s = .next u := by
  show execHoldoverVacant d t s = _
  subst hu
  refine if_neg fun hall => ?_
  obtain ⟨-, -, -, hnow⟩ := hall
  exact absurd hnow (Nat.not_le.2 h)

theorem exec_holdoverVacant_treats (hst : (u.die d).tally.st = .holdover) (hp : (u.die d).tally.parent = none)
    (hv : (u.die d).tally.vacantSince = none) (h : (u.die d).tally.holdSince + 172032 ≤ u.now) :
    exec (.holdoverVacant d t) s = .next (u.treatVacant d) := by
  show execHoldoverVacant d t s = _
  subst hu
  exact if_pos ⟨hst, by rw [hp]; rfl, by rw [hv]; rfl, h⟩

theorem exec_holdoverFault_waits {n : Nat} (hv : (u.die d).tally.vacantSince = some n) (h : u.now < n + 12000000) :
    exec (.holdoverFault d t) s = .next u := by
  show execHoldoverFault d t s = _
  simp only [execHoldoverFault, hu, hv]
  refine if_neg fun hall => ?_
  obtain ⟨-, -, hnow⟩ := hall
  exact absurd hnow (Nat.not_le.2 h)

theorem exec_holdoverFault_faults (hst : (u.die d).tally.st = .holdover) (hp : (u.die d).tally.parent = none) {n : Nat}
    (hv : (u.die d).tally.vacantSince = some n) (h : n + 12000000 ≤ u.now) :
    exec (.holdoverFault d t) s = .next (u.enterFault d) := by
  show execHoldoverFault d t s = _
  simp only [execHoldoverFault, hu, hv]
  exact if_pos ⟨hst, by rw [hp]; rfl, h⟩

end

/-! ### Leadership treated as vacant (R98, R101) -/

theorem State.treatVacant_dies (s : State) (d : DieId) :
    (s.treatVacant d).dies = (s.onTally d fun y => { y with vacantSince := some s.now, oldEpoch := y.epoch }).dies := by
  unfold State.treatVacant
  extract_lets now noted emitted
  split
  · rfl
  · split <;> rfl

theorem mem_addClaim_self (l : List Dword) (n : Dword) : n ∈ addClaim l n := by
  unfold addClaim
  split
  next h => exact List.contains_iff_mem.1 h
  next => simp

theorem mem_addClaim_of_mem {l : List Dword} {m : Dword} (h : m ∈ l) (n : Dword) : m ∈ addClaim l n := by
  unfold addClaim
  split
  · exact h
  · exact List.mem_append_left _ h

/-- A tray that does not lead and whose oscillator is good claims leadership that its die treats as vacant. -/
theorem State.treatVacant_claims {s : State} (d : DieId) (ho : s.cleaner.oscillatorOk = true) (hl : s.leader.lead = false) :
    (s.treatVacant d).leader.vacant = true ∧ s.serial ∈ (s.treatVacant d).leader.claims ∧
      (s.treatVacant d).leader.windowFrom = some (s.leader.windowFrom.getD s.now) := by
  simp only [State.treatVacant, State.onTally_eq, State.setDie_cleaner, State.emit_leader, State.setDie_leader, ho, hl]
  exact ⟨rfl, mem_addClaim_self s.leader.claims s.serial, rfl⟩

theorem State.treatVacant_silent {s : State} (d : DieId) (ho : s.cleaner.oscillatorOk = false) :
    (s.treatVacant d).leader = s.leader ∧ (s.treatVacant d).effects = s.effects := by
  simp only [State.treatVacant, State.onTally_eq, State.setDie_cleaner, ho]
  exact ⟨rfl, rfl⟩

theorem State.treatVacant_leaves (s : State) (d : DieId) :
    let v := s.treatVacant d
    (v.die d).tally = { (s.die d).tally with vacantSince := some s.now, oldEpoch := (s.die d).tally.epoch } ∧
      (s.cleaner.oscillatorOk = true → s.leader.lead = false → v.leader.vacant = true ∧ s.serial ∈ v.leader.claims ∧
        v.leader.windowFrom = some (s.leader.windowFrom.getD s.now)) ∧
      (s.cleaner.oscillatorOk = false → v.leader = s.leader ∧ v.effects = s.effects) ∧ s.otherDies v d ∧ s.memoryKept v := by
  intro v
  obtain ⟨htally, hdies, hmem, -⟩ := State.onTally_leaves s d fun y => { y with vacantSince := some s.now, oldEpoch := y.epoch }
  have hv : ∀ k, v.die k = _ := State.die_of_dies (State.treatVacant_dies s d)
  exact ⟨by rw [hv, htally], State.treatVacant_claims d, State.treatVacant_silent d, fun k hk => by rw [hv, hdies k hk],
    fun k a => by rw [hv, hmem]⟩

/-! ### FAULT (R85, R101, R102, R104) -/

theorem State.onTally_mem (s : State) (d : DieId) (g : Tally → Tally) (k : DieId) : ((s.onTally d g).die k).mem = (s.die k).mem :=
  State.setDie_die_keeps Die.mem (by rfl) k

section
variable {β : Type} (v : Die → β) (hv : ∀ x trb cnt side, v { x with trb := trb, cnt := cnt, side := side } = v x)
include hv

/-- A sluice changes its die's alarms, and fields (R166). -/
theorem State.sluice_die_keeps (s : State) (d : DieId) (f : Fin 8) (port : Nat) (k : DieId) :
    v ((s.sluice d f port).die k) = v (s.die k) := by
  unfold State.sluice
  extract_lets x b data alarmed near
  have halarmed : v (alarmed.die k) = v (s.die k) := by
    refine State.setDie_die_keeps v ?_ k
    refine (hv _ _ _ _).trans ?_
    exact List.foldlRecOn _ _ (motive := fun y => v y = v (s.die d)) rfl fun y hy e _ => (Die.queueAlarm_keeps v hv y d _).trans hy
  split
  · exact halarmed
  · exact halarmed

theorem State.losePin_die_keeps (s : State) (p : PortId) (k : DieId) : v ((s.losePin p).die k) = v (s.die k) := by
  unfold State.losePin
  split
  · rfl
  · refine State.forEach_keeps _ _ _ (fun u => v (u.die k)) fun u f _ => ?_
    exact (State.sluice_die_keeps v hv _ _ _ _ k).trans (State.report_die_keeps v hv u _ _ k)

end

/-- A tally that has entered FAULT (R85, R101). -/
def Tally.fault (y : Tally) : Tally := { y with st := .fault, strikes := 0, vacantSince := none, deeperOk := false }

/-- A die that enters FAULT reports it and stops its fields, and nothing else of any die changes. -/
theorem State.enterFault_die_keeps {β : Type} (v : Die → β)
    (hv : ∀ x trb cnt side, v { x with trb := trb, cnt := cnt, side := side } = v x) {s : State} {d : DieId}
    (h : (s.die d).tally.st ≠ .fault) (k : DieId) :
    v ((s.enterFault d).die k) = v ((s.onTally d Tally.fault).die k) := by
  unfold State.enterFault
  extract_lets was faulted own reported
  rw [if_neg h]
  refine (State.forEach_keeps _ _ _ (fun u => v (u.die k)) fun u p _ => State.losePin_die_keeps v hv u p k).trans ?_
  have hreported : v (reported.die k) = v (faulted.die k) := by
    simp only [reported]
    clear_value own
    split
    · exact (State.sluice_die_keeps v hv _ _ _ _ k).trans (State.report_die_keeps v hv faulted _ _ k)
    · exact State.report_die_keeps v hv faulted _ _ k
  exact hreported

theorem State.enterFault_leaves {s : State} {d : DieId} (h : (s.die d).tally.st ≠ .fault) :
    ((s.enterFault d).die d).tally = (s.die d).tally.fault ∧ s.memoryKept (s.enterFault d) := by
  obtain ⟨htally, -, hmem, -⟩ := State.onTally_leaves s d Tally.fault
  refine ⟨(State.enterFault_die_keeps Die.tally (fun _ _ _ _ => rfl) h d).trans htally, State.memoryKept_of_mem fun k => ?_⟩
  exact (State.enterFault_die_keeps Die.mem (fun _ _ _ _ => rfl) h k).trans (State.onTally_mem s d _ k)

/-! ### LEADER_CLAIM (R98, R99, R101) -/

section
variable {s u : State} {t : Nat} (hu : s.clock t = u)
include hu

theorem exec_leaderClaim_deaf (hl : u.leader.lead = true) (serial : Dword) (e : Half) :
    exec (.leaderClaim ⟨serial, some e⟩ t) s = .next u := by
  show execLeaderClaim ⟨serial, some e⟩ t s = _
  simp [execLeaderClaim, hu, hl]

theorem exec_leaderClaim_answers (hl : u.leader.lead = true) (serial : Dword) :
    exec (.leaderClaim ⟨serial, none⟩ t) s =
      .next ((u.setLeader { u.leader with answered := u.leader.answered ++ [serial] }).emit
        (.leaderAnswer u.serial u.leader.epoch)) := by
  show execLeaderClaim ⟨serial, none⟩ t s = _
  simp only [execLeaderClaim, hu]
  exact if_pos hl

theorem exec_leaderClaim_takes (hl : u.leader.lead = false) (serial : Dword) :
    exec (.leaderClaim ⟨serial, none⟩ t) s = .next (u.takeClaim serial) := by
  show execLeaderClaim ⟨serial, none⟩ t s = _
  simp [execLeaderClaim, hu, hl]

theorem exec_leaderClaim_follows (hl : u.leader.lead = false) (serial : Dword) (e : Half) :
    exec (.leaderClaim ⟨serial, some e⟩ t) s = .next (u.takeAnswer serial e) := by
  show execLeaderClaim ⟨serial, some e⟩ t s = _
  simp [execLeaderClaim, hu, hl]

end

/-- A claim stands in the window, with the tray's own where leadership is vacant for it (R98). -/
theorem State.takeClaim_leaves (s : State) (serial : Dword) :
    let v := s.takeClaim serial
    serial ∈ v.leader.claims ∧ v.leader.windowFrom = some (s.leader.windowFrom.getD s.now) ∧ v.leader.lead = s.leader.lead ∧
      (s.leader.vacant = true → s.mayClaim = true → s.serial ∈ v.leader.claims) ∧ s.onlyChanges v [.effects, .leader] := by
  intro v
  have hclaims : v.leader = { s.leader with
      windowFrom := some (s.leader.windowFrom.getD s.now), claims := v.leader.claims } := by
    simp only [v, State.takeClaim]
    split <;> rfl
  have hserial : v.leader.claims = if s.leader.vacant && s.mayClaim && !s.leader.claims.contains s.serial && serial ≠ s.serial then
      addClaim (addClaim s.leader.claims serial) s.serial else addClaim s.leader.claims serial := by
    simp only [v, State.takeClaim]
    split <;> rfl
  refine ⟨?_, by rw [hclaims], by rw [hclaims], fun hv hm => ?_, State.takeClaim_only s serial⟩
  · rw [hserial]
    split
    · exact mem_addClaim_of_mem (mem_addClaim_self _ _) _
    · exact mem_addClaim_self _ _
  · rw [hserial]
    split
    · exact mem_addClaim_self _ _
    next hnot =>
      by_cases hc : s.serial ∈ s.leader.claims
      · exact mem_addClaim_of_mem hc _
      · have hsame : serial = s.serial := by simpa [hv, hm, hc] using hnot
        rw [hsame]
        exact mem_addClaim_self _ _

theorem State.followLeader_same {s : State} {serial : Dword} (h : serial = s.leader.serial) :
    s.followLeader serial = s.setLeader { s.leader with serial := serial } := by
  simp [State.followLeader, h]

/-- A living leader's answer: its serial and EPOCH hold, and this tray's claim is withdrawn (R101). -/
theorem State.takeAnswer_leaves (s : State) (serial : Dword) (e : Half) :
    let v := s.takeAnswer serial e
    v.leader.serial = serial ∧ v.leader.epoch = e ∧ v.leader.vacant = false ∧ s.serial ∉ v.leader.claims ∧
      (serial = s.leader.serial → s.onlyChanges v [.leader]) ∧
      s.onlyChanges v [.leader, .ports, .wmReply, .waiting, .serving, .scopes] := by
  intro v
  refine ⟨congrArg Leader.serial (State.followLeader_leader s serial), rfl, rfl, ?_, fun h => ?_,
    only_step (State.takeAnswer_only s serial e) (by decide) (only_refl s _)⟩
  · show s.serial ∉ s.leader.claims.filter (· ≠ s.serial)
    simp
  · simp only [v, State.takeAnswer, State.followLeader_same h]
    exact only_step (State.setLeader_only _ _) (by decide) (State.setLeader_only s _)

/-! ### The lowest serial (R98) -/

/-- The lower of a serial chosen so far and another. -/
def lower (b : Option Dword) (c : Dword) : Option Dword :=
  match b with
  | none => some c
  | some a => if c.toNat < a.toNat then some c else some a

theorem foldl_lower_eq {l : List Dword} {b : Option Dword} {w : Dword} (hw : b = some w ∨ w ∈ l)
    (hb : ∀ a, b = some a → w.toNat ≤ a.toNat) (h : ∀ c ∈ l, w.toNat ≤ c.toNat) : l.foldl lower b = some w := by
  induction l generalizing b with
  | nil => simpa using hw
  | cons c r ih =>
    have hc : w.toNat ≤ c.toNat := h c List.mem_cons_self
    refine ih ?_ (fun a ha => ?_) fun k hk => h k (List.mem_cons_of_mem c hk)
    · rcases hw with rfl | hw
      · exact .inl (if_neg (Nat.not_lt.2 hc))
      rcases List.mem_cons.1 hw with rfl | hr
      · cases b with
        | none => exact .inl rfl
        | some a =>
          have ha := hb a rfl
          by_cases hlt : w.toNat < a.toNat
          · exact .inl (if_pos hlt)
          · have hsame : a = w := BitVec.eq_of_toNat_eq (by omega)
            exact .inl ((if_neg hlt).trans (congrArg some hsame))
      · exact .inr hr
    · cases b with
      | none => cases ha; exact hc
      | some e =>
        simp only [lower] at ha
        split at ha
        · cases ha; exact hc
        · cases ha; exact hb _ rfl

/-- The election's choice is the lowest of the claims. -/
theorem lowest_eq {l : List Dword} {w : Dword} (hw : w ∈ l) (h : ∀ c ∈ l.map BitVec.toNat, w.toNat ≤ c) : lowest l = some w :=
  foldl_lower_eq (.inr hw) (fun _ ha => by cases ha) fun c hc => h _ (List.mem_map_of_mem hc)

/-! ### The server and the root (R258, R374) -/

theorem State.moveServing_serving (s : State) (inst : Option (Fin 4)) : (s.moveServing inst).serving = inst := by
  simp only [State.moveServing]
  refine (State.forEach_keeps _ _ _ State.serving fun u pk _ => ?_).trans ?_
  · split
    · split <;> rfl
    · rfl
  refine (State.forEach_keeps _ _ _ State.serving fun u n _ => ?_).trans rfl
  exact State.forEach_keeps _ _ _ State.serving fun _ _ _ => by simp

/-- The server is on a package: it moves there where it is not. -/
def State.serveOn (s : State) (n : Fin 4) : State := if s.serving = some n then s else s.moveServing (some n)

theorem State.serveOn_serving (s : State) (n : Fin 4) : (s.serveOn n).serving = some n := by
  unfold State.serveOn
  split
  · assumption
  · exact State.moveServing_serving s _

theorem State.serveOn_only (s : State) (n : Fin 4) : s.onlyChanges (s.serveOn n) [.waiting, .wmReply, .serving, .scopes, .ports] :=
  only_ite (only_refl s _) (State.moveServing_only s _)

theorem State.serveOn_die (s : State) (n : Fin 4) (k : DieId) : (s.serveOn n).die k = s.die k :=
  State.die_of_dies ((State.serveOn_only s n).agrees .dies (by decide)) k

/-- The tally of a new root, which keeps its count (R98, R100). -/
def Tally.root (y : Tally) (epoch : Half) (serial : Dword) : Tally :=
  { y with st := .agreed, wasAgreed := true, counting := true, parent := none, depth := 0, rootOfs := 0, err := 0,
           epoch := epoch, leader := serial, vacantSince := none, strikes := 0 }

/-- A die made the root serves the mailbox too; only its tally and what the report touches change of the dies. -/
theorem State.makeRoot_leaves (s : State) (d : DieId) (epoch : Half) :
    (s.makeRoot d epoch).serving = some d.pkg ∧ ((s.makeRoot d epoch).die d).tally = (s.die d).tally.root epoch s.serial ∧
      s.memoryKept (s.makeRoot d epoch) := by
  have hmade : s.makeRoot d epoch = (((s.onTally d (·.root epoch s.serial)).setLeader
      { s.leader with root := some d, epoch := epoch, lead := true, vacant := false }).report d { code := 0xE404 }).serveOn d.pkg := rfl
  rw [hmade]
  refine ⟨State.serveOn_serving _ _, ?_, State.memoryKept_of_mem fun k => ?_⟩
  · rw [State.serveOn_die, State.report_die_keeps Die.tally fun _ _ _ _ => rfl]
    exact congrArg Die.tally (State.setDie_die_same ..)
  · rw [State.serveOn_die, State.report_die_keeps Die.mem fun _ _ _ _ => rfl]
    exact State.onTally_mem s d (·.root epoch s.serial) k

theorem State.pickRoot_congr {s t : State} (hp : t.pkgs = s.pkgs) (hs : t.span = s.span) (hd : t.dies = s.dies) :
    t.pickRoot = s.pickRoot := by
  cases s
  cases t
  dsimp only at hp hs hd
  subst hp hs hd
  rfl

theorem State.newestEpoch_congr {s t : State} (he : t.leader.epoch = s.leader.epoch) (hs : t.span = s.span) (hd : t.dies = s.dies) :
    t.newestEpoch = s.newestEpoch := by
  have hdie : ∀ k, (t.die k).tally.epoch = (s.die k).tally.epoch := fun k => by rw [State.die_of_dies hd]
  simp only [State.newestEpoch, State.ownDies, he, hs, hdie]

/-! ### LEADER_CLAIM_WINDOW_CLOSE (R98) -/

/-- The window closed for a winner that leads or not; the tray follows it (R98). -/
def State.elected (s : State) (w : Dword) (lead : Bool) : State :=
  let s := (s.setLeader { s.leader with windowFrom := none, claims := [], answered := [] }).followLeader w
  s.setLeader { s.leader with lead := lead, vacant := false, root := if lead then s.leader.root else none }

/-- A winner's root, where a die can be it, with a new EPOCH. -/
def State.enthrone (s : State) : State :=
  match s.pickRoot with
  | some r => s.makeRoot r (s.newestEpoch + 1)
  | none => s

/-- While a span forms, the dies of the trays that do not lead enter UNSYNCED (R98). -/
def State.unsync (s : State) (forming : Bool) : State :=
  if forming then
    s.forEach s.ownDies fun s d => s.onTally d fun y => { y with st := .unsynced, stepped := false, parent := none, depth := 0xFF }
  else s

section
variable {s u : State} {t n : Nat} (hu : s.clock t = u) (hl : u.leader.lead = false) (hn : u.leader.windowFrom = some n)
include hu hn

theorem exec_leaderClaimWindowClose_waits (h : u.now < n + 10000000) : exec (.leaderClaimWindowClose t) s = .next u := by
  show execLeaderClaimWindowClose t s = _
  simp only [execLeaderClaimWindowClose, hu, hn]
  exact if_pos h

variable {w : Dword} (h : n + 10000000 ≤ u.now) (hw : lowest u.leader.claims = some w)
include hl h hw

theorem exec_leaderClaimWindowClose_wins (hs : w = u.serial) :
    exec (.leaderClaimWindowClose t) s = .next (u.elected w true).enthrone.setCleaner.endForm := by
  show execLeaderClaimWindowClose t s = _
  have hnow : ¬ u.now < n + leaderWindow := Nat.not_lt.2 h
  simp only [execLeaderClaimWindowClose, hu, hn, hw]
  refine (if_neg hnow).trans ((if_neg (show ¬ u.leader.lead = true by simp [hl])).trans ((if_pos hs).trans ?_))
  split
  next r hr =>
    have hpick : (u.elected w true).pickRoot = some r := hr
    simp only [State.enthrone, hpick]
    rfl
  next hr =>
    have hpick : (u.elected w true).pickRoot = none := hr
    simp only [State.enthrone, hpick]
    rfl

theorem exec_leaderClaimWindowClose_yields (hs : w ≠ u.serial) :
    exec (.leaderClaimWindowClose t) s =
      .next ((u.elected w false).unsync u.span.forming.isSome).setCleaner.endForm := by
  show execLeaderClaimWindowClose t s = _
  have hnow : ¬ u.now < n + leaderWindow := Nat.not_lt.2 h
  simp only [execLeaderClaimWindowClose, hu, hn, hw]
  refine (if_neg hnow).trans ((if_neg (show ¬ u.leader.lead = true by simp [hl])).trans ((if_neg hs).trans ?_))
  rfl

end

/-- What the election leaves alone: dies, packages and the span. -/
theorem State.elected_only (s : State) (w : Dword) (lead : Bool) :
    s.onlyChanges (s.elected w lead) [.waiting, .wmReply, .serving, .scopes, .ports, .leader] :=
  only_step (State.setLeader_only _ _) (by decide) <| only_step (State.followLeader_only _ _) (by decide) <|
    only_step (State.setLeader_only s _) (by decide) (only_refl s _)

theorem State.elected_leader (s : State) (w : Dword) (lead : Bool) :
    (s.elected w lead).leader = { s.leader with
      windowFrom := none, claims := [], answered := [], serial := w, lead := lead, vacant := false,
      root := if lead then s.leader.root else none } := by
  simp only [State.elected, State.followLeader_leader]
  rfl

theorem State.elected_dies (s : State) (w : Dword) (lead : Bool) : (s.elected w lead).dies = s.dies :=
  (State.elected_only s w lead).agrees .dies (by decide)

/-- The end of an election: the Watermaster steers the cleaner and a formation is answered; leadership, dies and the server
stay. -/
theorem State.settled_leaves (s : State) :
    s.setCleaner.endForm.leader = s.leader ∧ s.setCleaner.endForm.serving = s.serving ∧ s.setCleaner.endForm.dies = s.dies := by
  have h : s.onlyChanges s.setCleaner.endForm [.wmReply, .span, .ports, .trayHolder, .cleaner] :=
    only_step (State.endForm_only _) (by decide) <| only_step (State.setCleaner_only s) (by decide) (only_refl s _)
  exact ⟨h.agrees .leader (by decide), h.agrees .serving (by decide), h.agrees .dies (by decide)⟩

/-- A new root keeps what the election decided; the tray leads from it. -/
theorem State.enthrone_leaves (s : State) :
    s.enthrone.leader.serial = s.leader.serial ∧ s.enthrone.leader.windowFrom = s.leader.windowFrom ∧
      s.enthrone.leader.claims = s.leader.claims ∧ s.memoryKept s.enthrone := by
  unfold State.enthrone
  split
  next r _ =>
    obtain ⟨-, -, hmem⟩ := State.makeRoot_leaves s r (s.newestEpoch + 1)
    rw [State.makeRoot_leader]
    exact ⟨rfl, rfl, rfl, hmem⟩
  next => exact ⟨rfl, rfl, rfl, fun _ _ => rfl⟩

/-- Dies that enter UNSYNCED change their tallies alone. -/
theorem State.unsync_leaves (s : State) (forming : Bool) : (s.unsync forming).leader = s.leader ∧ s.memoryKept (s.unsync forming) := by
  unfold State.unsync
  split
  · exact ⟨State.forEach_keeps _ _ _ State.leader fun _ _ _ => rfl, State.memoryKept_of_mem fun k =>
      State.forEach_keeps _ _ _ (fun u => (u.die k).mem) fun u d _ => State.onTally_mem u d _ k⟩
  · exact ⟨rfl, fun _ _ => rfl⟩

/-- This tray wins: it leads from its root, under an EPOCH newer than any it knows. -/
theorem State.won_leaves (s : State) (w : Dword) :
    let v := (s.elected w true).enthrone.setCleaner.endForm
    v.leader.serial = w ∧ v.leader.windowFrom = none ∧ v.leader.claims = [] ∧ s.memoryKept v ∧
      ∀ r, s.pickRoot = some r → v.leader.lead = true ∧ v.leader.root = some r ∧ v.leader.epoch = s.newestEpoch + 1 ∧
        v.serving = some r.pkg ∧ (v.die r).tally.depth = 0 ∧ (v.die r).tally.st = .agreed := by
  intro v
  have hd := State.elected_only s w true
  have hdies := State.elected_dies s w true
  have hleader := State.elected_leader s w true
  obtain ⟨hserial, hwindow, hclaims, hmem⟩ := State.enthrone_leaves (s.elected w true)
  obtain ⟨hvl, hvs, hvd⟩ := State.settled_leaves (s.elected w true).enthrone
  refine ⟨?_, ?_, ?_, fun k a => ?_, fun r hr => ?_⟩
  · rw [show v.leader = _ from hvl, hserial, hleader]
  · rw [show v.leader = _ from hvl, hwindow, hleader]
  · rw [show v.leader = _ from hvl, hclaims, hleader]
  · rw [show v.die k = _ from State.die_of_dies hvd k, hmem, State.die_of_dies hdies]
  · have hpick : (s.elected w true).pickRoot = some r :=
      (State.pickRoot_congr (hd.agrees .pkgs (by decide)) (hd.agrees .span (by decide)) hdies).trans hr
    have hepoch : (s.elected w true).newestEpoch = s.newestEpoch :=
      State.newestEpoch_congr (by rw [hleader]) (hd.agrees .span (by decide)) hdies
    have hroot : (s.elected w true).enthrone = (s.elected w true).makeRoot r (s.newestEpoch + 1) := by
      simp only [State.enthrone, hpick, hepoch]
    obtain ⟨hserving, htally, -⟩ := State.makeRoot_leaves (s.elected w true) r (s.newestEpoch + 1)
    rw [show v.leader = _ from hvl, show v.serving = _ from hvs, show v.die r = _ from State.die_of_dies hvd r, hroot,
      State.makeRoot_leader, hserving, htally]
    exact ⟨rfl, rfl, rfl, rfl, rfl, rfl⟩

/-- Another tray wins: this one leads no more and has no root. -/
theorem State.lost_leaves (s : State) (w : Dword) (forming : Bool) :
    let v := ((s.elected w false).unsync forming).setCleaner.endForm
    v.leader.serial = w ∧ v.leader.windowFrom = none ∧ v.leader.claims = [] ∧ s.memoryKept v ∧ v.leader.lead = false ∧
      v.leader.root = none ∧ v.leader.epoch = s.leader.epoch := by
  intro v
  obtain ⟨hul, hmem⟩ := State.unsync_leaves (s.elected w false) forming
  obtain ⟨hvl, -, hvd⟩ := State.settled_leaves ((s.elected w false).unsync forming)
  have hleader : v.leader = _ := hvl.trans (hul.trans (State.elected_leader s w false))
  rw [hleader]
  refine ⟨rfl, rfl, rfl, fun k a => ?_, rfl, rfl, rfl⟩
  rw [show v.die k = _ from State.die_of_dies hvd k, hmem, State.die_of_dies (State.elected_dies s w false)]

/-! ### ROOT_TALLY_START (R374) -/

/-- The root's tally starts at 0 under its tray's leadership. -/
def Tally.start (y : Tally) (epoch : Half) (serial : Dword) : Tally :=
  { y with value := 0, phase := 0, counting := true, st := .agreed, wasAgreed := true, parent := none, depth := 0, rootOfs := 0,
           err := 0, epoch := epoch, leader := serial }

section
variable {s u : State} {t : Nat} (hu : s.clock t = u)
include hu

theorem exec_rootTallyStart_waits (h : u.leader.lead = false ∨ u.leader.root ≠ none ∨ u.pickRoot = none) :
    exec (.rootTallyStart t) s = .next u := by
  show execRootTallyStart t s = _
  simp only [execRootTallyStart, hu]
  split
  · rfl
  next hgo =>
    have hnone : u.pickRoot = none := by
      rcases h with h | h | h
      · exact absurd (.inl (by simp [h])) hgo
      · exact absurd (.inr (Option.isSome_iff_ne_none.2 h)) hgo
      · exact h
    simp only [hnone]

theorem exec_rootTallyStart_starts {r : DieId} (hl : u.leader.lead = true) (hroot : u.leader.root = none) (hr : u.pickRoot = some r) :
    exec (.rootTallyStart t) s =
      .next (((u.onTally r (·.start u.leader.epoch u.serial)).setLeader { u.leader with root := some r }).serveOn r.pkg) := by
  show execRootTallyStart t s = _
  simp only [execRootTallyStart, hu, hr]
  rw [if_neg (by simp [hl, hroot])]
  rfl

end

theorem State.rootStarted_leaves (s : State) (r : DieId) (epoch : Half) :
    let v := ((s.onTally r (·.start epoch s.serial)).setLeader { s.leader with root := some r }).serveOn r.pkg
    (v.die r).tally = (s.die r).tally.start epoch s.serial ∧ v.leader.root = some r ∧ v.serving = some r.pkg ∧ s.otherDies v r ∧
      s.memoryKept v := by
  intro v
  obtain ⟨htally, hdies, hmem, -⟩ := State.onTally_leaves s r (·.start epoch s.serial)
  have hv : ∀ k, v.die k = (s.onTally r (·.start epoch s.serial)).die k := State.serveOn_die _ _
  have hleader : v.leader = { s.leader with root := some r } := (State.serveOn_only _ _).agrees .leader (by decide)
  exact ⟨by rw [hv, htally], by rw [hleader], State.serveOn_serving _ _, fun k hk => by rw [hv, hdies k hk],
    fun k a => by rw [hv, hmem]⟩

/-! ### REFERENCE_INPUT_FAIL (R78, R99, R100) -/

/-- The cleaner whose input has failed: on the next healthy one, or in holdover; its own oscillator is good no more (R78). -/
def Cleaner.failOver (c : Cleaner) : Cleaner :=
  { input := c.standby.headD c.input, standby := c.standby.tail, holdover := c.standby.isEmpty,
    oscillatorOk := c.oscillatorOk && c.input ≠ 0, configured := c.configured }

/-- The tray whose reference input has failed, before leadership is concerned. -/
def State.failInput (s : State) : State :=
  let t := s.putCleaner s.cleaner.failOver
  if s.cleaner.input = 0 then t
  else t.onLink (cagePort s.span.num (Fin.ofNat 16 (s.cleaner.input - 1))) fun l => { l with refFailed := true }

theorem State.failInput_only (s : State) : s.onlyChanges s.failInput [.links, .cleaner] := by
  unfold State.failInput
  refine only_ite ?_ (only_step (State.onLink_only _ _ _) (by decide) ?_) <;>
    exact only_step (State.putCleaner_only s _) (by decide) (only_refl s _)

theorem State.failInput_cleaner (s : State) : s.failInput.cleaner = s.cleaner.failOver := by
  unfold State.failInput
  split <;> rfl

theorem Cleaner.failOver_next {c : Cleaner} {n : Nat} {rest : List Nat} (h : c.standby = n :: rest) :
    c.failOver.input = n ∧ c.failOver.standby = rest ∧ c.failOver.holdover = false := by
  simp [Cleaner.failOver, h]

theorem Cleaner.failOver_none {c : Cleaner} (h : c.standby = []) : c.failOver.holdover = true ∧ c.failOver.input = c.input := by
  simp [Cleaner.failOver, h]

/-- A tray that leads no more, without a root. -/
def State.unled (s : State) : State := s.setLeader { s.leader with root := none, lead := false, vacant := true }

/-- A leader without its oscillator leads no more; the root it had enters HOLDOVER (R99, R100; log entry 37). -/
def State.loseLead (s : State) : State :=
  match s.leader.root with
  | some r => s.unled.enterHoldover r
  | none => s.unled

theorem exec_referenceInputFail {s u : State} {t : Nat} (hu : s.clock t = u) :
    exec (.referenceInputFail t) s =
      .next (if u.cleaner.input = 0 ∧ u.leader.lead = true then u.failInput.loseLead else u.failInput) := by
  show execReferenceInputFail t s = _
  unfold execReferenceInputFail
  rw [hu]
  extract_lets v c own input c' put failed
  have hc : { c' with oscillatorOk := c'.oscillatorOk && !own } = u.cleaner.failOver := by
    simp only [c', own, c, v, Cleaner.failOver]
    cases u.cleaner.standby <;> simp
  have hfailed : failed = u.failInput := by
    have hput : put = u.putCleaner u.cleaner.failOver := congrArg u.putCleaner hc
    simp only [failed, hput, State.failInput, own, c, v, input, decide_eq_true_eq]
    rfl
  have hleader : failed.leader = u.leader := hfailed ▸ (State.failInput_only u).agrees .leader (by decide)
  rw [← hfailed]
  clear_value failed
  by_cases h : u.cleaner.input = 0 ∧ u.leader.lead = true
  · obtain ⟨hi, hl⟩ := h
    rw [if_pos (by simp [own, c, v, hi, hleader, hl]), if_pos ⟨hi, hl⟩]
    unfold State.loseLead
    cases failed.leader.root <;> rfl
  · rw [if_neg (by simpa [own, c, v, hleader] using h), if_neg h]

theorem State.loseLead_leaves (s : State) :
    s.loseLead.leader.lead = false ∧ s.loseLead.leader.root = none ∧ s.loseLead.cleaner = s.cleaner ∧
      ∀ r, s.leader.root = some r →
        (s.loseLead.die r).tally.st = .holdover ∧ (s.loseLead.die r).tally.value = (s.die r).tally.value := by
  cases hr : s.leader.root with
  | some r =>
    have h : s.loseLead = s.unled.enterHoldover r := by simp only [State.loseLead, hr]
    rw [h]
    refine ⟨rfl, rfl, rfl, fun q hq => ?_⟩
    obtain rfl := Option.some.inj hq
    obtain ⟨htally, -⟩ := State.onTally_leaves s.unled r (·.hold s.unled.now)
    rw [State.enterHoldover_eq, htally]
    exact ⟨rfl, rfl⟩
  | none =>
    have h : s.loseLead = s.unled := by simp only [State.loseLead, hr]
    rw [h]
    exact ⟨rfl, rfl, rfl, fun _ hq => by cases hq⟩

/-- What the failed input leaves of a leader: it leads no more, without a root. -/
theorem State.failInput_loseLead_leaves {s : State} (hi : s.cleaner.input = 0) :
    let v := s.failInput.loseLead
    v.leader.lead = false ∧ v.leader.root = none ∧ v.cleaner.oscillatorOk = false ∧
      ∀ r, s.leader.root = some r → (v.die r).tally.st = .holdover ∧ (v.die r).tally.value = (s.die r).tally.value := by
  intro v
  have honly := State.failInput_only s
  have hleader : s.failInput.leader = s.leader := honly.agrees .leader (by decide)
  obtain ⟨hlead, hroot, hcleaner, hold⟩ := State.loseLead_leaves s.failInput
  refine ⟨hlead, hroot, ?_, fun r hr => ?_⟩
  · rw [show v.cleaner = _ from hcleaner, State.failInput_cleaner]
    simp [Cleaner.failOver, hi]
  · obtain ⟨hst, hvalue⟩ := hold r (by rw [hleader, hr])
    exact ⟨hst, hvalue.trans (by rw [State.die_of_dies (honly.agrees .dies (by decide))])⟩

/-- Whether its tray led or not, the cleaner fails over. -/
theorem exec_referenceInputFail_cleaner {s u : State} {t : Nat} (hu : s.clock t = u) :
    ∃ v, exec (.referenceInputFail t) s = .next v ∧ v.cleaner = u.cleaner.failOver := by
  refine ⟨_, exec_referenceInputFail hu, ?_⟩
  obtain ⟨-, -, hcleaner, -⟩ := State.loseLead_leaves u.failInput
  split
  · rw [hcleaner, State.failInput_cleaner]
  · exact State.failInput_cleaner u

end Sys2Proof.Machine

open Sys2Proof Sys2Proof.Machine

/-- Settles O33: each outcome of the commands has its lemma above; `State.enterFault_die_keeps`, `State.won_leaves`, `State.lost_leaves`,
`State.rootStarted_leaves` and `State.failInput_loseLead_leaves` say what they leave. -/
theorem holdoverLeadersAndRoots : Obligations.HoldoverLeadersAndRoots := by
  unfold Obligations.HoldoverLeadersAndRoots
  refine ⟨⟨?_, ?_⟩, ?_⟩
  · intro s d t u y hst hp
    refine ⟨fun hdeep => ⟨exec_holdoverDescendantEnd_waits rfl, fun h hseen => ?_⟩,
      fun hv => ⟨exec_holdoverVacant_waits rfl, fun h => ?_⟩, fun n hv => ⟨exec_holdoverFault_waits rfl hv, fun h => ?_⟩⟩
    · obtain ⟨htally, hdies, -, honly⟩ := State.onTally_leaves u d fun y => { y with deeperOk := true }
      exact ⟨_, exec_holdoverDescendantEnd_ends rfl hst hp hdeep h hseen, htally, hdies, honly⟩
    · exact ⟨_, exec_holdoverVacant_treats rfl hst hp hv h, State.treatVacant_leaves u d⟩
    · obtain ⟨htally, hmem⟩ := State.enterFault_leaves (s := u) (d := d) (by rw [hst]; decide)
      refine ⟨_, exec_holdoverFault_faults rfl hst hp hv h, ?_⟩
      rw [htally]
      exact ⟨rfl, rfl, rfl, hmem⟩
  · intro s serial t u
    refine ⟨fun hl => ⟨exec_leaderClaim_deaf rfl hl serial, _, exec_leaderClaim_answers rfl hl serial, rfl, rfl, ?_⟩,
      fun hl => ⟨⟨_, exec_leaderClaim_takes rfl hl serial, State.takeClaim_leaves u serial⟩,
        fun e => ⟨_, exec_leaderClaim_follows rfl hl serial e, State.takeAnswer_leaves u serial e⟩⟩,
      fun w n hl hn => ⟨exec_leaderClaimWindowClose_waits rfl hn, fun h hw hmin => ?_⟩⟩
    · exact only_step (State.emit_only ..) (by decide) <| only_step (State.setLeader_only u _) (by decide) (only_refl u _)
    · have hlow := lowest_eq hw hmin
      by_cases hs : w = u.serial
      · obtain ⟨hserial, hwindow, hclaims, hmem, hroot⟩ := State.won_leaves u w
        exact ⟨_, exec_leaderClaimWindowClose_wins rfl hl hn h hlow hs, hserial, hwindow, hclaims, fun _ => hroot,
          fun hne => absurd hs hne, hmem⟩
      · obtain ⟨hserial, hwindow, hclaims, hmem, hlost⟩ := State.lost_leaves u w u.span.forming.isSome
        exact ⟨_, exec_leaderClaimWindowClose_yields rfl hl hn h hlow hs, hserial, hwindow, hclaims, fun heq => absurd heq hs,
          fun _ => hlost, hmem⟩
  · intro s t u
    refine ⟨exec_rootTallyStart_waits rfl, fun r hl hroot hr => ?_, fun n rest hs => ?_, fun hs => ?_, fun hi hl => ?_, fun h => ?_⟩
    · obtain ⟨htally, hrest⟩ := State.rootStarted_leaves u r u.leader.epoch
      refine ⟨_, exec_rootTallyStart_starts rfl hl hroot hr, ?_⟩
      rw [htally]
      exact ⟨rfl, rfl, rfl, rfl, rfl, hrest⟩
    · obtain ⟨v, he, hcleaner⟩ := exec_referenceInputFail_cleaner (s := s) (t := t) rfl
      exact ⟨v, he, hcleaner ▸ Cleaner.failOver_next hs⟩
    · obtain ⟨v, he, hcleaner⟩ := exec_referenceInputFail_cleaner (s := s) (t := t) rfl
      exact ⟨v, he, hcleaner ▸ Cleaner.failOver_none hs⟩
    · exact ⟨_, (exec_referenceInputFail rfl).trans (congrArg _ (if_pos ⟨hi, hl⟩)), State.failInput_loseLead_leaves hi⟩
    · have honly := State.failInput_only u
      have hfollows : ¬ (u.cleaner.input = 0 ∧ u.leader.lead = true) := fun ⟨hi, hl⟩ =>
        h.elim (absurd hi) fun hn => absurd hl (by rw [hn]; decide)
      exact ⟨_, (exec_referenceInputFail rfl).trans (congrArg _ (if_neg hfollows)), honly.agrees .leader (by decide), honly⟩
end

section
/-! PROOF. Test runs (O24): what taking a port down leaves, how each test operation sets the port's test block, then one lemma for each
outcome of the commands. -/

namespace Sys2Proof.Machine

/-! ### What one port's update leaves of the ports -/

/-- What a new port has as the old one had it, every port has as before. -/
theorem State.setPort_port_keeps {β : Type} (v : Port → β) {s : State} {p : PortId} {x : Port} (h : v x = v (s.port p)) (q : PortId) :
    v ((s.setPort p x).port q) = v (s.port q) := by
  by_cases hq : p = q
  · subst hq; rw [State.setPort_port_same, h]
  · rw [State.setPort_port_other _ _ _ _ hq]

theorem State.port_of_links {s t : State} (h : t.links = s.links) (q : PortId) : t.port q = s.port q := by simp only [State.port, h]

theorem State.setPort_otherPorts (s : State) (p : PortId) (x : Port) : s.otherPorts (s.setPort p x) p :=
  fun _ hq => State.setPort_port_other _ _ _ _ hq.symm

theorem State.otherPorts_trans {s t u : State} {p : PortId} (h : s.otherPorts t p) (g : t.otherPorts u p) : s.otherPorts u p :=
  fun q hq => (g q hq).trans (h q hq)

/-! ### What leaving UP leaves of memory (R83, R163, R198, R199) -/

theorem State.settleTimers_die_mem (s : State) (d k : DieId) : ((s.settleTimers d).die k).mem = (s.die k).mem :=
  State.setDie_die_keeps Die.mem (by rfl) k

theorem State.settleAllTimers_die_mem (s : State) (k : DieId) : (s.settleAllTimers.die k).mem = (s.die k).mem :=
  State.forEach_keeps _ _ _ (fun u => (u.die k).mem) fun u d _ => State.settleTimers_die_mem u d k

theorem State.tellHold_die_mem (s : State) (d who : DieId) (on : Bool) (k : DieId) :
    ((s.tellHold d who on).die k).mem = (s.die k).mem := by
  unfold State.tellHold
  split
  · exact (State.setDie_die_keeps Die.mem (by rfl) k).trans (State.settleTimers_die_mem s d k)
  · exact State.setDie_die_keeps Die.mem (by rfl) k

theorem State.routeHoldAll_die_mem (s : State) (p : PortId) (k : DieId) : ((s.routeHoldAll p).die k).mem = (s.die k).mem := by
  refine State.forEach_keeps _ _ _ (fun u => (u.die k).mem) fun u who _ => ?_
  unfold State.routeHold
  split
  · rfl
  · extract_lets first noted
    split
    · exact State.tellHold_die_mem noted _ _ _ k
    · rfl

theorem State.leaveUp_die_mem (s : State) (p : PortId) (k : DieId) : ((s.leaveUp p).die k).mem = (s.die k).mem :=
  (State.routeHoldAll_die_mem _ p k).trans (State.settleAllTimers_die_mem s k)

/-! ### What a lost parent and a lost pin leave of memory (R83-R85, R101, R102) -/

theorem State.enterFault_die_mem (s : State) (d k : DieId) : ((s.enterFault d).die k).mem = (s.die k).mem := by
  by_cases h : (s.die d).tally.st = .fault
  · rw [State.enterFault, if_pos h]
  · exact (State.enterFault_die_keeps Die.mem (fun _ _ _ _ => rfl) h k).trans (State.onTally_mem s d _ k)

theorem State.takeParent_die_mem (s : State) (d : DieId) (q : Fin 5) (x : Seen) (k : DieId) :
    ((s.takeParent d q x).die k).mem = (s.die k).mem := by
  have htally : ∀ g, ((s.onTally d g).die k).mem = (s.die k).mem := fun g => State.onTally_mem s d g k
  have hfault : ∀ g, (((s.onTally d g).enterFault d).die k).mem = (s.die k).mem := fun g =>
    (State.enterFault_die_mem _ d k).trans (htally g)
  unfold State.takeParent
  extract_lets y depth ofs y1 v w
  split
  · split
    · rfl
    · exact htally _
  · split
    · split <;> exact htally _
    · split
      · split
        · exact htally _
        · split <;> exact htally _
      · split
        · exact hfault _
        · split
          · split
            · exact hfault _
            · exact htally _
          · exact htally _

theorem State.parentFails_die_mem (s : State) (d k : DieId) : ((s.parentFails d).die k).mem = (s.die k).mem := by
  unfold State.parentFails
  extract_lets y orphan
  have horphan : (orphan.die k).mem = (s.die k).mem := State.onTally_mem s d _ k
  split
  · split
    · exact (State.takeParent_die_mem orphan d _ _ k).trans horphan
    · exact (State.onTally_mem orphan d _ k).trans horphan
  · exact horphan

theorem State.linkLeaves_die_mem (s : State) (p : PortId) (k : DieId) : ((s.linkLeaves p).die k).mem = (s.die k).mem := by
  unfold State.linkLeaves
  extract_lets unseen
  have hunseen : (unseen.die k).mem = (s.die k).mem := State.onTally_mem s p.die _ k
  split
  · exact (State.parentFails_die_mem unseen p.die k).trans hunseen
  · exact hunseen

/-! ### What a link event leaves (R172, R252) -/

theorem State.undelivered_die_mem (s : State) (a b c : Nat) (k : DieId) : ((s.undelivered a b c).die k).mem = (s.die k).mem := by
  unfold State.undelivered
  extract_lets summed n trouble counted e logged summed2
  have hlogged : (logged.die k).mem = (s.die k).mem := by
    refine State.setDie_die_keeps (s := counted) Die.mem ?_ k
    dsimp only
    split <;> rfl
  clear_value logged
  split <;> exact hlogged

theorem State.linkEvent_die_mem (s : State) (k : DieId) : (s.linkEvent.die k).mem = (s.die k).mem := by
  unfold State.linkEvent State.notify
  split
  · split
    · rw [State.raise_die]
    · exact State.undelivered_die_mem s _ _ _ k
  · rfl

theorem State.linkEvent_chan (s : State) (n : Fin 4) (c : Fin 9) : s.linkEvent.chan n c = s.chan n c := by
  unfold State.linkEvent State.notify
  split
  · split <;> simp
  · rfl

/-! ### A port is taken down (R223, R245) -/

/-- Leaving UP touches no test block. -/
theorem State.leaveUp_tst (s : State) (p q : PortId) : ((s.leaveUp p).port q).tst = (s.port q).tst := by
  unfold State.leaveUp
  extract_lets settled emptied
  have hsettled : settled.port q = s.port q := State.port_of_links ((State.settleAllTimers_only s).agrees .links (by decide)) q
  have hemptied : (emptied.port q).tst = (settled.port q).tst := State.setPort_port_keeps Port.tst (by rfl) q
  have hheld : ((emptied.routeHoldAll p).port q).tst = (emptied.port q).tst := by
    refine State.forEach_keeps _ _ _ (fun u => (u.port q).tst) fun u who _ => ?_
    unfold State.routeHold
    split
    · rfl
    · extract_lets first noted
      have hnoted : (noted.port q).tst = (u.port q).tst := State.setPort_port_keeps Port.tst (by rfl) q
      split
      · rw [State.port_of_links ((State.tellHold_only noted _ _ _).agrees .links (by decide)) q]
        exact hnoted
      · exact hnoted
  rw [hheld, hemptied, hsettled]

/-- The port's way to DOWN with transmitters idle, before the die takes note of it. -/
def State.idled (s : State) (p : PortId) : State :=
  let u := if (s.port p).link.st = .up ∨ (s.port p).link.st = .dry then s.leaveUp p else s
  u.onLink p fun l => { l with st := .down, timer := none, backoffFrom := none, attempts := 0, fetching := false }

theorem State.portIdle_eq (s : State) (p : PortId) :
    s.portIdle p = if (s.port p).link.st = .up ∨ (s.port p).link.st = .dry then (((s.idled p).linkLeaves p).losePin p).linkEvent
      else s.idled p := by
  simp only [State.portIdle, State.idled]

theorem State.portIdle_port (s : State) (p q : PortId) : (s.portIdle p).port q = (s.idled p).port q := by
  rw [State.portIdle_eq]
  split
  · refine State.port_of_links ?_ q
    have hleft := (State.linkLeaves_only (s.idled p) p).agrees .links (by decide)
    have hlost := (State.losePin_only ((s.idled p).linkLeaves p) p).agrees .links (by decide)
    exact (((State.linkEvent_only _).agrees .links (by decide)).trans hlost).trans hleft
  · rfl

theorem State.portIdle_down (s : State) (p : PortId) : ((s.portIdle p).port p).link.st = .down := by
  rw [State.portIdle_port]
  simp [State.idled]

theorem State.portIdle_tst (s : State) (p q : PortId) : ((s.portIdle p).port q).tst = (s.port q).tst := by
  rw [State.portIdle_port]
  refine (State.setPort_port_keeps Port.tst (by rfl) q).trans ?_
  split
  · exact State.leaveUp_tst s p q
  · rfl

theorem State.portIdle_memoryKept (s : State) (p : PortId) : s.memoryKept (s.portIdle p) := by
  refine State.memoryKept_of_mem fun k => ?_
  have hidled : ((s.idled p).die k).mem = (s.die k).mem := by
    simp only [State.idled, State.onLink_eq, State.setPort_die]
    split
    · exact State.leaveUp_die_mem s p k
    · rfl
  rw [State.portIdle_eq]
  split
  · rw [State.linkEvent_die_mem, State.losePin_die_keeps Die.mem (fun _ _ _ _ => rfl), State.linkLeaves_die_mem, hidled]
  · exact hidled

theorem State.portIdle_awaits {s : State} {r : MReq} (h : s.awaits r) (p : PortId) : (s.portIdle p).awaits r := by
  have hidled : (s.idled p).awaits r := by
    refine State.awaits_of_ports s _ ?_ h
    simp only [State.idled, State.onLink_eq, State.setPort_ports]
    split
    · exact (State.leaveUp_only s p).agrees .ports (by decide)
    · rfl
  rw [State.portIdle_eq]
  split
  · refine State.awaits_of_chan r (State.linkEvent_chan _) (State.awaits_of_ports (s.idled p) _ ?_ hidled)
    exact ((State.losePin_only _ p).agrees .ports (by decide)).trans ((State.linkLeaves_only (s.idled p) p).agrees .ports (by decide))
  · exact hidled

/-! ### The bits of TST_CTRL (Table 8.9) -/

/-- MODE is the low three bits of TST_CTRL. -/
theorem mode_eq_of_bits {a b : Word} (h0 : a.getLsbD 0 = b.getLsbD 0) (h1 : a.getLsbD 1 = b.getLsbD 1)
    (h2 : a.getLsbD 2 = b.getLsbD 2) : a.toNat % 8 = b.toNat % 8 := by
  refine Nat.eq_of_testBit_eq fun i => ?_
  rw [show 8 = 2 ^ 3 from rfl, Nat.testBit_mod_two_pow, Nat.testBit_mod_two_pow, BitVec.testBit_toNat, BitVec.testBit_toNat]
  match i with
  | 0 => rw [h0]
  | 1 => rw [h1]
  | 2 => rw [h2]
  | i + 3 => rw [decide_eq_false (by omega), Bool.false_and, Bool.false_and]

/-- The test block of a run that ends at an instant, its pattern come back or not. -/
def Tst.quit (x : Tst) (now : Nat) (back : Bool) : Tst :=
  { x with ctrl := x.ctrl &&& ~~~(0x100 : Word), ended := some now, blind := !back }

/-- The test block of a run that STOP or its limit ended: DONE is set (R222). -/
def Tst.finish (x : Tst) (limited : Bool) : Tst := { x with ctrl := setBit x.ctrl 10, limited := limited }

/-- The test block of a run that starts at an instant: its results begin anew (R222). -/
def Tst.start (x : Tst) (n now : Nat) : Tst :=
  { x with ctrl := setBit (x.ctrl &&& ~~~(0x400 : Word)) 8, run := some n, startAt := now, ended := none, limited := false,
           blind := false }

/-- The test block TEST_START asks for (R223, Table 10.6). -/
def Tst.ask (x : Tst) (ctrl : Word) (limit : Nat) (user : Word) : Tst :=
  { x with ctrl := rwMask 0x10FF x.ctrl ctrl, uiLimit := limit, user := user }

section
variable (x : Tst) (now : Nat)

@[simp] theorem Tst.quit_running (back : Bool) : (x.quit now back).running = false := by simp [Tst.quit, Tst.running]
@[simp] theorem Tst.quit_mode (back : Bool) : (x.quit now back).mode = x.mode :=
  mode_eq_of_bits (by simp [Tst.quit]) (by simp [Tst.quit]) (by simp [Tst.quit])
@[simp] theorem Tst.finish_running (lim : Bool) : (x.finish lim).running = x.running := by
  simp [Tst.finish, Tst.running, setBit]
@[simp] theorem Tst.finish_done (lim : Bool) : (x.finish lim).ctrl.getLsbD 10 = true := by simp [Tst.finish, setBit]
@[simp] theorem Tst.finish_mode (lim : Bool) : (x.finish lim).mode = x.mode :=
  mode_eq_of_bits (by simp [Tst.finish, setBit]) (by simp [Tst.finish, setBit]) (by simp [Tst.finish, setBit])
@[simp] theorem Tst.start_running (n : Nat) : (x.start n now).running = true := by simp [Tst.start, Tst.running, setBit]
@[simp] theorem Tst.start_done (n : Nat) : (x.start n now).ctrl.getLsbD 10 = false := by simp [Tst.start, setBit]
@[simp] theorem Tst.start_mode (n : Nat) : (x.start n now).mode = x.mode :=
  mode_eq_of_bits (by simp [Tst.start, setBit]) (by simp [Tst.start, setBit]) (by simp [Tst.start, setBit])
/-- START is no field of TEST_START's CTRL. -/
@[simp] theorem Tst.ask_running (ctrl : Word) (limit : Nat) (user : Word) : (x.ask ctrl limit user).running = x.running := by
  simp [Tst.ask, Tst.running, rwMask]
@[simp] theorem Tst.ask_mode (ctrl : Word) (limit : Nat) (user : Word) : (x.ask ctrl limit user).mode = ctrl.toNat % 8 :=
  mode_eq_of_bits (by simp [Tst.ask, rwMask]) (by simp [Tst.ask, rwMask]) (by simp [Tst.ask, rwMask])

end

/-! ### Runs start and end (R222) -/

/-- A port with another test block. -/
def State.setTst (s : State) (p : PortId) (x : Tst) : State := s.setPort p { s.port p with tst := x }

@[simp] theorem State.setTst_port (s : State) (p : PortId) (x : Tst) : (s.setTst p x).port p = { s.port p with tst := x } := by
  simp [State.setTst]

@[simp] theorem State.setTst_die (s : State) (p : PortId) (x : Tst) (k : DieId) : (s.setTst p x).die k = s.die k := rfl
@[simp] theorem State.setTst_ports (s : State) (p : PortId) (x : Tst) : (s.setTst p x).ports = s.ports := rfl

theorem State.setTst_otherPorts (s : State) (p : PortId) (x : Tst) : s.otherPorts (s.setTst p x) p := State.setPort_otherPorts s p _

theorem State.startTraining_leaves (s : State) (p : PortId) :
    ((s.startTraining p).port p).tst = (s.port p).tst ∧ s.otherPorts (s.startTraining p) p := by
  unfold State.startTraining
  extract_lets y lead alone
  split
  · refine ⟨by simp [State.enterTr], State.otherPorts_trans (t := s.enterTr p .detect) ?_ (State.setPort_otherPorts _ p _)⟩
    exact State.setPort_otherPorts s p _
  · exact ⟨by simp, State.setPort_otherPorts s p _⟩

theorem State.quitRun_running {s : State} {p : PortId} (h : (s.port p).tst.running = true) :
    s.quitRun p = s.setTst p ((s.port p).tst.quit s.now (s.patternBack p)) := if_pos h

theorem State.quitRun_idle {s : State} {p : PortId} (h : (s.port p).tst.running = false) : s.quitRun p = s := if_neg (by simp [h])

/-- After a run has quit, no run is under way. -/
theorem State.quitRun_stops (s : State) (p : PortId) : ((s.quitRun p).port p).tst.running = false := by
  cases h : (s.port p).tst.running
  · rw [State.quitRun_idle h, h]
  · rw [State.quitRun_running h]; simp

theorem State.endRun_idle {s : State} {p : PortId} (h : (s.port p).tst.running = false) (lim : Bool) : s.endRun p lim = s :=
  if_neg (by simp [h])

/-- A run that ends by STOP or its limit leaves its port's test block finished, and the other ports. -/
theorem State.endRun_leaves {s : State} {p : PortId} (h : (s.port p).tst.running = true) (lim : Bool) :
    ((s.endRun p lim).port p).tst = ((s.port p).tst.quit s.now (s.patternBack p)).finish lim ∧ s.otherPorts (s.endRun p lim) p := by
  unfold State.endRun
  rw [if_pos h, State.quitRun_running h]
  extract_lets ended
  have htst : (ended.port p).tst = ((s.port p).tst.quit s.now (s.patternBack p)).finish lim := by simp [ended, Tst.finish]
  have hothers : s.otherPorts ended p := State.otherPorts_trans (State.setTst_otherPorts s p _) (State.setPort_otherPorts _ p _)
  split
  · obtain ⟨hkept, hleft⟩ := State.startTraining_leaves ended p
    exact ⟨hkept.trans htst, State.otherPorts_trans hothers hleft⟩
  · exact ⟨htst, hothers⟩

/-- Whether a run was under way or not, none is once it is ended; MODE stays (R222, R223; log entry 96). -/
theorem State.endRun_stops (s : State) (p : PortId) (lim : Bool) :
    ((s.endRun p lim).port p).tst.running = false ∧ ((s.endRun p lim).port p).tst.mode = (s.port p).tst.mode ∧
      s.otherPorts (s.endRun p lim) p := by
  cases h : (s.port p).tst.running
  · rw [State.endRun_idle h]
    exact ⟨h, rfl, fun _ _ => rfl⟩
  · obtain ⟨htst, hothers⟩ := State.endRun_leaves h lim
    rw [htst]
    exact ⟨by simp, by simp, hothers⟩

/-- A run starts on a port in a mode other than OFF; in MODE 4 the pattern takes the lanes from the training first (R222, R226). -/
theorem State.startRun_starts {s : State} {p : PortId} (hm : (s.port p).tst.mode ≠ 0) (hr : (s.port p).tst.running = false) :
    s.startRun p = ((if (s.port p).tst.mode = 4 then s.portIdle p else s).setTst p ((s.port p).tst.start s.free s.now)).spend := by
  have hrest : ¬ ((s.port p).tst.mode = 0 ∨ (s.port p).tst.running = true) := by simp [hm, hr]
  unfold State.startRun
  simp only [if_neg hrest]
  split
  · have hfree : (s.portIdle p).free = s.free := (State.portIdle_only s p).agrees .free (by decide)
    have hnow : (s.portIdle p).now = s.now := (State.portIdle_only s p).agrees .now (by decide)
    simp only [hfree, hnow, State.onPort_eq, State.setTst, Tst.start, State.portIdle_tst]
  · rfl

theorem State.startRun_tst {s : State} {p : PortId} (hm : (s.port p).tst.mode ≠ 0) (hr : (s.port p).tst.running = false) :
    ((s.startRun p).port p).tst = (s.port p).tst.start s.free s.now := by
  rw [State.startRun_starts hm hr]
  simp

theorem State.startRun_otherPorts {s : State} {p : PortId} (hm : (s.port p).tst.mode ≠ 0) (hr : (s.port p).tst.running = false)
    (h4 : (s.port p).tst.mode ≠ 4) : s.otherPorts (s.startRun p) p ∧ s.onlyChanges (s.startRun p) [.links, .free] := by
  rw [State.startRun_starts hm hr, if_neg h4]
  exact ⟨State.setTst_otherPorts s p _, only_step (State.spend_only _) (by decide) <|
    only_step (State.setPort_only s p _) (by decide) (only_refl s _)⟩

/-- Once the limit ended a run, TST_UI is the limit (R222). -/
theorem State.tstUi_limited {s : State} {p : PortId} {n : Nat} (h : (s.port p).tst.limited = true)
    (hn : (s.port p).tst.uiLimit = n) : s.tstUi p = n :=
  (if_pos h).trans hn

/-! ### TST_CTRL START and STOP, and the limit (R222) -/

theorem exec_tstCtrlStart_starts {s : State} {p : PortId} (h : s.dieUp p.die = true ∨ s.inCarrier p.die = true) :
    exec (.tstCtrlStart p) s = .next (s.startRun p) := by
  show execTstCtrlStart p s = _
  exact if_pos (by simpa using h)

theorem exec_tstCtrlStop (s : State) (p : PortId) : exec (.tstCtrlStop p) s = .next (s.endRun p false) := rfl

theorem exec_testRunLimit_none {s : State} {p : PortId} (h : (s.port p).tst.uiLimit = 0) : exec (.testRunLimit p) s = .next s := by
  show execTestRunLimit p s = _
  exact if_pos h

theorem exec_testRunLimit_ends {s : State} {p : PortId} (h : (s.port p).tst.uiLimit ≠ 0) :
    exec (.testRunLimit p) s = .next (s.endRun p true) := by
  show execTestRunLimit p s = _
  exact if_neg h

/-! ### TEST_START (R223) -/

/-- The tray in which TEST_START begins its run: the present run quit, the port down, the test block as asked. -/
def State.testAsked (s : State) (p : PortId) (ctrl : Word) (limit : Nat) (user : Word) : State :=
  let v := (s.quitRun p).portIdle p
  v.setTst p ((v.port p).tst.ask ctrl limit user)

/-- A port made ready for a test: down, in the mode asked, no run under way, with all memory as it was. -/
theorem State.testAsked_leaves (s : State) (p : PortId) (ctrl : Word) (limit : Nat) (user : Word) :
    let v := s.testAsked p ctrl limit user
    (v.port p).link.st = .down ∧ (v.port p).tst.mode = ctrl.toNat % 8 ∧ (v.port p).tst.running = false ∧
      (v.port p).tst.uiLimit = limit ∧ (v.port p).tst.user = user ∧ s.memoryKept v := by
  have hquit : (s.quitRun p).dies = s.dies := (State.quitRun_only s p).agrees .dies (by decide)
  have hmem : s.memoryKept ((s.quitRun p).portIdle p) :=
    State.memoryKept_trans (fun k a => by rw [State.die_of_dies hquit]) (State.portIdle_memoryKept _ p)
  simp only [State.testAsked, State.setTst_port, Tst.ask_mode, Tst.ask_running, State.portIdle_tst]
  exact ⟨State.portIdle_down _ p, trivial, State.quitRun_stops s p, rfl, rfl, hmem⟩

theorem State.testAsked_awaits {s : State} {r : MReq} (h : s.awaits r) (p : PortId) (ctrl : Word) (limit : Nat) (user : Word) :
    (s.testAsked p ctrl limit user).awaits r :=
  State.portIdle_awaits (State.awaits_of_ports s _ ((State.quitRun_only s p).agrees .ports (by decide)) h) p

/-- A run begun after TEST_START's asking, in a mode other than OFF and CARRIER: what it leaves of the port and of all memory (R223). -/
theorem State.testStarted_leaves (s : State) (p : PortId) {ctrl : Word} (h0 : ctrl.toNat % 8 ≠ 0) (h4 : ctrl.toNat % 8 ≠ 4)
    (limit : Nat) (user : Word) :
    let t := (s.testAsked p ctrl limit user).startRun p
    (t.port p).link.st = .down ∧ (t.port p).tst.mode = ctrl.toNat % 8 ∧ (t.port p).tst.running = true ∧
      (t.port p).tst.uiLimit = limit ∧ (t.port p).tst.user = user ∧ s.memoryKept t ∧ ∀ r, s.awaits r → t.awaits r := by
  obtain ⟨hdown, hmode, hrun, hlimit, huser, hmem⟩ := State.testAsked_leaves s p ctrl limit user
  have hasked := fun r (h : s.awaits r) => State.testAsked_awaits h p ctrl limit user
  generalize s.testAsked p ctrl limit user = v at hdown hmode hrun hlimit huser hmem hasked ⊢
  intro t
  have ht : t = (v.setTst p ((v.port p).tst.start v.free v.now)).spend := by
    simp only [t, State.startRun_starts (by rwa [hmode]) hrun, if_neg (show ¬ (v.port p).tst.mode = 4 by rwa [hmode])]
  rw [ht]
  simp only [State.spend_port, State.setTst_port, Tst.start_mode, Tst.start_running]
  exact ⟨hdown, hmode, trivial, hlimit, huser, hmem, hasked⟩

/-- A request decided at once is awaited. -/
theorem State.decides.awaits {s : State} {r : MReq} {c : Cmd} {early : State → Option Nat} (h : s.decides r c early) :
    (s.atRequest r).awaits r := by
  obtain ⟨-, -, -, hawaits, -, -⟩ := h
  exact hawaits

section
variable {s : State} {r : MReq} {x : PRef} {p : PortId} (hp : (s.atRequest r).portRef x = some p)
include hp

section
variable {ctrl : Word} {limit : Nat} (h : s.decides r { opcode := 0x0A01, len := 20, need := .tray, acts := some 0 } noEarly)
  (hctrl : ctrl.toNat < 16384) (hlimit : limit < 2 ^ 48) (hpattern : ctrl.toNat / 8 % 16 < 8) (user : Word)
include h hctrl hlimit hpattern

theorem exec_testStart_planned (hmode : ctrl.toNat % 8 < 6) (hl : (s.atRequest r).planned p = true) :
    exec (.testStart r x ctrl limit user) s = .next ((s.atRequest r).reply r 0x0A01 ePortPlanned []) := by
  have hrange : ¬ (ctrl.toNat % 8 = 6 ∨ ctrl.toNat % 8 = 7 ∨ 8 ≤ ctrl.toNat / 8 % 16 ∨ 2 ^ 48 ≤ limit) := by omega
  show execTestStart r x ctrl limit user s = _
  simp only [execTestStart, State.serve_decides h, hp]
  rw [if_neg (Nat.not_le.2 hctrl), if_neg hrange, if_pos hl]

theorem exec_testStart_carrier (hl : (s.atRequest r).planned p = false) (hm : ctrl.toNat % 8 = 4) :
    exec (.testStart r x ctrl limit user) s = .next ((s.atRequest r).reply r 0x0A01 ePortTest []) := by
  have hrange : ¬ (ctrl.toNat % 8 = 6 ∨ ctrl.toNat % 8 = 7 ∨ 8 ≤ ctrl.toNat / 8 % 16 ∨ 2 ^ 48 ≤ limit) := by omega
  show execTestStart r x ctrl limit user s = _
  simp only [execTestStart, State.serve_decides h, hp]
  rw [if_neg (Nat.not_le.2 hctrl), if_neg hrange, if_neg (by simp [hl]), if_pos (.inl hm)]

theorem exec_testStart_starts (hl : (s.atRequest r).planned p = false)
    (hm : ctrl.toNat % 8 = 1 ∨ ctrl.toNat % 8 = 2 ∨ ctrl.toNat % 8 = 5) :
    exec (.testStart r x ctrl limit user) s =
      .next ((((s.atRequest r).testAsked p ctrl limit user).startRun p).reply r 0x0A01 0 []) := by
  have hrange : ¬ (ctrl.toNat % 8 = 6 ∨ ctrl.toNat % 8 = 7 ∨ 8 ≤ ctrl.toNat / 8 % 16 ∨ 2 ^ 48 ≤ limit) := by omega
  have htray : ¬ (ctrl.toNat % 8 = 4 ∨ ctrl.toNat % 8 = 3 ∧ (s.atRequest r).peerFar p = true) := by omega
  have hoff : ¬ ctrl.toNat % 8 = 0 := by omega
  show execTestStart r x ctrl limit user s = _
  simp only [execTestStart, State.serve_decides h, hp]
  rw [if_neg (Nat.not_le.2 hctrl), if_neg hrange, if_neg (by simp [hl]), if_neg htray, if_neg hoff]
  rfl

end

/-! ### TEST_STOP, TEST_READ (R222, R223) -/

theorem exec_testStop (h : s.decides r { opcode := 0x0A02, len := 4, need := .tray, acts := some 0 } noEarly) :
    exec (.testStop r x) s = .next (((s.atRequest r).endRun p false).reply r 0x0A02 0 []) := by
  show execTestStop r x s = _
  simp only [execTestStop, State.serve_decides h, hp]

theorem exec_testRead_beyond (h : s.decides r { opcode := 0x0A03, len := 8 } noEarly) {lane : Nat}
    (hl : (s.atRequest r).testLanes p ≤ lane) : exec (.testRead r x lane) s = .next ((s.atRequest r).reply r 0x0A03 eArgRange []) := by
  show execTestRead r x lane s = _
  simp only [execTestRead, State.serve_decides h, hp]
  rw [if_pos hl]

end

/-- The registers a response of TEST_READ holds for a lane, the eye map's first 1,013 entries last (Table 10.6; log entry 60). -/
def State.testBody (s : State) (p : PortId) (lane : Nat) : List Byte :=
  le 4 (s.tstCtrl p) ++ le 8 (s.tstUi p) ++ le 4 (s.tstErr p lane) ++ le 4 (s.tstLockWord p (lane / 32)) ++ le 4 (s.tstFlitFail p) ++
    le 4 (s.tstCorr p) ++ (List.range 1013).flatMap fun k => le 4 (s.tstEye p k)

theorem State.length_testBody (s : State) (p : PortId) (lane : Nat) : (s.testBody p lane).length = 4080 := by
  have heye : ((List.range 1013).flatMap fun k => le 4 (s.tstEye p k)).length = 4052 := by
    simp only [List.length_flatMap, length_le, List.map_const', List.sum_replicate_nat, List.length_range]
  simp only [State.testBody, List.length_append, length_le, heye]

theorem State.take_testBody (s : State) (p : PortId) (lane : Nat) : (s.testBody p lane).take 4 = le 4 (s.tstCtrl p) := by
  simp only [State.testBody, List.append_assoc]
  exact List.take_left' (length_le 4 _)

theorem exec_testRead_reads {s : State} {r : MReq} {x : PRef} {p : PortId} (hp : (s.atRequest r).portRef x = some p)
    (h : s.decides r { opcode := 0x0A03, len := 8 } noEarly) {lane : Nat} (hl : lane < (s.atRequest r).testLanes p) :
    exec (.testRead r x lane) s = .next ((s.atRequest r).reply r 0x0A03 0 ((s.atRequest r).testBody p lane)) := by
  show execTestRead r x lane s = _
  simp only [execTestRead, State.serve_decides h, hp]
  rw [if_neg (Nat.not_le.2 hl)]
  rfl

/-! ### REPAIR_CLEAR (R224) -/

/-- A port's soft retirements leave the Watermaster's records. -/
def State.clearSoft (s : State) (p : PortId) : State :=
  s.onWm fun w =>
    { w with soft := w.soft.filter fun e => !(decide (e.key.uid = (s.die p.die).ident.uid) && decide (e.key.port = p.port.val)) }

theorem State.clearSoft_only (s : State) (p : PortId) : s.onlyChanges (s.clearSoft p) [.wm] := State.onWm_only s _

theorem State.mem_clearSoft (s : State) (p : PortId) (e : SoftRet) :
    e ∈ (s.clearSoft p).wm.soft ↔ e ∈ s.wm.soft ∧ ¬ (e.key.uid = (s.die p.die).ident.uid ∧ e.key.port = p.port.val) := by
  refine List.mem_filter.trans ?_
  simp only [Bool.not_eq_true', ← Bool.not_eq_true, Bool.and_eq_true, decide_eq_true_eq]

/-- The ports there are follow from the span alone (R263). -/
theorem State.portRef_congr {s t : State} (h : t.span = s.span) (x : PRef) : t.portRef x = s.portRef x := by
  have htrays : t.trays = s.trays := by rw [State.trays, State.trays, h]
  have hdie : t.dieRef x.tray x.die = s.dieRef x.tray x.die := by rw [State.dieRef, State.dieRef, htrays]
  rw [State.portRef, State.portRef, hdie]

theorem State.repairPorts_of_port {s : State} {x : PRef} {p : PortId} (hp : s.portRef x = some p) (hx : x.port ≠ 0xFF) :
    s.repairPorts x = some [p] := by
  rw [State.repairPorts, if_neg hx, hp]
  rfl

/-- A PORTREF that names a port gets no status at once from REPAIR_CLEAR. -/
theorem State.decides_repairClear {s : State} {r : MReq} {x : PRef} {p : PortId} {c : Cmd} (h : s.decides r c noEarly)
    (hp : (s.atRequest r).portRef x = some p) (hx : x.port ≠ 0xFF) :
    s.decides r c fun u => if (u.repairPorts x).isNone then some eArgRange else none := by
  obtain ⟨hlive, hchecks, -, hawaits, hacts, hwm⟩ := h
  have hspan : (s.atRequest r).span = (s.arrived r).span := (State.tokenBeat_only _ _).agrees .span (by decide)
  have hports : (s.arrived r).repairPorts x = some [p] :=
    State.repairPorts_of_port ((State.portRef_congr hspan x).symm.trans hp) hx
  exact ⟨hlive, hchecks, by simp [hports], hawaits, hacts, hwm⟩

theorem exec_repairClear {s : State} {r : MReq} {x : PRef} {p : PortId} (hp : (s.atRequest r).portRef x = some p) (hx : x.port ≠ 0xFF)
    (h : s.decides r { opcode := 0x0A04, len := 4, expert := true, need := .tray, acts := some 0, wm := true } noEarly) :
    exec (.repairClear r x) s = .next (((s.atRequest r).clearSoft p).reply r 0x0A04 0 []) := by
  show execRepairClear r x s = _
  simp only [execRepairClear, State.serve_decides (State.decides_repairClear h hp hx), State.repairPorts_of_port hp hx, State.clearSoft,
    List.any_cons, List.any_nil, Bool.or_false]

end Sys2Proof.Machine

open Sys2Proof Sys2Proof.Machine

/-- Settles O24: each outcome of the commands has its lemma above; `State.testStarted_leaves`, `State.endRun_stops` and
`State.endRun_leaves` say what a run that starts or ends leaves. -/
theorem testRuns : Obligations.TestRuns := by
  unfold Obligations.TestRuns
  intro s r x q u hq
  refine ⟨fun ctrl limit user h hctrl hlimit hpattern hmode => ⟨exec_testStart_planned hq h hctrl hlimit hpattern user hmode,
      exec_testStart_carrier hq h hctrl hlimit hpattern user, fun hl hm => ?_⟩, fun h => ?_,
    fun lane h => ⟨exec_testRead_beyond hq h, fun hl => ?_⟩, fun h hx => ?_, fun hup hm hr => ?_, fun hr => ?_,
    fun hr => ⟨fun hl => ?_, exec_testRunLimit_none⟩⟩
  · obtain ⟨hdown, hmode, hrun, hlim, huser, hmem, hawaits⟩ :=
      State.testStarted_leaves u q (ctrl := ctrl) (by omega) (by omega) limit user
    refine ⟨_, exec_testStart_starts hq h hctrl hlimit hpattern user hl hm, State.reply_answered (hawaits r h.awaits) .., ?_⟩
    rw [State.reply_port]
    exact ⟨hdown, hmode, hrun, hlim, huser, fun k a => by rw [State.reply_die]; exact hmem k a⟩
  · obtain ⟨hrun, hmode, hothers⟩ := State.endRun_stops u q false
    have honly := State.endRun_only u q false
    have hawaits := State.awaits_of_ports u _ (honly.agrees .ports (by decide)) h.awaits
    refine ⟨_, exec_testStop hq h, State.reply_answered hawaits .., ?_⟩
    rw [State.reply_port]
    exact ⟨hrun, hmode, fun p hp => (State.reply_port ..).trans (hothers p hp),
      only_step (State.reply_only ..) (by decide) (only_step honly (by decide) (only_refl u _))⟩
  · exact ⟨_, State.length_testBody u q lane, State.take_testBody u q lane, exec_testRead_reads hq h hl⟩
  · have honly := State.clearSoft_only u q
    have hawaits := State.awaits_of_ports u _ (honly.agrees .ports (by decide)) h.awaits
    refine ⟨(u.clearSoft q).reply r 0x0A04 0 [], exec_repairClear hq hx h, State.reply_answered hawaits .., fun e => ?_,
      (State.reply_links ..).trans (honly.agrees .links (by decide)),
      only_step (State.reply_only ..) (by decide) (only_step honly (by decide) (only_refl u _))⟩
    rw [State.reply_wm]
    exact State.mem_clearSoft u q e
  · refine ⟨_, exec_tstCtrlStart_starts hup, ?_, ?_, ?_, ?_, State.startRun_otherPorts hm hr⟩ <;> rw [State.startRun_tst hm hr]
    · exact Tst.start_running ..
    · exact Tst.start_done ..
    · rfl
    · rfl
  · obtain ⟨htst, hothers⟩ := State.endRun_leaves hr false
    refine ⟨_, exec_tstCtrlStop s q, ?_, ?_, hothers, State.endRun_only s q false⟩ <;> rw [htst]
    · simp
    · exact Tst.finish_done ..
  · obtain ⟨htst, hothers⟩ := State.endRun_leaves hr true
    refine ⟨_, exec_testRunLimit_ends hl, ?_, ?_, State.tstUi_limited ?_ ?_, hothers, State.endRun_only s q true⟩ <;> rw [htst]
    · simp
    · rfl
    · rfl
    · rfl
end

section
/-! PROOF. A switch whose last die finds a packet still waiting for its slots (O26): the switch ends and the new plan is active, but its
first step gives the packet no slots, and the step overrun (R71) contains the field and closes its gates again (R389). -/

namespace Sys2Proof.Machine

/-- KP0-C0, the only die of the field. -/
def overrunDie : DieId := ⟨0, 0, 1⟩

/-- The incoming plan: one step, which has no slot set. -/
def overrunPlan : Plan := { id := 1, steps := [{ lens := [65536] }], entries := [⟨0, 0, 0⟩] }

/-- A packet of the outgoing plan for the link of port 0. -/
def overrunPacket : Packet :=
  { tag := 0, channel := 0, half := false, pair := false, dest := 0, src := 0, kind := 0, poison := false, egress := 1, order := false,
    payload := 0 }

/-- The tailwater switch to the staged plan, under way on every die. -/
def overrunSwitch : Switch := { form := .tailwater, since := 0 }

/-- The switch step the launch of ring entry 0 waits for; its end has come. -/
def overrunRun : Running := switchRun 0 0 0 true

/-- F1 in the switch step; ring entry 0 is VALID and names the incoming plan, which accepts it. -/
def overrunField : Field :=
  { st := .enabled, dies := [overrunDie], active := some {}, staged := some overrunPlan, ring := [(2, 1), (8, 1)], prod := 1, taken := 1,
    switch := some overrunSwitch, run := some overrunRun }

/-- The tray with F1 in its switch step and the packet in the egress entries of port 0. -/
def overrunState : State :=
  { fields := [(0, overrunField)]
    links := [((⟨overrunDie, 0⟩ : PortId).key,
      { resetPort ⟨overrunDie, 0⟩ with planned := { egress := [{ chan := 0, packet := overrunPacket }] } })] }

/-- What a command makes of F1, where it answers a next state. -/
def Out.firstField (o : Out) : Option Field :=
  match o with
  | .next v => some (v.field 0)
  | _ => none

/-- The switch has ended with the plan active, and the step overrun of the new launch's first step is being contained. -/
theorem exec_switchStepEnd_overrun :
    (Out.firstField (exec (.switchStepEnd 0 overrunDie 0) overrunState)).map (fun x => (x.active, x.switch, x.flush, x.stepClosed)) =
      some (some overrunPlan, none, some (.contain, 0), true) := by
  decide +kernel

/-- The step gate is closed in whatever state follows. -/
theorem exec_switchStepEnd_overrun_shut {v : State} (hv : exec (.switchStepEnd 0 overrunDie 0) overrunState = .next v) :
    (v.field 0).stepClosed = true := by
  have hfield := exec_switchStepEnd_overrun
  rw [hv] at hfield
  simp only [Out.firstField, Option.map_some, Option.some.injEq, Prod.mk.injEq] at hfield
  obtain ⟨-, -, -, hshut⟩ := hfield
  exact hshut

end Sys2Proof.Machine

open Sys2Proof Sys2Proof.Machine

/-- Refutes O26: the gates need not be open after a switch that ends in good order. Where the first step of the new launch gives no slots
to a packet that waits at a port, the launch's start overruns the step (R71), and the field is contained with its gates closed (R389). -/
theorem not_switchesDrainsAndFlushesEnd : ¬ Obligations.SwitchesDrainsAndFlushesEnd := by
  unfold Obligations.SwitchesDrainsAndFlushesEnd
  rintro ⟨hswitch, -⟩
  obtain ⟨hgood, -⟩ := hswitch overrunState 0 overrunDie 0 overrunSwitch rfl (by decide) rfl
  obtain ⟨hend, -⟩ := hgood overrunPlan rfl (by decide) (by decide)
  obtain ⟨-, hlast⟩ := hend overrunRun rfl rfl rfl (by decide) rfl rfl rfl
  obtain ⟨v, hv, -, -, hopen, -⟩ := hlast (by decide)
  exact absurd hopen (by simp [exec_switchStepEnd_overrun_shut hv])
end

section
/-! PROOF. The launch commands (O11): what beginning a switch, a drain or a reload leaves, and what a change that is given up leaves; then
one lemma for each outcome of PLAN_ACTIVATE, PLAN_RELOAD, LAUNCH_CANCEL and LAUNCH_RESUME. -/

namespace Sys2Proof.Machine

/-! ### One field changes -/

/-- Of the fields `f` alone changes, to `x`, and of the parts of the state at most those listed. -/
structure State.fieldBecomes (s t : State) (f : Fin 8) (x : Field) (l : List Part) : Prop where
  field : t.field f = x
  others : s.otherFields t f
  only : s.onlyChanges t l

theorem State.field_of_fields {s t : State} (h : t.fields = s.fields) (g : Fin 8) : t.field g = s.field g := by
  simp only [State.field, h]

theorem State.setField_setField (s : State) (f : Fin 8) (x y : Field) : (s.setField f x).setField f y = s.setField f y := by
  simp only [State.setField, NMap.set_set]

theorem State.setField_becomes (s : State) (f : Fin 8) (x : Field) : s.fieldBecomes (s.setField f x) f x [.fields] :=
  ⟨State.setField_field_same .., fun _ hg => State.setField_field_other _ _ _ _ hg.symm, State.setField_only s f x⟩

section
variable {s u t : State} {f : Fin 8} {x y : Field} {k l m : List Part} (h : s.fieldBecomes u f x k)
include h

theorem State.fieldBecomes_trans (g : u.fieldBecomes t f y l) (hk : ∀ p ∈ k, p ∈ m) (hl : ∀ p ∈ l, p ∈ m) : s.fieldBecomes t f y m :=
  ⟨g.field, fun n hn => (g.others n hn).trans (h.others n hn), only_step g.only hl (only_step h.only hk (only_refl s m))⟩

/-- What then leaves every field leaves the field so. -/
theorem State.fieldBecomes_step (g : u.onlyChanges t l) (hk : ∀ p ∈ k, p ∈ m) (hl : ∀ p ∈ l, p ∈ m) (hf : .fields ∉ l) :
    s.fieldBecomes t f x m :=
  have hfields := State.field_of_fields (g.agrees .fields hf)
  State.fieldBecomes_trans h ⟨(hfields f).trans h.field, fun n _ => hfields n, g⟩ hk hl

end

/-! ### Switches, drains and reloads begin (R234, R237, R238, R241) -/

theorem State.startSwitch_becomes (s : State) (f : Fin 8) (form : Form) (staged : Bool) :
    s.fieldBecomes (s.startSwitch f form staged) f
      { s.field f with switch := some { form := form, since := s.now, staged := staged }, reloadDue := none } [.fields, .dies] :=
  State.fieldBecomes_step (l := [.dies]) (State.setField_becomes s f _)
    (only_forEach (only_refl _ _) fun _ _ hv =>
      only_step (State.streamBlock_only ..) (by decide) (only_step (State.onDie_only ..) (by decide) hv))
    (by decide) (by decide) (by decide)

theorem State.startDrain_becomes (s : State) (f : Fin 8) (why : Why) :
    s.fieldBecomes (s.startDrain f why) f { s.field f with drain := some (why, s.now) } [.fields, .dies] :=
  State.fieldBecomes_step (State.setField_becomes s f _) (State.startWave_only ..) (by decide) (by decide) (by decide)

/-- A reload begins with the three headgates closed and the drain under way. -/
theorem State.startReload_becomes (s : State) (f : Fin 8) (staged : Bool) :
    s.fieldBecomes (s.startReload f staged) f { (s.field f).shut with switch := none, drain := some (.reload staged, s.now) }
      [.fields, .dies] := by
  have hdrain := State.startDrain_becomes (s.setField f { (s.field f).shut with switch := none }) f (.reload staged)
  rw [State.setField_field_same] at hdrain
  exact State.fieldBecomes_trans (State.setField_becomes s f _) hdrain (by decide) (by decide)

/-! ### PLAN_ACTIVATE and PLAN_RELOAD (R230, R237-R239) -/

@[simp] theorem chanField_fscope (f : Fin 8) : chanField (fscope f) = some f := dif_pos (Nat.le_add_left 1 f.val)

/-- A field whose scope an activation or a reload holds; its next launch starts no sooner than 100 us from now. -/
def Field.heldForSwitch (x : Field) (w : Waiting) (now : Nat) : Field :=
  { x with notBefore := now + leadTime, ended := none, holder := some w }

/-- The tray where a command of a field holds its scope for a switch. -/
def State.holdForSwitch (s : State) (f : Fin 8) (r : MReq) (opcode : Nat) : State :=
  (s.onField f fun x => { x with notBefore := s.leadTally f + leadTime, ended := none }).holdField f r opcode

theorem State.holdForSwitch_becomes (s : State) (f : Fin 8) (r : MReq) (opcode : Nat) :
    s.fieldBecomes (s.holdForSwitch f r opcode) f ((s.field f).heldForSwitch ⟨r, opcode⟩ (s.leadTally f)) [.fields] := by
  rw [State.holdForSwitch, State.holdField, State.onField_eq, State.onField_eq, State.setField_field_same, State.setField_setField]
  exact State.setField_becomes s f _

/-- The command holds the scope and a still-water switch to the staged plan begins. -/
theorem State.stillWater_leaves (s : State) (f : Fin 8) (r : MReq) :
    let t := (s.holdForSwitch f r 0x0403).startSwitch f .still true
    (t.field f).switch = some { form := .still, since := s.now, staged := true } ∧ (t.field f).holder = some ⟨r, 0x0403⟩ ∧
      s.otherFields t f ∧ s.onlyChanges t [.fields, .dies] := by
  intro t
  have hheld := State.holdForSwitch_becomes s f r 0x0403
  obtain ⟨hfield, hothers, honly⟩ : s.fieldBecomes t f _ [.fields, .dies] :=
    State.fieldBecomes_trans hheld (State.startSwitch_becomes _ f .still true) (by decide) (by decide)
  rw [hheld.field] at hfield
  rw [hfield]
  exact ⟨rfl, rfl, hothers, honly⟩

/-- The command holds the scope and a reload begins. -/
theorem State.reload_leaves (s : State) (f : Fin 8) (r : MReq) (opcode : Nat) (staged : Bool) :
    let t := (s.holdForSwitch f r opcode).startReload f staged
    (t.field f).drain = some (.reload staged, s.now) ∧ (t.field f).ringClosed = true ∧ (t.field f).stepClosed = true ∧
      (t.field f).sideClosed = true ∧ (t.field f).holder = some ⟨r, opcode⟩ ∧ s.otherFields t f ∧ s.onlyChanges t [.fields, .dies] := by
  intro t
  have hheld := State.holdForSwitch_becomes s f r opcode
  obtain ⟨hfield, hothers, honly⟩ : s.fieldBecomes t f _ [.fields, .dies] :=
    State.fieldBecomes_trans hheld (State.startReload_becomes _ f staged) (by decide) (by decide)
  rw [hheld.field] at hfield
  rw [hfield]
  exact ⟨rfl, rfl, rfl, rfl, rfl, hothers, honly⟩

section
variable {s u : State} {r : MReq} {f : Fin 8} (hu : s.atRequest r = u) (hf : r.chan = fscope f)
include hu hf

section
variable (h : s.decides r (planCmd r 0x0403 0) fun v => v.refuses (some f) false)
include h

theorem exec_planActivate_empty (hp : (u.field f).staged = none) :
    exec (.planActivate r) s = .next (u.reply r 0x0403 eNoStaged []) := by
  show execPlanActivate r s = _
  simp only [execPlanActivate, hf, chanField_fscope, State.serve_decides h, hu, hp]

variable {p : Plan} (hp : (u.field f).staged = some p)
include hp

theorem exec_planActivate_busy (hn : (u.field f).inFlight ≠ 0) :
    exec (.planActivate r) s = .next (u.reply r 0x0403 eFieldBusy []) := by
  show execPlanActivate r s = _
  simp only [execPlanActivate, hf, chanField_fscope, State.serve_decides h, hu, hp]
  rw [if_pos hn]

variable (hn : (u.field f).inFlight = 0)
include hn

theorem exec_planActivate_stale (hs : p.stale = true) :
    exec (.planActivate r) s = .next (u.reply r 0x0403 ePlanLedger (deficitBytes (u.ledgerDeficits p))) := by
  show execPlanActivate r s = _
  simp only [execPlanActivate, hf, chanField_fscope, State.serve_decides h, hu, hp]
  rw [if_neg (not_not_intro hn), if_pos hs]

variable (hs : p.stale = false)
include hs

theorem exec_planActivate_still (hfit : p.fastFits = true) (hd : ∀ d ∈ (u.field f).dies, u.dieDrained d = true) :
    exec (.planActivate r) s = .next ((u.holdForSwitch f r 0x0403).startSwitch f .still true) := by
  show execPlanActivate r s = _
  simp only [execPlanActivate, hf, chanField_fscope, State.serve_decides h, hu, hp]
  rw [if_neg (not_not_intro hn), if_neg (by simp [hs]), if_pos ⟨hfit, List.all_eq_true.2 hd⟩]
  rfl

theorem exec_planActivate_reload (hfit : p.fastFits = false) :
    exec (.planActivate r) s = .next ((u.holdForSwitch f r 0x0403).startReload f true) := by
  show execPlanActivate r s = _
  simp only [execPlanActivate, hf, chanField_fscope, State.serve_decides h, hu, hp]
  rw [if_neg (not_not_intro hn), if_neg (by simp [hs]), if_neg (by simp [hfit])]
  rfl

end

section
variable {pos : Nat} (hpos : pos ≤ 1) (h : s.decides r (planCmd r 0x0404 4) fun v => v.refuses (some f) false)
include hpos h

theorem exec_planReload_empty (hp : (u.field f).planAt pos = none) :
    exec (.planReload r pos) s = .next (u.reply r 0x0404 eNoStaged []) := by
  show execPlanReload r pos s = _
  simp only [execPlanReload, hf, chanField_fscope, if_neg (Nat.not_lt.2 hpos), State.serve_decides h, hu, hp]

variable {p : Plan} (hp : (u.field f).planAt pos = some p)
include hp

theorem exec_planReload_busy (hr : (u.field f).run.isSome = true) :
    exec (.planReload r pos) s = .next (u.reply r 0x0404 eFieldBusy []) := by
  show execPlanReload r pos s = _
  simp only [execPlanReload, hf, chanField_fscope, if_neg (Nat.not_lt.2 hpos), State.serve_decides h, hu, hp]
  rw [if_pos hr]

theorem exec_planReload_reloads (hr : (u.field f).run = none) (hs : pos = 1 ∨ p.stale = false) :
    exec (.planReload r pos) s = .next ((u.holdForSwitch f r 0x0404).startReload f (decide (pos = 0))) := by
  have hfresh : ¬ (pos = 0 ∧ p.stale = true) := by
    rintro ⟨rfl, hstale⟩
    exact hs.elim (absurd · (by decide)) fun hfalse => absurd (hstale.symm.trans hfalse) (by decide)
  show execPlanReload r pos s = _
  simp only [execPlanReload, hf, chanField_fscope, if_neg (Nat.not_lt.2 hpos), State.serve_decides h, hu, hp]
  rw [if_neg (by simp [hr]), if_neg hfresh]
  rfl

end

/-! ### LAUNCH_CANCEL (R244) -/

theorem exec_launchCancel_range {idx : Nat} {all : Bool} {seq : Half} (h : s.decides r (planCmd r 0x0405 4) noEarly)
    (hall : all = false) (hi : 64 ≤ idx ∨ fieldAt ((u.field f).entryBytes idx) 0 2 ≠ seq.toNat) :
    exec (.launchCancel r idx all seq) s = .next (u.reply r 0x0405 eArgRange []) := by
  show execLaunchCancel r idx all seq s = _
  simp only [execLaunchCancel, hf, chanField_fscope, State.serve_decides h, hu]
  rw [if_pos ⟨by simp [hall], hi⟩]

end

/-- Every launch of a field is cancelled: the running one stops at its next boundary, each that waits in the ring is marked. -/
def Field.cancelAll (x : Field) (q : Running) : Field :=
  { x with cancels := (x.cancels ++ (List.range 64).filter x.waitsInRing).eraseDups, run := some { q with cancel := true } }

@[simp] theorem Field.cancelAll_run (x : Field) (q : Running) : (x.cancelAll q).run = some { q with cancel := true } := rfl
@[simp] theorem Field.cancelAll_ring (x : Field) (q : Running) : (x.cancelAll q).ring = x.ring := rfl

theorem Field.mem_cancelAll {x : Field} {i : Nat} (q : Running) (hi : i < 64) (hw : x.waitsInRing i = true) :
    i ∈ (x.cancelAll q).cancels :=
  List.mem_eraseDups.2 (List.mem_append_right _ (List.mem_filter.2 ⟨List.mem_range.2 hi, hw⟩))

theorem exec_launchCancel_all {s u : State} {r : MReq} {f : Fin 8} (hu : s.atRequest r = u) (hf : r.chan = fscope f) {idx : Nat}
    {all : Bool} {seq : Half} {q : Running} (h : s.decides r (planCmd r 0x0405 4) noEarly) (hall : all = true)
    (hq : (u.field f).run = some q) (hz : (u.field f).frozen = false) :
    exec (.launchCancel r idx all seq) s = .next ((u.setField f ((u.field f).cancelAll q)).reply r 0x0405 0 []) := by
  show execLaunchCancel r idx all seq s = _
  simp only [execLaunchCancel, hf, chanField_fscope, State.serve_decides h, hu, hall]
  rw [if_neg (by simp)]
  simp [State.cancelRun, hq, hz, State.setField_setField, Field.cancelAll]

/-! ### A change is given up (R300) -/

section
variable {β : Type} (v : Die → β) (hv : ∀ (x : Die) pow, v { x with pow := pow } = v x)
include hv

theorem State.commandMv_die_keeps (s : State) (d : DieId) (mv rung : Nat) (k : DieId) :
    v ((s.commandMv d mv rung).die k) = v (s.die k) := by
  unfold State.commandMv
  split
  · exact State.setDie_die_keeps v (hv _ _) k
  · split
    · rfl
    · exact State.setDie_die_keeps v (hv _ _) k

/-- The rails that return to their targets are all that a given-up change moves on the dies. -/
theorem State.abandonChange_die_keeps (s : State) (f : Fin 8) (k : DieId) : v ((s.abandonChange f).die k) = v (s.die k) := by
  unfold State.abandonChange
  extract_lets x
  split
  · split
    · exact State.forEach_keeps _ _ _ (fun u => v (u.die k)) fun u d _ => State.commandMv_die_keeps v hv u d _ _ k
    · rfl
  · rfl

end

theorem State.abandonChange_becomes (s : State) (f : Fin 8) :
    s.fieldBecomes (s.abandonChange f) f { s.field f with change := none } [.fields, .dies] := by
  unfold State.abandonChange
  extract_lets x given
  split
  next c _ =>
    have hgiven := State.setField_becomes s f { s.field f with change := none }
    split
    · exact State.fieldBecomes_step (l := [.dies]) hgiven
        (only_forEach (only_refl _ _) fun _ _ hv => only_step (State.commandMv_only ..) (by decide) hv) (by decide) (by decide) (by decide)
    · exact State.fieldBecomes_step (l := []) hgiven (only_refl _ _) (by decide) (by decide) (by decide)
  next hnone =>
    have hsame : s.field f = { s.field f with change := none } := by rw [← hnone]
    exact ⟨hsame, fun _ _ => rfl, only_refl s _⟩

/-- The lead die's tally is as it was where the field's dies and their tallies are. -/
theorem State.leadTally_congr {s t : State} {f : Fin 8} (hd : (t.field f).dies = (s.field f).dies)
    (ht : ∀ k, (t.die k).tally = (s.die k).tally) : t.leadTally f = s.leadTally f := by
  simp only [State.leadTally, Field.lead, State.tallyOf, hd, ht]

/-! ### LAUNCH_RESUME (R105, R106, R168) -/

section
variable {s u : State} {r : MReq} {f : Fin 8} (hu : s.atRequest r = u) (hf : r.chan = fscope f)
  (h : s.decides r (planCmd r 0x0407 0) noEarly)
include hu hf h

theorem exec_launchResume_unfrozen (hz : (u.field f).frozen = false) :
    exec (.launchResume r) s = .next (u.reply r 0x0407 eFieldState []) := by
  show execLaunchResume r s = _
  simp only [execLaunchResume, hf, chanField_fscope, State.serve_decides h, hu]
  rw [if_pos (by simp [hz])]

variable (hz : (u.field f).frozen = true)
include hz

theorem exec_launchResume_split (hsplit : (u.field f).split = true) :
    exec (.launchResume r) s = .next (u.reply r 0x0407 eSluiceSplit []) := by
  show execLaunchResume r s = _
  simp only [execLaunchResume, hf, chanField_fscope, State.serve_decides h, hu]
  rw [if_neg (by simp [hz]), if_pos hsplit]

/-- The resume tally is named in place of whatever change was on its way. -/
theorem exec_launchResume_names (hsplit : (u.field f).split = false) (hp : ∀ p, (u.field f).resumePlan = some p → p.stale = false)
    (hq : ∀ q, (u.field f).run = some q → q.kind ≠ .switch) :
    exec (.launchResume r) s = .next (((u.abandonChange f).nameChange f .resume).reply r 0x0407 0
      (le 8 ((u.abandonChange f).named f .resume).boundary)) := by
  have hfresh : (u.field f).resumePlan.filter (fun p => p.stale) = none := by
    cases hplan : (u.field f).resumePlan with
    | none => rfl
    | some p => simp [hp p hplan]
  have hnamed : (((u.abandonChange f).nameChange f .resume).field f).change = some ((u.abandonChange f).named f .resume) := by
    obtain ⟨hfield, -⟩ := State.nameChange_leaves (u.abandonChange f) f .resume
    rw [hfield]
  show execLaunchResume r s = _
  simp only [execLaunchResume, hf, chanField_fscope, State.serve_decides h, hu, hfresh]
  rw [if_neg (by simp [hz]), if_neg (by simp [hsplit])]
  cases hrun : (u.field f).run with
  | none => simp only [hnamed]
  | some q => simp only [if_neg (hq q hrun), hnamed]

end

/-- A change named in place of another leaves the field's dies, the other fields and all memory, and lies 100 us ahead. -/
theorem State.renamed_leaves (s : State) (f : Fin 8) (k : ChangeKind) :
    let t := (s.abandonChange f).nameChange f k
    let c := (s.abandonChange f).named f k
    (t.field f).change = some c ∧ (t.field f).dies = (s.field f).dies ∧ s.leadTally f + 100000 ≤ c.boundary ∧ s.otherFields t f ∧
      s.memoryKept t ∧ t.ports = s.ports := by
  intro t c
  obtain ⟨hfield, hothers, honly⟩ := State.abandonChange_becomes s f
  obtain ⟨hnamed, hrest, hfree⟩ : (t.field f = { (s.abandonChange f).field f with change := some c }) ∧ _ :=
    State.nameChange_leaves (s.abandonChange f) f k
  have htally : (s.abandonChange f).leadTally f = s.leadTally f :=
    State.leadTally_congr (by rw [hfield]) (State.abandonChange_die_keeps Die.tally (fun _ _ => rfl) s f)
  have hdies : ∀ d, t.die d = (s.abandonChange f).die d := State.die_of_dies (hfree.agrees .dies (by decide))
  refine ⟨?_, ?_, ?_, fun g hg => (hrest g hg).trans (hothers g hg), State.memoryKept_of_mem fun d => ?_, ?_⟩
  · rw [hnamed]
  · rw [hnamed, hfield]
  · rw [← htally]
    exact State.named_boundary _ f k
  · rw [hdies]
    exact State.abandonChange_die_keeps Die.mem (fun _ _ => rfl) s f d
  · exact (hfree.agrees .ports (by decide)).trans (honly.agrees .ports (by decide))

end Sys2Proof.Machine

open Sys2Proof Sys2Proof.Machine

/-- Settles O11: each outcome of the four commands has its lemma above; `State.stillWater_leaves` and `State.reload_leaves` say what a
switch or reload begins with, and `State.renamed_leaves` what naming the resume tally leaves. -/
theorem launchCommands : Obligations.LaunchCommands := by
  unfold Obligations.LaunchCommands
  constructor
  case left =>
    intro s r f u hf
    refine ⟨fun h => ⟨exec_planActivate_empty rfl hf h, fun p hp => ⟨exec_planActivate_busy rfl hf h hp,
        exec_planActivate_stale rfl hf h hp, fun hn hs hfit hd => ?_, fun hn hs hfit => ?_⟩⟩,
      fun pos hpos h => ⟨exec_planReload_empty rfl hf hpos h, fun p hp => ⟨exec_planReload_busy rfl hf hpos h hp, fun hr hs => ?_⟩⟩⟩
    · exact ⟨_, exec_planActivate_still rfl hf h hp hn hs hfit hd, State.stillWater_leaves u f r⟩
    · exact ⟨_, exec_planActivate_reload rfl hf h hp hn hs hfit, State.reload_leaves u f r 0x0403 true⟩
    · exact ⟨_, exec_planReload_reloads rfl hf hpos h hp hr hs, State.reload_leaves u f r 0x0404 _⟩
  case right =>
    intro s r f u hf
    refine ⟨fun idx all seq h => ⟨exec_launchCancel_range rfl hf h, fun q hall hq hz => ?_⟩,
      fun h => ⟨exec_launchResume_unfrozen rfl hf h, exec_launchResume_split rfl hf h, fun hz hsplit hp hq => ?_⟩⟩
    · obtain ⟨hfield, hothers, honly⟩ := State.setField_becomes u f ((u.field f).cancelAll q)
      have hawaits := State.awaits_of_ports u _ (honly.agrees .ports (by decide)) h.awaits
      refine ⟨_, exec_launchCancel_all rfl hf h hall hq hz, ?_⟩
      rw [State.reply_field, hfield]
      exact ⟨Field.cancelAll_run .., fun i => Field.mem_cancelAll q, Field.cancelAll_ring .., State.reply_answered hawaits ..,
        fun g hg => (State.reply_field ..).trans (hothers g hg),
        only_step (State.reply_only ..) (by decide) (only_step honly (by decide) (only_refl u _))⟩
    · obtain ⟨hchange, hdies, hahead, hothers, hmem, hports⟩ := State.renamed_leaves u f .resume
      have hawaits := State.awaits_of_ports u _ hports h.awaits
      refine ⟨_, (u.abandonChange f).named f .resume, exec_launchResume_names rfl hf h hz hsplit hp hq, ?_⟩
      rw [State.reply_field]
      exact ⟨hchange, rfl, hdies.symm, hahead, State.reply_answered hawaits ..,
        fun g hg => (State.reply_field ..).trans (hothers g hg), fun d a => by rw [State.reply_die]; exact hmem d a⟩
end

section
/-! PROOF. A resize whose closed account ends a request under a TAG that two fields use at once (O8): the report of the loss names the field
of the first request under that TAG, and where it is nested it contains that field (R197, R289, R399). -/

namespace Sys2Proof.Machine

/-- KP0-C0, the only die of F2, and KP0-C1, which F2 does not hold. -/
def sharedDie : DieId := ⟨0, 0, 1⟩
def farDie : DieId := ⟨0, 0, 2⟩

/-- The new layout of F2: the same die, half the window. -/
def halvedBody : FieldBody := { field := 2, masks := [2, 0, 0, 0], w := 0x4000000, h := 0x4000000, hold := 0 }

/-- F2 in its resize, with the released half of its window to scrub. -/
def halvedField : Field :=
  { st := .changing, back := .enabled, dies := [sharedDie], w := 0x8000000, h := 0x4000000, hold := 0x180000, resize := some halvedBody,
    scrubs := [{ die := sharedDie, ofs := 0x4000000, len := 0x4000000, tiles := false }] }

/-- An outstanding read of a unit of KP0-C0, with TAG 0, sent in a user field. -/
def readIn (field : Nat) : OutReq := { unit := 0, tag := 0, dst := farDie, field := field, opcode := 0x10, sentAt := 0 }

/-- The tray with F1 ENABLED and F2 in its resize. One unit of KP0-C0 has a read in F1 and a read in F2 outstanding, both with TAG 0, and
the die is handling an error of class 5. -/
def sharedTagState : State :=
  { fields := [(0, { st := .enabled }), (1, halvedField)]
    dies := [(sharedDie.key, { resetDie sharedDie with
      side := { reqs := [readIn 1, readIn 2] }
      trb := { handling := [(5, 0)] } })] }

/-- F1 is contained once the resize of F2 is complete. -/
theorem exec_scrubComplete_sharedTag :
    (Out.firstField (exec (.scrubComplete 1 0) sharedTagState)).map (·.flush) = some (some (.contain, 0)) := by
  decide +kernel

theorem exec_scrubComplete_sharedTag_contains {v : State} (hv : exec (.scrubComplete 1 0) sharedTagState = .next v) :
    (v.field 0).flush = some (.contain, 0) := by
  have hflush := exec_scrubComplete_sharedTag
  rw [hv] at hflush
  exact Option.some.inj hflush

end Sys2Proof.Machine

open Sys2Proof Sys2Proof.Machine

/-- Refutes O8: a completed resize need not leave every other field alone. The request a closed account ends is looked up by its unit and
TAG, and the statement does not assume that a TAG is used once (R184): where F1 and F2 both use one, the loss of F2's request is reported
for F1, and a nested report contains F1 (R399). The other clauses do not fail here: it is the last, on the other fields, that does. -/
theorem not_fieldCreateAndResize : ¬ Obligations.FieldCreateAndResize := by
  unfold Obligations.FieldCreateAndResize
  rintro ⟨-, hresize⟩
  obtain ⟨-, hscrub⟩ := hresize sharedTagState 1 halvedBody
  obtain ⟨-, hends⟩ := hscrub 0
  obtain ⟨v, hv, -, -, -, -, -, -, -, -, -, -, hothers⟩ := hends rfl rfl
  have hsame : (v.field 0).flush = none := congrArg Field.flush (hothers 0 (by decide))
  exact absurd (hsame.symm.trans (exec_scrubComplete_sharedTag_contains hv)) (by simp)
end

section
/-! PROOF. Disable, destroy and enable of a field (O9): what a disable begins, what stays of a field and of memory while its launches end and
its plans are unloaded, what a scrub overwrites, and what the end of a destruction and an enable leave; then what each command comes to. -/

namespace Sys2Proof.Machine

/-! ### A command holds its field's scope (R259) -/

/-- A field whose scope a command holds. -/
def Field.heldBy (x : Field) (r : MReq) (opcode : Nat) : Field := { x with holder := some ⟨r, opcode⟩ }

theorem State.holdField_eq (s : State) (f : Fin 8) (r : MReq) (opcode : Nat) :
    s.holdField f r opcode = s.setField f ((s.field f).heldBy r opcode) := rfl

theorem Field.live_of_disabled {x : Field} (h : x.st = .disabled) : x.live = true := by simp [Field.live, h]

/-! ### A disable begins (R240, R243) -/

/-- A field whose step gate is still to close: a step of it runs. -/
def Field.closing (x : Field) : Field := { x with st := .disabling, ringClosed := true, sideClosed := true, stepClosing := true }

/-- A field whose three gates are closed. -/
def Field.closed (x : Field) : Field := { x.shut with st := .disabling, switch := none, drain := none, stepClosing := false }

section
variable (s : State) (f : Fin 8) {x : Field} (hflush : x.flush = none)
include hflush

theorem State.beginDisable_runs {q : Running} (hrun : x.run = some q) (hq : q.started = true) (hz : x.frozen = false) :
    (s.setField f x).beginDisable f = s.setField f x.closing := by
  simp [State.beginDisable, hflush, hrun, hq, hz, State.setField_setField, Field.closing]

variable (hrun : x.run = none)
include hrun

theorem State.beginDisable_idle : (s.setField f x).beginDisable f = (s.setField f x.closed).startDrain f x.closeWhy := by
  simp [State.beginDisable, State.closeGate, hflush, hrun, State.setField_setField, Field.closed, Field.shut]

end

/-- A drain wave resets drain marks and puts markers into the mesh; no memory changes (R233). -/
theorem State.startDrain_memoryKept (s : State) (f : Fin 8) (why : Why) : s.memoryKept (s.startDrain f why) :=
  State.memoryKept_of_mem fun k => State.forEach_keeps _ _ _ (fun v => (v.die k).mem) fun _ _ _ =>
    (State.setDie_die_keeps Die.mem (by rfl) k).trans (State.setDie_die_keeps Die.mem (by rfl) k)

/-- A field without a launch has its gates closed at once, and its drain has begun. -/
theorem State.beginDisable_leaves (s : State) (f : Fin 8) {x : Field} (hflush : x.flush = none) (hrun : x.run = none) :
    s.fieldBecomes ((s.setField f x).beginDisable f) f { x.closed with drain := some (x.closeWhy, s.now) } [.fields, .dies] ∧
      s.memoryKept ((s.setField f x).beginDisable f) := by
  rw [State.beginDisable_idle s f hflush hrun]
  have hdrain := State.startDrain_becomes (s.setField f x.closed) f x.closeWhy
  rw [State.setField_field_same] at hdrain
  exact ⟨State.fieldBecomes_trans (State.setField_becomes s f _) hdrain (by decide) (by decide),
    State.startDrain_memoryKept (s.setField f x.closed) f x.closeWhy⟩

/-! ### What an error, a lost link and the end of a launch leave of every field (R104, R166, R389) -/

/-- What a field keeps whatever stops on it: its dies, its window, and the command that holds its scope. -/
def Field.tenure (x : Field) : List DieId × Nat × Option Waiting := (x.dies, x.w, x.holder)

/-- Every field keeps its dies, its window and its command. -/
structure State.keepsTenure (s t : State) : Prop where
  tenure : ∀ g, (t.field g).tenure = (s.field g).tenure

theorem State.keepsTenure_refl (s : State) : s.keepsTenure s := ⟨fun _ => rfl⟩

section
variable {s u : State} (h : s.keepsTenure u)
include h

/-- What leaves the fields keeps them. -/
theorem State.keepsTenure_step {v : State} {l : List Part} (g : u.onlyChanges v l) (hl : .fields ∉ l) : s.keepsTenure v :=
  ⟨fun n => (congrArg Field.tenure (State.field_of_fields (g.agrees .fields hl) n)).trans (h.tenure n)⟩

theorem State.keepsTenure_setField {f : Fin 8} {x : Field} (hx : x.tenure = (u.field f).tenure) : s.keepsTenure (u.setField f x) := by
  refine ⟨fun g => Eq.trans ?_ (h.tenure g)⟩
  by_cases hg : f = g
  · subst hg; rw [State.setField_field_same, hx]
  · rw [State.setField_field_other _ _ _ _ hg]

theorem State.keepsTenure_onTally (d : DieId) (g : Tally → Tally) : s.keepsTenure (u.onTally d g) :=
  State.keepsTenure_step h (State.onTally_only u d g) (by decide)

theorem State.keepsTenure_containField (f : Fin 8) : s.keepsTenure (u.containField f) := by
  unfold State.containField
  extract_lets x
  split
  · exact h
  · split
    · exact h
    · exact State.keepsTenure_setField h rfl

theorem State.keepsTenure_report (d : DieId) (e : Err) : s.keepsTenure (u.report d e) := by
  unfold State.report
  extract_lets x trb0 nested r fc trb cnt0 cnt made msg told others rest stored contained
  have hstore : ∀ y, s.keepsTenure (u.setDie d y) := fun y => State.keepsTenure_step h (State.setDie_only u d y) (by decide)
  have hcontained : s.keepsTenure contained := by
    simp only [contained]
    split
    · split
      · exact State.forEach_inv _ _ _ s.keepsTenure (State.keepsTenure_containField (hstore rest) _) fun v w _ hv =>
          State.keepsTenure_step hv (State.noteActed_only v w _) (by decide)
      · exact hstore rest
    · exact hstore rest
  split
  · exact hstore _
  · split
    · split
      · exact State.forEach_inv _ _ _ s.keepsTenure hcontained fun v f _ hv => State.keepsTenure_containField hv f
      · split
        · exact State.keepsTenure_containField hcontained _
        · exact hcontained
    · exact hcontained

/-- A sluice alarm names boundaries on the field alone. -/
theorem State.keepsTenure_sluice (d : DieId) (f : Fin 8) (port : Nat) : s.keepsTenure (u.sluice d f port) := by
  unfold State.sluice
  extract_lets x b data alarmed near
  have halarmed : s.keepsTenure alarmed := State.keepsTenure_step h (State.onDie_only u d _) (by decide)
  split
  · exact halarmed
  · exact State.keepsTenure_setField halarmed
      (List.foldlRecOn _ _ (motive := fun y : Field => y.tenure = (alarmed.field f).tenure) rfl fun _ hy _ _ => hy)

theorem State.keepsTenure_losePin (p : PortId) : s.keepsTenure (u.losePin p) := by
  unfold State.losePin
  split
  · exact h
  · exact State.forEach_inv _ _ _ s.keepsTenure h fun v f _ hv =>
      State.keepsTenure_sluice (State.keepsTenure_report hv _ _) _ f _

theorem State.keepsTenure_enterFault (d : DieId) : s.keepsTenure (u.enterFault d) := by
  unfold State.enterFault
  extract_lets was faulted own stopped
  have hfaulted : s.keepsTenure faulted := State.keepsTenure_onTally h d _
  have hstopped : s.keepsTenure stopped := by
    simp only [stopped, own]
    split
    · exact State.keepsTenure_sluice (State.keepsTenure_report hfaulted d _) d _ _
    · exact State.keepsTenure_report hfaulted d _
  split
  · exact h
  · exact State.forEach_inv _ _ _ s.keepsTenure hstopped fun v p _ hv => State.keepsTenure_losePin hv p

theorem State.keepsTenure_takeParent (d : DieId) (q : Fin 5) (x : Seen) : s.keepsTenure (u.takeParent d q x) := by
  have htally : ∀ g, s.keepsTenure (u.onTally d g) := State.keepsTenure_onTally h d
  have hhold : s.keepsTenure (u.enterHoldover d) := State.keepsTenure_step h (State.enterHoldover_only u d) (by decide)
  have hfault : ∀ g, s.keepsTenure ((u.onTally d g).enterFault d) := fun g => State.keepsTenure_enterFault (htally g) d
  unfold State.takeParent
  extract_lets y depth ofs y1 v w
  split
  · split
    · exact h
    · exact hhold
  · split
    · split <;> exact htally _
    · split
      · split
        · exact htally _
        · split <;> exact htally _
      · split
        · exact hfault _
        · split
          · split
            · exact hfault _
            · exact htally _
          · exact htally _

theorem State.keepsTenure_parentFails (d : DieId) : s.keepsTenure (u.parentFails d) := by
  unfold State.parentFails
  extract_lets y orphan
  have horphan : s.keepsTenure orphan := State.keepsTenure_onTally h d _
  split
  · split
    · exact State.keepsTenure_takeParent horphan d _ _
    · exact State.keepsTenure_step horphan (State.enterHoldover_only orphan d) (by decide)
  · exact horphan

theorem State.keepsTenure_linkLeaves (p : PortId) : s.keepsTenure (u.linkLeaves p) := by
  unfold State.linkLeaves
  extract_lets unseen
  have hunseen : s.keepsTenure unseen := State.keepsTenure_onTally h p.die _
  split
  · exact State.keepsTenure_parentFails hunseen p.die
  · exact hunseen

theorem State.keepsTenure_portIdle (p : PortId) : s.keepsTenure (u.portIdle p) := by
  have hidled : s.keepsTenure (u.idled p) := by
    simp only [State.idled, State.onLink_eq]
    refine State.keepsTenure_step ?_ (State.setPort_only _ p _) (by decide)
    split
    · exact State.keepsTenure_step h (State.leaveUp_only u p) (by decide)
    · exact h
  rw [State.portIdle_eq]
  split
  · exact State.keepsTenure_step (State.keepsTenure_losePin (State.keepsTenure_linkLeaves hidled p) p) (State.linkEvent_only _) (by decide)
  · exact hidled

end

/-! ### Launches complete and plans are unloaded (R243, R246) -/

theorem State.notify_memoryKept (s : State) (n : Fin 9) (v : Nat) : s.memoryKept (s.notify n v) := by
  refine State.memoryKept_of_mem fun k => ?_
  unfold State.notify
  split
  · rw [State.raise_die]
  · exact State.undelivered_die_mem s _ _ _ k

/-- Each field keeps its dies, window and command, and every die its memory. -/
structure State.keepsGround (s t : State) : Prop where
  fields : s.keepsTenure t
  mem : s.memoryKept t

section
variable {s u : State} (h : s.keepsGround u)
include h

theorem State.keepsGround_setField {f : Fin 8} {x : Field} (hx : x.tenure = (u.field f).tenure) : s.keepsGround (u.setField f x) :=
  ⟨State.keepsTenure_setField h.fields hx, State.memoryKept_trans h.mem fun _ _ => rfl⟩

/-- What changes neither fields nor dies keeps both. -/
theorem State.keepsGround_step {v : State} {l : List Part} (g : u.onlyChanges v l) (hf : .fields ∉ l) (hd : .dies ∉ l) :
    s.keepsGround v :=
  ⟨State.keepsTenure_step h.fields g hf,
    State.memoryKept_trans h.mem (State.memoryKept_of_mem fun k => congrArg Die.mem (State.die_of_dies (g.agrees .dies hd) k))⟩

theorem State.keepsGround_completeEntry (f : Fin 8) (status reached poison csum clean : Nat) :
    s.keepsGround (u.completeEntry f status reached poison csum clean) := by
  unfold State.completeEntry
  extract_lets x i e irq done ring idle noted
  have hnoted : s.keepsGround noted := State.keepsGround_setField h rfl
  split
  · exact ⟨State.keepsTenure_step hnoted.fields (State.notify_only noted _ _) (by decide),
      State.memoryKept_trans hnoted.mem (State.notify_memoryKept noted _ _)⟩
  · exact hnoted

theorem State.keepsGround_completeAll (f : Fin 8) (status : Nat) : s.keepsGround (u.completeAll f status) := by
  unfold State.completeAll
  extract_lets x ran rest
  have hran : s.keepsGround ran := by
    simp only [ran]
    split
    · exact State.keepsGround_setField (State.keepsGround_completeEntry h f _ _ _ _ _) rfl
    · exact h
  have hrest : s.keepsGround rest := State.keepsGround_step
    (List.foldlRecOn _ _ (motive := s.keepsGround) hran fun v hv _ _ => State.keepsGround_completeEntry hv f _ _ _ _ _)
    (State.settlePonds_only _ f) (by decide) (by decide)
  clear_value rest
  exact State.keepsGround_setField hrest rfl

theorem State.keepsGround_settleForced : s.keepsGround u.settleForced := by
  unfold State.settleForced
  refine State.forEach_inv _ _ _ s.keepsGround h fun v d _ hv => State.forEach_inv _ _ _ s.keepsGround hv fun w p _ hw => ?_
  extract_lets l
  have hfreed : s.keepsGround (w.onLink p fun l => { l with forced := false, disabled := true, forcedAt := none, liftedAt := none }) :=
    State.keepsGround_step hw (State.onLink_only w p _) (by decide) (by decide)
  split
  · exact ⟨State.keepsTenure_portIdle hfreed.fields p, State.memoryKept_trans hfreed.mem (State.portIdle_memoryKept _ p)⟩
  · exact hw

theorem State.keepsGround_unloadAll (f : Fin 8) : s.keepsGround (u.unloadAll f) :=
  State.keepsGround_settleForced (State.keepsGround_setField h rfl)

end

/-! ### A destruction begins (R290) -/

theorem State.endClaim_vacant (s : State) (n : Fin 9) (told : Bool) : ((s.endClaim n told).scope n).owned = false := by
  unfold State.endClaim
  extract_lets x vacant aimed
  split
  · split <;> simp [aimed, vacant]
  · rename_i h
    exact Bool.not_eq_true _ ▸ h

theorem State.endClaim_scope_other (s : State) {n m : Fin 9} (told : Bool) (h : m ≠ n) : (s.endClaim n told).scope m = s.scope m := by
  unfold State.endClaim
  extract_lets x vacant aimed
  have haimed : aimed.scope m = s.scope m := by simp [aimed, vacant, State.setScope_scope_other _ _ _ _ h.symm]
  split
  · split
    · rw [State.ownEvent_scope, haimed]
    · exact haimed
  · rfl

theorem State.scope_of_scopes {s t : State} (h : t.scopes = s.scopes) (n : Fin 9) : t.scope n = s.scope n := by simp only [State.scope, h]

theorem State.allPorts_of_span {s t : State} (h : t.span = s.span) : t.allPorts = s.allPorts := by
  simp only [State.allPorts, State.allDies, State.trays, h]

theorem NMap.get_erase {ν : Type} (m : NMap ν) (k : Nat) (d : ν) : NMap.get (NMap.erase m k) k d = d := by
  rcases NMap.get_cases (NMap.erase m k) k d with hd | hmem
  · exact hd
  · simp [NMap.erase] at hmem

/-- What a change makes true of any port, a loop of it makes true of each port it meets. -/
theorem State.forEach_onPort_port {P : Port → Prop} {g : Port → Port} (hg : ∀ y, P (g y)) (s : State) {l : List PortId} {p : PortId}
    (hp : p ∈ l) : P ((s.forEach l fun s p => s.onPort p g).port p) := by
  induction l generalizing s with
  | nil => exact absurd hp List.not_mem_nil
  | cons q rest ih =>
    rw [State.forEach_cons]
    by_cases hrest : p ∈ rest
    · exact ih _ hrest
    · obtain rfl : p = q := (List.mem_cons.1 hp).resolve_right hrest
      refine State.forEach_inv _ _ _ (fun v => P (v.port p)) (by simp [hg]) fun v k hk hv => ?_
      rw [State.onPort_eq, State.setPort_port_other _ _ _ _ fun e : k = p => hrest (e ▸ hk)]
      exact hv

/-- A port without the hold region of a field. -/
def Port.freeHold (f : Fin 8) (y : Port) : Port :=
  { y with pond := { y.pond with holds := NMap.erase y.pond.holds (fnum f), dueHolds := NMap.erase y.pond.dueHolds (fnum f) } }

/-- A port holds no region for a field. -/
def Port.noHold (f : Fin 8) (y : Port) : Prop := NMap.get y.pond.holds (fnum f) 0 = 0

theorem Port.freeHold_holds (f : Fin 8) (y : Port) : (y.freeHold f).noHold f := NMap.get_erase y.pond.holds (fnum f) 0

/-- A destruction that begins ends the claim of the field's owner, frees the field's hold regions and names its dies' windows to scrub. -/
theorem State.startDestroy_leaves (s : State) (f : Fin 8) :
    let t := s.startDestroy f
    (t.field f).st = .changing ∧ (t.field f).scrub = some .destroy ∧
      (t.field f).scrubs = (s.field f).dies.map (fun d => { die := d, ofs := 0, len := (s.field f).w, tiles := true }) ∧
      (t.field f).holder = (s.field f).holder ∧ (t.scope (fscope f)).owned = false ∧
      (∀ p ∈ s.allPorts, NMap.get (t.port p).pond.holds (fnum f) 0 = 0) ∧ s.memoryKept t ∧
      ∀ m, m ≠ fscope f → t.scope m = s.scope m := by
  unfold State.startDestroy
  extract_lets unloaded o own vacated gone closed freed t
  have hunloaded : s.keepsGround unloaded :=
    State.keepsGround_unloadAll (State.keepsGround_completeAll ⟨State.keepsTenure_refl s, fun _ _ => rfl⟩ f _) f
  have hunloadedOnly : s.onlyChanges unloaded [.effects, .ports, .fields, .dies, .links, .trouble] :=
    only_step (State.unloadAll_only _ f) (by decide) (only_step (State.completeAll_only s f _) (by decide) (only_refl s _))
  have hclosed : vacated.onlyChanges closed [.dies] :=
    only_forEach (only_refl _ _) fun v d hv => only_step (State.onDie_only v d _) (by decide) hv
  have hclosedMem : ∀ k, (closed.die k).mem = (vacated.die k).mem := fun k =>
    State.forEach_keeps _ _ _ (fun v => (v.die k).mem) fun v d _ => by
      refine State.setDie_die_keeps Die.mem ?_ k
      dsimp only
      split <;> rfl
  have hfreed : closed.onlyChanges freed [.links] :=
    only_forEach (only_refl _ _) fun v p hv => only_step (State.onPort_only v p _) (by decide) hv
  have hlater : vacated.onlyChanges freed [.dies, .links] :=
    only_step hfreed (by decide) (only_step hclosed (by decide) (only_refl _ _))
  have hports : closed.allPorts = s.allPorts := State.allPorts_of_span
    ((hclosed.agrees .span (by decide)).trans
      (((State.endClaim_only unloaded _ _).agrees .span (by decide)).trans (hunloadedOnly.agrees .span (by decide))))
  have hscope : ∀ m, freed.scope m = vacated.scope m := State.scope_of_scopes (hlater.agrees .scopes (by decide))
  have htenure : (freed.field f).tenure = (s.field f).tenure := by
    rw [State.field_of_fields (hlater.agrees .fields (by decide)), State.endClaim_field]
    exact hunloaded.fields.tenure f
  obtain ⟨hdies, hw, hholder⟩ : (freed.field f).dies = (s.field f).dies ∧ (freed.field f).w = (s.field f).w ∧
      (freed.field f).holder = (s.field f).holder := by
    simpa [Field.tenure] using htenure
  have hmem : s.memoryKept freed := State.memoryKept_trans hunloaded.mem <| State.memoryKept_of_mem fun k => by
    rw [State.die_of_dies (hfreed.agrees .dies (by decide)), hclosedMem, State.endClaim_die]
  have hholds : ∀ p ∈ s.allPorts, (freed.port p).noHold f := fun p hp =>
    State.forEach_onPort_port (Port.freeHold_holds f) closed (by rw [hports]; exact hp)
  clear_value freed
  simp only [t, State.onField_eq, State.setField_field_same, State.setField_scope, State.setField_port]
  refine ⟨trivial, trivial, ?_, hholder, ?_, hholds, hmem, fun m hm => ?_⟩
  · rw [hdies, hw]
  · rw [hscope]
    exact State.endClaim_vacant unloaded _ _
  · rw [hscope, State.endClaim_scope_other _ _ hm]
    exact State.scope_of_scopes (hunloadedOnly.agrees .scopes (by decide)) m

/-! ### A scrub overwrites (R279) -/

theorem Memory.get_zero_inside (m : Memory) {a n c : Nat} (h : a ≤ c ∧ c < a + n) : Memory.get (Memory.zero m a n) c = 0 := by
  rcases NMap.get_cases (Memory.zero m a n) c (0 : Byte) with hzero | hmem
  · exact hzero
  · simp only [Memory.zero, List.mem_filter, decide_eq_true_eq] at hmem
    omega

theorem Memory.get_zero_outside (m : Memory) {a n c : Nat} (h : c < a ∨ a + n ≤ c) :
    Memory.get (Memory.zero m a n) c = Memory.get m c := by
  induction m with
  | nil => rfl
  | cons e rest ih =>
    obtain ⟨j, b⟩ := e
    by_cases hj : j < a ∨ a + n ≤ j
    · rw [Memory.zero, List.filter_cons_of_pos (by simpa using hj)]
      show (if j = c then b else Memory.get (Memory.zero rest a n) c) = if j = c then b else Memory.get rest c
      rw [ih]
    · have hne : j ≠ c := fun hc => hj (hc ▸ h)
      rw [Memory.zero, List.filter_cons_of_neg (by simpa using hj)]
      exact ih.trans (if_neg hne).symm

/-- Zeroing makes no byte other than 0. -/
theorem Memory.get_zero_of_zero {m : Memory} {c : Nat} (a n : Nat) (h : Memory.get m c = 0) : Memory.get (Memory.zero m a n) c = 0 := by
  by_cases hc : a ≤ c ∧ c < a + n
  · exact Memory.get_zero_inside m hc
  · rw [Memory.get_zero_outside m (by omega), h]

theorem State.doScrub_mem_same (s : State) (z : Scrub) : ((s.doScrub z).die z.die).mem = Memory.zero (s.die z.die).mem z.ofs z.len := by
  unfold State.doScrub
  rw [State.onDie_eq, State.setDie_die_same]
  split <;> rfl

theorem State.doScrub_die_other (s : State) {z : Scrub} {k : DieId} (h : z.die ≠ k) : (s.doScrub z).die k = s.die k :=
  State.setDie_die_other _ _ _ _ h

/-- A scrub leaves no byte that was 0 other than 0. -/
theorem State.doScrub_keeps_zero {s : State} {k : DieId} {a : Nat} (h : Memory.get (s.die k).mem a = 0) (z : Scrub) :
    Memory.get ((s.doScrub z).die k).mem a = 0 := by
  by_cases hk : z.die = k
  · subst hk
    rw [State.doScrub_mem_same]
    exact Memory.get_zero_of_zero z.ofs z.len h
  · rw [State.doScrub_die_other s hk, h]

/-- Scrubs done one after another leave every byte of each 0. -/
theorem State.forEach_doScrub_zero (s : State) {l : List Scrub} {z : Scrub} (hz : z ∈ l) {a : Nat} (ha : z.ofs ≤ a ∧ a < z.ofs + z.len) :
    Memory.get ((s.forEach l State.doScrub).die z.die).mem a = 0 := by
  induction l generalizing s with
  | nil => exact absurd hz List.not_mem_nil
  | cons y rest ih =>
    rw [State.forEach_cons]
    by_cases hrest : z ∈ rest
    · exact ih _ hrest
    · obtain rfl : z = y := (List.mem_cons.1 hz).resolve_right hrest
      refine State.forEach_inv _ _ _ (fun v => Memory.get (v.die z.die).mem a = 0) ?_ fun v y _ hv => State.doScrub_keeps_zero hv y
      rw [State.doScrub_mem_same]
      exact Memory.get_zero_inside _ ha

/-! ### The destruction ends (R290) -/

theorem State.leaveRungs_die_mem (s : State) (dies : List DieId) (k : DieId) : ((s.leaveRungs dies).die k).mem = (s.die k).mem :=
  State.forEach_keeps _ _ _ (fun v => (v.die k).mem) fun v d _ => by
    split
    · rfl
    · exact State.commandMv_die_keeps Die.mem (fun _ _ => rfl) v d _ _ k

/-- Its scrub done, the field is gone, the windows are 0 and the command is answered. -/
theorem State.finishDestroy_leaves (s : State) (f : Fin 8) :
    let v := s.finishDestroy f
    v.field f = {} ∧ s.otherFields v f ∧
      (∀ z ∈ (s.field f).scrubs, ∀ a, z.ofs ≤ a → a < z.ofs + z.len → Memory.get (v.die z.die).mem a = 0) ∧
      ∀ w, (s.field f).holder = some w → s.awaits w.req → v.answered w.req w.opcode 0 [] := by
  unfold State.finishDestroy
  extract_lets x scrubbed gone v
  have hscrubbed : s.onlyChanges scrubbed [.dies] :=
    only_forEach (only_refl s _) fun v z hv => only_step (State.doScrub_only v z) (by decide) hv
  have hcleared : s.onlyChanges (scrubbed.clearObs f) [.dies, .links] :=
    only_step (State.clearObs_only scrubbed f) (by decide) (only_step hscrubbed (by decide) (only_refl s _))
  obtain ⟨hfield, hothers, honly⟩ : s.fieldBecomes gone f {} [.dies, .links, .fields] := by
    have hset : s.fieldBecomes ((scrubbed.clearObs f).setField f {}) f {} [.dies, .links, .fields] :=
      have hbecomes := State.setField_becomes (scrubbed.clearObs f) f {}
      have hsame := State.field_of_fields (hcleared.agrees .fields (by decide))
      ⟨hbecomes.field, fun g hg => (hbecomes.others g hg).trans (hsame g),
        only_step hbecomes.only (by decide) (only_step hcleared (by decide) (only_refl s _))⟩
    exact State.fieldBecomes_step hset (State.leaveRungs_only _ _) (by decide) (by decide) (by decide)
  have hmem : ∀ k, (gone.die k).mem = (scrubbed.die k).mem := fun k => by
    rw [State.leaveRungs_die_mem, State.setField_die, State.die_of_dies ((State.clearObs_only scrubbed f).agrees .dies (by decide))]
  have hzero : ∀ z ∈ x.scrubs, ∀ a, z.ofs ≤ a → a < z.ofs + z.len → Memory.get (gone.die z.die).mem a = 0 :=
    fun z hz a hlo hhi => by rw [hmem, State.forEach_doScrub_zero s hz ⟨hlo, hhi⟩]
  clear_value gone
  cases hw : x.holder with
  | none =>
    have hv : v = gone := by simp only [v, hw]
    rw [hv]
    exact ⟨hfield, hothers, hzero, fun w hq => absurd hq (by simp)⟩
  | some w =>
    have hv : v = gone.reply w.req w.opcode 0 [] := by simp only [v, hw]
    rw [hv]
    refine ⟨by rw [State.reply_field, hfield], fun g hg => by rw [State.reply_field, hothers g hg], fun z hz a hlo hhi => ?_,
      fun q hq hawaits => ?_⟩
    · rw [State.reply_die]
      exact hzero z hz a hlo hhi
    · obtain rfl : w = q := Option.some.inj hq
      exact State.reply_answered (State.awaits_of_ports s _ (honly.agrees .ports (by decide)) hawaits) ..

/-! ### A field opens again (R243) -/

theorem State.nameChange_becomes (s : State) (f : Fin 8) (k : ChangeKind) :
    s.fieldBecomes (s.nameChange f k) f { s.field f with change := some (s.named f k) } [.free, .fields] :=
  have ⟨hfield, hothers, honly⟩ := State.nameChange_leaves s f k
  ⟨hfield, hothers, honly⟩

/-- A review of a field's limits names, replaces or gives up its change, and nothing else of any field (R95, R300). -/
theorem State.reviewLimits_becomes (s : State) (f : Fin 8) :
    ∃ c, s.fieldBecomes (s.reviewLimits f) f { s.field f with change := c } [.free, .fields, .dies] := by
  have hsame : s.fieldBecomes s f { s.field f with change := (s.field f).change } [.free, .fields, .dies] :=
    ⟨rfl, fun _ _ => rfl, only_refl s _⟩
  have habandoned := State.abandonChange_becomes s f
  unfold State.reviewLimits
  extract_lets x rung duty want
  clear_value want
  split
  · exact ⟨_, hsame⟩
  · split
    · split
      · exact ⟨_, hsame⟩
      · split
        next k _ =>
          have hnamed := State.fieldBecomes_trans (m := [.free, .fields, .dies]) habandoned
            (State.nameChange_becomes (s.abandonChange f) f k) (by decide) (by decide)
          rw [habandoned.field] at hnamed
          exact ⟨_, hnamed⟩
        · exact ⟨_, habandoned.field, habandoned.others, only_step habandoned.only (by decide) (only_refl s _)⟩
    next k _ =>
      have hnamed := State.nameChange_becomes s f k
      exact ⟨_, hnamed.field, hnamed.others, only_step hnamed.only (by decide) (only_refl s _)⟩
    · exact ⟨_, hsame⟩

/-- The field of a FIELD_ENABLE: its headgates open, idle since now. -/
def Field.enabledAt (x : Field) (now : Nat) : Field := { x.reopen with st := .enabled, idleSince := now }

/-- A field that opens keeps its dies and its plan; its limits are reviewed, and the command is answered. -/
theorem State.enabled_leaves {s : State} {r : MReq} (h : s.awaits r) (f : Fin 8) (now : Nat) :
    let t := ((s.setField f ((s.field f).enabledAt now)).reviewLimits f).reply r 0x0305 0 []
    (∃ c, t.field f = { (s.field f).enabledAt now with change := c }) ∧ t.answered r 0x0305 0 [] ∧ s.otherFields t f ∧ s.memoryKept t ∧
      s.onlyChanges t [.ports, .wmReply, .free, .fields, .dies] := by
  intro t
  have hset := State.setField_becomes s f ((s.field f).enabledAt now)
  obtain ⟨c, hreview⟩ := State.reviewLimits_becomes (s.setField f ((s.field f).enabledAt now)) f
  rw [State.setField_field_same] at hreview
  obtain ⟨hfield, hothers, honly⟩ := State.fieldBecomes_trans (m := [.free, .fields, .dies]) hset hreview (by decide) (by decide)
  have hawaits := State.awaits_of_ports s _ (honly.agrees .ports (by decide)) h
  have hmem := (State.keepsRung_reviewLimits (State.keepsRung_refl f (s.setField f ((s.field f).enabledAt now))) f).mem
  exact ⟨⟨c, (State.reply_field ..).trans hfield⟩, State.reply_answered hawaits .., fun g hg => (State.reply_field ..).trans (hothers g hg),
    State.memoryKept_of_mem fun k => by rw [State.reply_die]; exact hmem k,
    only_step (State.reply_only ..) (by decide) (only_step honly (by decide) (only_refl s _))⟩

/-! ### The field and the scope of a field number -/

@[simp] theorem fieldOfNum_fnum (f : Fin 8) : fieldOfNum (fnum f) = some f := dif_pos ⟨Nat.le_add_left 1 f.val, f.isLt⟩

@[simp] theorem fieldScope_fnum (f : Fin 8) : fieldScope (fnum f) = some (fscope f) := by
  rw [fieldScope, if_pos (show 1 ≤ fnum f from Nat.le_add_left 1 f.val)]
  exact dif_pos (fscope f).isLt

/-! ### What each command comes to once it is decided -/

section
variable {s u : State} {r : MReq} {f : Fin 8} (hu : s.atRequest r = u)
include hu

theorem exec_fieldDisable (h : s.decides r ⟨0x0304, 4, false, .either (some (fscope f)), some (fscope f), false⟩
      (fun v => v.refuses (some f) true)) :
    exec (.fieldDisable r (fnum f)) s = .next (
      if !(u.field f).live then u.reply r 0x0304 eFieldState []
      else if (u.field f).st = .disabled then u.reply r 0x0304 0 []
      else (u.holdField f r 0x0304).beginDisable f) := by
  show execFieldDisable r (fnum f) s = _
  simp only [execFieldDisable, fieldOfNum_fnum, fieldScope_fnum, Option.isNone_some, Bool.false_eq_true, if_false,
    State.serve_decides h, hu]

theorem exec_fieldDestroy (h : s.decides r ⟨0x0303, 4, false, .tray, some (fscope f), false⟩ (fun v => v.refuses (some f) true)) :
    exec (.fieldDestroy r (fnum f)) s = .next (
      if !(u.field f).live then u.reply r 0x0303 eFieldState []
      else if (u.field f).st = .disabled then (u.holdField f r 0x0303).startDestroy f
      else ((u.holdField f r 0x0303).onField f fun x => { x with scrub := some .destroy }).beginDisable f) := by
  show execFieldDestroy r (fnum f) s = _
  simp only [execFieldDestroy, fieldOfNum_fnum, fieldScope_fnum, Option.isNone_some, Bool.false_eq_true, if_false,
    State.serve_decides h, hu]

theorem exec_fieldEnable (h : s.decides r ⟨0x0305, 4, false, .either (some (fscope f)), some (fscope f), false⟩ noEarly) :
    exec (.fieldEnable r (fnum f)) s = .next (
      if !(u.field f).live then u.reply r 0x0305 eFieldState []
      else if (u.field f).st = .disabled then
        ((u.setField f ((u.field f).enabledAt (u.leadTally f))).reviewLimits f).reply r 0x0305 0 []
      else u.reply r 0x0305 0 []) := by
  show execFieldEnable r (fnum f) s = _
  unfold noEarly at h
  simp only [execFieldEnable, fieldOfNum_fnum, fieldScope_fnum, Option.isNone_some, Bool.false_eq_true, if_false,
    State.serve_decides h, hu, State.onField_eq, Field.enabledAt]

end

theorem exec_scrubComplete_destroy {s u : State} {f : Fin 8} {t : Nat} (hu : s.clock t = u) (hst : (u.field f).st = .changing)
    (hresize : (u.field f).resize = none) (hscrub : (u.field f).scrub = some .destroy) :
    exec (.scrubComplete f t) s = .next (u.finishDestroy f) := by
  show execScrubComplete f t s = _
  simp only [execScrubComplete, hu, hresize]
  rw [if_neg (not_not_intro hst), if_pos hscrub]

end Sys2Proof.Machine

open Sys2Proof Sys2Proof.Machine

/-- Settles O9: `State.beginDisable_runs` and `State.beginDisable_leaves` say what a disable begins, `State.startDestroy_leaves` and
`State.finishDestroy_leaves` what a destruction begins and ends with, and `State.enabled_leaves` what an enable leaves. That an enable of a
field that is enabled answers OK, and that an absent field answers E_FIELD_STATE, is the model's choice (log entry 18). -/
theorem fieldEnableDisableDestroy : Obligations.FieldEnableDisableDestroy := by
  unfold Obligations.FieldEnableDisableDestroy
  constructor
  case left =>
    intro s r f u
    have hu : s.atRequest r = u := rfl
    clear_value u
    refine ⟨fun h => ⟨fun hl => ?_, fun hst => ?_, fun q hl hst hflush hrun hq hz => ?_, fun hl hst hflush hrun => ?_⟩,
      fun h => ⟨fun hl => ?_, fun q hl hst hflush hrun hq hz => ?_, fun hst => ?_⟩, fun t => ?_⟩
    · rw [exec_fieldDisable hu h, if_pos (by simp [hl])]
      rfl
    · rw [exec_fieldDisable hu h, if_neg (by simp [Field.live_of_disabled hst]), if_pos hst]
    · rw [exec_fieldDisable hu h, if_neg (by simp [hl]), if_neg hst, State.holdField_eq]
      exact congrArg _ (State.beginDisable_runs u f hflush hrun hq hz)
    · obtain ⟨⟨hfield, hothers, honly⟩, hmem⟩ := State.beginDisable_leaves u f (x := (u.field f).heldBy r 0x0304) hflush hrun
      refine ⟨_, by rw [exec_fieldDisable hu h, if_neg (by simp [hl]), if_neg hst, State.holdField_eq], ?_⟩
      rw [hfield]
      exact ⟨rfl, rfl, rfl, rfl, rfl, rfl, hothers, hmem, honly.agrees .ports (by decide)⟩
    · rw [exec_fieldDestroy hu h, if_pos (by simp [hl])]
      rfl
    · rw [exec_fieldDestroy hu h, if_neg (by simp [hl]), if_neg hst, State.holdField_eq, State.onField_eq, State.setField_field_same,
        State.setField_setField]
      exact congrArg _ (State.beginDisable_runs u f hflush hrun hq hz)
    · obtain ⟨hchanging, hscrub, hscrubs, hholder, hleft⟩ :=
        State.startDestroy_leaves (u.setField f ((u.field f).heldBy r 0x0303)) f
      rw [State.setField_field_same] at hscrubs hholder
      exact ⟨_, by rw [exec_fieldDestroy hu h, if_neg (by simp [Field.live_of_disabled hst]), if_pos hst, State.holdField_eq],
        hchanging, hscrub, hscrubs, hholder, hleft⟩
    · intro w hst hresize hscrub
      exact ⟨_, exec_scrubComplete_destroy rfl hst hresize hscrub, State.finishDestroy_leaves w f⟩
  case right =>
    intro s r f u h
    have hu : s.atRequest r = u := rfl
    clear_value u
    refine ⟨fun hl => ?_, fun hl hst => ?_, fun hst => ?_⟩
    · rw [exec_fieldEnable hu h, if_pos (by simp [hl])]
      rfl
    · rw [exec_fieldEnable hu h, if_neg (by simp [hl]), if_neg hst]
    · obtain ⟨⟨c, hfield⟩, hanswered, hothers, hmem, honly⟩ := State.enabled_leaves (hu ▸ h.awaits) f (u.leadTally f)
      refine ⟨_, by rw [exec_fieldEnable hu h, if_neg (by simp [Field.live_of_disabled hst]), if_pos hst], hanswered, ?_⟩
      rw [hfield]
      exact ⟨rfl, rfl, rfl, rfl, rfl, rfl, hothers, hmem, honly⟩
end
